-- ==== Sys2Proof/Word.lean ====
section
/-! DEFINITION. The word types of the model (R4 to R7): a byte, the 32-bit status word, and the wider
counters the spec names as bits. -/

namespace Sys2Proof

/-- One byte (R5, R6). -/
abbrev Byte := BitVec 8

/-- A status word, configuration word or record parameter (R7, R11). -/
abbrev Word := BitVec 32

/-- A 16-bit field of a header or payload. -/
abbrev Half := BitVec 16

end Sys2Proof
end

