-- ==== Sys2Proof/Syntax.lean ====
section
/-! DEFINITION. The commands of the block: the packets a host sends (R39, R40), the unit names (Table 0-1,
Table 1-4, Table 1-5), the frames of the networks, and `Instr`, one constructor per row of the operation table. -/

namespace Sys2Proof

/-- The units that own a command queue (R70): every unit of Table 1-4 and Table 1-5, the regions, and the chip. -/
inductive UnitRef where
  | chip
  | out (n : Fin 96)
  | leg (n : Fin 16)
  | vh (n : Fin 4)
  | vl (n : Fin 16)
  | sw (n : Fin 64)
  | fi (n : Fin 16)
  | fq (n : Fin 16)
  | lf (n : Fin 6)
  | tp
  | uhf
  | spi (n : Fin 2)
  | eth (n : Fin 2)
  | can (n : Fin 6)
  | lin (n : Fin 8)
  | slot (n : Fin 64)
  | trl
  | region (n : Fin 7)
  deriving DecidableEq, Repr

/-- A command packet after its header has been checked (R39, R40): `host` is the HOST_ID the module writes on
receipt, `time` the execution time that stands when SCHEDULED is set, `cmac` the 8 bytes that stand when AUTH is set. -/
structure Packet where
  host        : Fin 16
  replyWanted : Bool
  auth        : Bool
  chain       : Bool
  member      : BitVec 4
  prio        : BitVec 2
  opcode      : Half
  tag         : Half
  hostSeq     : Word
  keySlot     : Byte
  time        : Option (BitVec 64)
  payload     : List Byte
  cmac        : List Byte
  deriving DecidableEq, Repr

/-- A CAN frame as the controllers see it (R379, R380). -/
structure CanFrame where
  ext  : Bool
  id   : BitVec 29
  fd   : Bool
  brs  : Bool
  rtr  : Bool
  esi  : Bool
  data : List Byte
  deriving DecidableEq, Repr

/-- An Ethernet frame at a port of the internal switch (R57, R362, R363). `tag` is the 802.1Q tag: PCP and VLAN ID. -/
structure EthFrame where
  dst       : BitVec 48
  src       : BitVec 48
  tag       : Option (BitVec 3 × BitVec 12)
  etherType : Half
  payload   : List Byte
  deriving DecidableEq, Repr

/-- What one conversion slot of a block ADC gives (R187, R513): a cell's reading, a self-check of the ADC, or a
charge-pump check. Currents in uA, voltages in mV, junction temperature in degrees C. -/
inductive AdcSlot where
  | cell (index : Fin 16) (currentUA : Int) (voutMV : Int) (tjC : Int) (supplyMV : Int)
  | selfCheck (ok : Bool)
  | chargePump (ok : Bool)
  deriving DecidableEq, Repr

/-- How a leg, header or retained unit trips (R133, R270, R301, R522): the kinds of Table 4-17 and Table 6-20. -/
inductive TripKind where
  | overCurrent
  | thermal
  | wire
  deriving DecidableEq, Repr

/-- What trips or is watched in a retained unit, with the current it met in mA (R133). -/
structure WatchTrip where
  kind      : TripKind
  currentMA : Nat
  deriving DecidableEq, Repr

/-- A region's supply in mV, and for how long in us it has lain so (R243, R245). -/
structure HeldSupply where
  mV : Nat
  us : Nat
  deriving DecidableEq, Repr

/-- The states of the field supply (R325, R326). -/
inductive FieldSupply where
  | ok
  | low
  | missing
  deriving DecidableEq, Repr

/-- The memory a correctable or uncorrectable ECC error is found in (R513, Table 17-1). -/
inductive EccPlace where
  | engineSram
  | stagingSram
  | switchSram
  | keySram
  | trellisSram
  | nonVolatile (addr : Nat)
  | domainImage (d : Fin 16)
  deriving DecidableEq, Repr


/-- The commands of the block: one constructor per row of the operation table, in the table's order. A packet row takes
the packet at its execution; an event row takes what the event brings from outside. -/
inductive Instr where
  /-- R82 -/
  | nop (p : Packet)
  /-- R82 -/
  | identify (p : Packet)
  /-- R83 -/
  | readStatus (p : Packet)
  /-- R84 -/
  | clearStatus (p : Packet)
  /-- R85 -/
  | restart (p : Packet)
  /-- R82 -/
  | eventRoute (p : Packet)
  /-- R86 -/
  | eventMask (p : Packet)
  /-- R87 -/
  | hostBind (p : Packet)
  /-- R87 -/
  | hostRelease (p : Packet)
  /-- R65 -/
  | authPolicy (p : Packet)
  /-- R81 -/
  | schedCancel (p : Packet)
  /-- R88 -/
  | hostSilence (p : Packet)
  /-- R135 -/
  | domainSet (p : Packet)
  /-- R135 -/
  | domainSetTurn
  /-- R136 -/
  | domainSetReply
  /-- R137 -/
  | replyPathTurndown
  /-- R146 -/
  | wakeConfig (p : Packet)
  /-- R150 -/
  | lastWake (p : Packet)
  /-- R147 -/
  | timerWake (p : Packet)
  /-- R173 -/
  | outSet (p : Packet)
  /-- R176 -/
  | outConfig (p : Packet)
  /-- R189 -/
  | outRead (p : Packet)
  /-- R185 -/
  | gangSet (p : Packet)
  /-- R175 -/
  | outCas (p : Packet)
  /-- R223 -/
  | protConfig (p : Packet)
  /-- R220 -/
  | latchClear (p : Packet)
  /-- R224 -/
  | envelopeLearn (p : Packet)
  /-- R259 -/
  | regionConfig (p : Packet)
  /-- R256 -/
  | pruneClassSet (p : Packet)
  /-- R258 -/
  | moduleBudget (p : Packet)
  /-- R267 -/
  | brMove (p : Packet)
  /-- R286 -/
  | brConfig (p : Packet)
  /-- R287 -/
  | brRead (p : Packet)
  /-- R287 -/
  | brClear (p : Packet)
  /-- R287 -/
  | brPosition (p : Packet)
  /-- R278 -/
  | brLearn (p : Packet)
  /-- R311 -/
  | valveSet (p : Packet)
  /-- R310 -/
  | valveConfig (p : Packet)
  /-- R310 -/
  | headerConfig (p : Packet)
  /-- R310 -/
  | valveRead (p : Packet)
  /-- R302 -/
  | valveClear (p : Packet)
  /-- R299 -/
  | valveExcl (p : Packet)
  /-- R338 -/
  | swConfig (p : Packet)
  /-- R338 -/
  | swRead (p : Packet)
  /-- R338 -/
  | anConfig (p : Packet)
  /-- R338 -/
  | anRead (p : Packet)
  /-- R338 -/
  | cyclicConfig (p : Packet)
  /-- R332 -/
  | fqSet (p : Packet)
  /-- R338 -/
  | fieldConfig (p : Packet)
  /-- R338 -/
  | fieldRead (p : Packet)
  /-- R356 -/
  | reflexWrite (p : Packet)
  /-- R356 -/
  | reflexEnable (p : Packet)
  /-- R355 -/
  | reflexRead (p : Packet)
  /-- R391 -/
  | portConfig (p : Packet)
  /-- R389 -/
  | vlanWrite (p : Packet)
  /-- R378 -/
  | linSchedule (p : Packet)
  /-- R380 -/
  | filterWrite (p : Packet)
  /-- R384 -/
  | authChannel (p : Packet)
  /-- R382 -/
  | frameSend (p : Packet)
  /-- R382 -/
  | frameSendTimeout (channel : Fin 6)
  /-- R390 -/
  | timeRead (p : Packet)
  /-- R368 -/
  | timeConfig (p : Packet)
  /-- R372 -/
  | timeSet (p : Packet)
  /-- R373 -/
  | wallSet (p : Packet)
  /-- R416 -/
  | dormConfig (p : Packet)
  /-- R398 -/
  | dormNeed (p : Packet)
  /-- R416 -/
  | dormKeep (p : Packet)
  /-- R416 -/
  | dormWuf (p : Packet)
  /-- R429 -/
  | challenge (p : Packet)
  /-- R437 -/
  | tpChallenge (p : Packet)
  /-- R443 -/
  | accessConfig (p : Packet)
  /-- R435 -/
  | tokenEnrol (p : Packet)
  /-- R435 -/
  | tokenLoad (p : Packet)
  /-- R436 -/
  | tokenRemove (p : Packet)
  /-- R436 -/
  | tokenRevoke (p : Packet)
  /-- R439 -/
  | proxVerdict (p : Packet)
  /-- R425 -/
  | accessPoll (p : Packet)
  /-- R452 -/
  | rootstockEstablish (p : Packet)
  /-- R453 -/
  | rootstockInvalidate (p : Packet)
  /-- R458 -/
  | keyLoad (p : Packet)
  /-- R460 -/
  | keyClear (p : Packet)
  /-- R470 -/
  | keyAttest (p : Packet)
  /-- R502 -/
  | almanacWindow (p : Packet)
  /-- R506 -/
  | almanacFlush (p : Packet)
  /-- R506 -/
  | almanacConfig (p : Packet)
  /-- R506 -/
  | almanacRate (p : Packet)
  /-- R495 -/
  | watchConfig (p : Packet)
  /-- R493 -/
  | vaultClear (p : Packet)
  /-- R520 -/
  | faultInject (p : Packet)
  /-- R522 -/
  | faultClear (p : Packet)
  /-- R546 -/
  | trellisConfig (p : Packet)
  /-- R122 -/
  | planWrite (p : Packet)
  /-- R123 -/
  | planCommit (p : Packet)
  /-- R119 -/
  | mirrorRestore (p : Packet)
  /-- R50 -/
  | spiTransaction (port : Fin 2) (bytes : List Byte)
  /-- R58 -/
  | ethCommandFrame (port : Fin 2) (mac : BitVec 48) (vlan : BitVec 12) (pcp : BitVec 3) (bytes : List Byte)
  /-- R66 -/
  | packetAuthCheck
  /-- R74 -/
  | chainNextAdmit (host : Fin 14)
  /-- R74 -/
  | chainTimeout (host : Fin 14)
  /-- R70 -/
  | queuedPacketExecute (unit : UnitRef)
  /-- R75 -/
  | scheduledStaging
  /-- R75 -/
  | scheduledEffect
  /-- R47 -/
  | replyCmacBuild
  /-- R59 -/
  | ethOutgoingFrame (host : Fin 14)
  /-- R96 -/
  | eventPacketBuild (host : Fin 10)
  /-- R63 -/
  | hostLapse (host : Fin 14)
  /-- R88 -/
  | hostSilenceExpiry (host : Fin 14)
  /-- R85 -/
  | restartBegin
  /-- R98 -/
  | powerOn (vs6MV : Nat)
  /-- R98 -/
  | vs6Undervoltage (vs6MV : Nat)
  /-- R155 -/
  | lpBrownOut
  /-- R99 -/
  | resetNAssert
  /-- R98 -/
  | resetNRelease
  /-- R101 -/
  | alwaysOnStart
  /-- R102 -/
  | pllLock (straps : BitVec 2)
  /-- R102 -/
  | pllLockTimeout
  /-- R113 -/
  | nvCheck (started : Bool)
  /-- R102 -/
  | selfTest (pass : Bool)
  /-- R114 -/
  | planPhase
  /-- R115 -/
  | planPacket
  /-- R101 -/
  | bringupReady
  /-- R107 -/
  | warmRestart (pass : Bool)
  /-- R110 -/
  | warmReady
  /-- R129 -/
  | domainTransitionDone (dom : Fin 16)
  /-- R142 -/
  | internalWakeReturn (dom : Fin 16)
  /-- R133 -/
  | protectionWake (unit : UnitRef) (trip : WatchTrip)
  /-- R144 -/
  | wakeLandEdge (land : Fin 2) (level : Bool) (heldNS : Nat)
  /-- R147 -/
  | timerWakeExpiry
  /-- R152 -/
  | schedulerTimerFire
  /-- R141 -/
  | endpointFrameWake (port : Fin 2) (mac : BitVec 48) (vlan : BitVec 12) (pcp : BitVec 3) (bytes : List Byte)
  /-- R153 -/
  | lpHandover (loadUA : Nat) (caseDeciC : Int)
  /-- R153 -/
  | lpRelease (loadUA : Nat)
  /-- R151 -/
  | rootRestartDone
  /-- R238 -/
  | tokenGrant (region : Fin 7)
  /-- R238 -/
  | tokenAged (region : Fin 7)
  /-- R166 -/
  | cellRiseDone (cell : Fin 96)
  /-- R166 -/
  | cellFallDone (cell : Fin 96)
  /-- R166 -/
  | cellDemagEntry (cell : Fin 96) (voutMV : Int)
  /-- R166 -/
  | cellDemagEnd (cell : Fin 96) (voutMV : Int)
  /-- R177 -/
  | pwmPeriodStart (cell : Fin 96)
  /-- R177 -/
  | pwmOnPhaseEnd (cell : Fin 96)
  /-- R182 -/
  | pwmTokenRequest (cell : Fin 96)
  /-- R187 -/
  | adcSlot (block : Fin 25) (slot : AdcSlot)
  /-- R193 -/
  | mirrorWrite (unit : UnitRef)
  /-- R199 -/
  | overCurrentTrip (cell : Fin 96) (currentMA : Nat)
  /-- R205 -/
  | envelopeTrip (cell : Fin 96) (currentMA : Nat)
  /-- R202 -/
  | shortCircuitLimit (cell : Fin 96) (currentMA : Nat)
  /-- R215 -/
  | thermalTrip (cell : Fin 96) (tjC : Int)
  /-- R213 -/
  | wireModelStep (cell : Fin 96) (watchHigh : Bool)
  /-- R205 -/
  | envelopeEnd (cell : Fin 96)
  /-- R209 -/
  | learnSpanEnd (cell : Fin 96) (peaksMA : List Nat)
  /-- R216 -/
  | protectionRelease (unit : UnitRef)
  /-- R217 -/
  | cleanPeriodReload (unit : UnitRef)
  /-- R243 -/
  | supplyLevelSet (region : Fin 7) (level : Fin 3) (vs : HeldSupply)
  /-- R243 -/
  | supplyLevelClear (region : Fin 7) (level : Fin 3) (vs : HeldSupply)
  /-- R245 -/
  | undervoltageOff (region : Fin 7) (vsMV : Nat)
  /-- R245 -/
  | undervoltageRestore (region : Fin 7) (vs : HeldSupply)
  /-- R247 -/
  | thermalRound (region : Fin 7) (deciC : List Int)
  /-- R249 -/
  | thermalLevelClear (region : Fin 7) (level : Fin 3)
  /-- R251 -/
  | dissipationEstimate (region : Fin 7)
  /-- R252 -/
  | budgetStep (region : Fin 7)
  /-- R253 -/
  | moduleBudgetStep (ownMW : Nat)
  /-- R255 -/
  | restoreRelease (region : Fin 7)
  /-- R270 -/
  | legTrip (leg : Fin 16) (kind : TripKind) (currentMA : Nat) (tjC : Int) (shortLimit : Bool)
  /-- R271 -/
  | ripplePulse (bridge : Fin 8)
  /-- R266 -/
  | bridgeStartEnd (bridge : Fin 8)
  /-- R266 -/
  | motorStill (bridge : Fin 8)
  /-- R266 -/
  | brakeLimit (bridge : Fin 8)
  /-- R273 -/
  | bridgeStall (bridge : Fin 8)
  /-- R273 -/
  | runLimit (bridge : Fin 8)
  /-- R275 -/
  | antiPinchCheck (bridge : Fin 8) (filteredMA : Nat)
  /-- R276 -/
  | reversalDriveStart (bridge : Fin 8)
  /-- R266 -/
  | bridgeClearRelease (bridge : Fin 8)
  /-- R293 -/
  | headerRiseDone (group : Fin 4)
  /-- R293 -/
  | clampEnd (valve : Fin 16) (drainMV headerMV : Int)
  /-- R296 -/
  | closureSample (valve : Fin 16) (drainMV : Int)
  /-- R296 -/
  | closureWindowEnd (valve : Fin 16)
  /-- R302 -/
  | valveThermalTrip (valve : Fin 16) (tjC : Int)
  /-- R301 -/
  | headerTrip (group : Fin 4) (kind : TripKind) (currentMA : Nat) (tjC : Int) (shortLimit : Bool)
  /-- R294 -/
  | valveTokenReturn (valve : Fin 16)
  /-- R293 -/
  | valveClearRelease (valve : Fin 16) (tjC : Int)
  /-- R319 -/
  | rakeSample (mv : List Nat)
  /-- R320 -/
  | cyclicPulse (mv : List Nat)
  /-- R321 -/
  | cyclicConfirm (mv : List Nat)
  /-- R323 -/
  | analogConversion (input : Fin 12) (code : BitVec 12)
  /-- R326 -/
  | fieldSupplyChange (mv : Nat)
  /-- R328 -/
  | fieldRedriveStart
  /-- R328 -/
  | fieldRedriveStep
  /-- R330 -/
  | fieldInputSample (mv : List Nat)
  /-- R333 -/
  | fieldOutputShutdown (output : Fin 16) (tjC : Int)
  /-- R333 -/
  | fieldOutputRestart (output : Fin 16) (tjC : Int)
  /-- R334 -/
  | fieldCurrentLimit (output : Fin 16) (limiting : Bool)
  /-- R334 -/
  | faultStretchEnd (output : Fin 16)
  /-- R346 -/
  | reflexEvaluate
  /-- R345 -/
  | reflexTimerExpiry (entry : Fin 128)
  /-- R351 -/
  | proxWaitExpiry (entry : Fin 128)
  /-- R360 -/
  | linkChange (port : Fin 2) (link : BitVec 2)
  /-- R360 -/
  | linkQualityUpdate (port : Fin 2) (quality : BitVec 3)
  /-- R362 -/
  | switchFrame (port : Fin 3) (frame : EthFrame) (len : Nat) (fcsOk : Bool) (full : BitVec 3)
  /-- R362 -/
  | macEntryAge (mac : BitVec 48) (vlan : BitVec 12)
  /-- R367 -/
  | pdelayRequest (port : Fin 2) (answered : Bool) (delayNS : Nat)
  /-- R369 -/
  | syncReceived (port : Fin 2) (originNS : Nat) (correctionNS : Int) (oneStep : Bool)
  /-- R368 -/
  | syncSend (port : Fin 2)
  /-- R370 -/
  | syncTimeout
  /-- R379 -/
  | canFrameReceived (channel : Fin 6) (frame : CanFrame)
  /-- R382 -/
  | canFrameSent (channel : Fin 6)
  /-- R376 -/
  | canBusOff (channel : Fin 6)
  /-- R376 -/
  | busOffRecovery (channel : Fin 6)
  /-- R378 -/
  | linSlotStart (channel : Fin 8)
  /-- R378 -/
  | linFrameReceived (channel : Fin 8) (data : List Byte) (framingOk checksumOk : Bool)
  /-- R381 -/
  | forwardPacketBuild (host : Fin 10)
  /-- R399 -/
  | keepAliveSend (net : Fin 16)
  /-- R400 -/
  | idleTimeout (net : Fin 16)
  /-- R401 -/
  | holdEnd (net : Fin 16)
  /-- R400 -/
  | prepareEnd (net : Fin 16)
  /-- R400 -/
  | sleepTransitionEnd (net : Fin 16)
  /-- R409 -/
  | netWakeDetect (net : Fin 16) (selective : Bool)
  /-- R405 -/
  | tc10SleepAccept (port : Fin 2)
  /-- R405 -/
  | tc10SleepTimeout (port : Fin 2)
  /-- R405 -/
  | tc10SleepRequest (port : Fin 2)
  /-- R407 -/
  | linWakeWaitEnd (channel : Fin 8)
  /-- R416 -/
  | needLeaseExpiry (host : Fin 14)
  /-- R424 -/
  | approachPoll
  /-- R424 -/
  | beaconReceived (drivers : BitVec 6)
  /-- R425 -/
  | pollDayLimit
  /-- R428 -/
  | tokenResponse (slot : Fin 8) (bytes : List Byte)
  /-- R432 -/
  | responseWindowEnd
  /-- R430 -/
  | confirmationSent
  /-- R421 -/
  | lfAntennaFault (driver : Fin 6) (short : Bool) (peakMA : Nat)
  /-- R438 -/
  | tpVerdict (answer : Option (List Byte))
  /-- R465 -/
  | keyStoreCommit (ok : Bool)
  /-- R461 -/
  | slotReloadDone
  /-- R68 -/
  | replayStateWrite (slot : Fin 64)
  /-- R387 -/
  | channelCounterWrite (channel : Fin 32)
  /-- R483 -/
  | rateRefill (code : Half)
  /-- R485 -/
  | flushTimer
  /-- R485 -/
  | flushStart
  /-- R486 -/
  | flushEnd
  /-- R488 -/
  | powerFailWarning (vs6MV : Nat)
  /-- R516 -/
  | fatalFault (checker : BitVec 6)
  /-- R513 -/
  | eccError (place : EccPlace) (double : Bool)
  /-- R513 -/
  | supplyCrosscheckFault (region : Fin 7) (diffMV : Nat)
  /-- R514 -/
  | supplyCrosscheckRecover (region : Fin 7)
  /-- R513 -/
  | entropyHealthFail
  /-- R521 -/
  | injectionArm
  /-- R520 -/
  | injectionDurationEnd
  /-- R529 -/
  | trellisFrameReceived (side : Fin 2) (bytes : List Byte)
  /-- R529 -/
  | trellisResend (side : Fin 2)
  /-- R530 -/
  | trellisHeartbeat (side : Fin 2)
  /-- R530 -/
  | trellisSideDown (side : Fin 2)
  /-- R535 -/
  | memberTimerExpiry (member : Fin 4) (tag : Half)
  /-- R535 -/
  | extendFrameSend
  /-- R539 -/
  | timeFrameSend
  /-- R539 -/
  | timeFrameTimeout
  /-- R541 -/
  | memberWakeTimeout (member : Fin 4)
  /-- R215 -/
  | junctionCooled (cell : Fin 96) (tjC : Int)
  /-- R291 -/
  | headerOff (group : Fin 4)
  /-- R541 -/
  | trellisWake (side : Fin 2)
  /-- R376 -/
  | canBusError (channel : Fin 6) (tec rec_ : Nat)
  /-- R377 -/
  | linResponseTimeout (channel : Fin 8)
  /-- R28 -/
  | aoClockTrim (trim : Int) (atLimit : Bool)
  /-- R334 -/
  | fieldOutputFed (output : Fin 16) (mv : Nat)
  /-- R488 -/
  | powerFailRecovery (vs6MV : Nat)
  /-- R504 -/
  | nvWriteDone
  /-- R560 -/
  | transceiverSupplyChange (vs5MV : Nat)
  deriving DecidableEq, Repr

end Sys2Proof
end

