-- ==== Sys2Proof/Config.lean ====
section
/-! DEFINITION. What one part fixes, and the free values. An `opaque` constant has no body: it stands for a value
the spec leaves open, and nothing in Lean can evaluate it. -/

namespace Sys2Proof.Config

/-- Random values (R425, R437, R470, R494, R555): the n-th draw of the generator. Log entry 3. -/
opaque random : Nat → BitVec 128
/-- Readings and residues whose value the spec leaves open: the n-th free value. Log entry 3. -/
opaque freeWord : Nat → BitVec 64
/-- The device root key ROOT (R448). Log entry 4. -/
opaque rootKey : BitVec 128
/-- SERIAL of IDENTIFY (Table 2-9). Log entry 4. -/
opaque serial : BitVec 64
/-- The bits of ENDPOINT_MAC (Table 2-9), its group bit apart. Log entry 4. -/
opaque endpointMacBits : BitVec 48
/-- The MAC address of the internal endpoint: an individual address, its group bit 0 (IEEE 802; PRESUMED, log entry 4). -/
def endpointMac : BitVec 48 := endpointMacBits &&& 0xFEFFFFFFFFFF
/-- ROM_VERSION of IDENTIFY (Table 2-9). Log entry 4. -/
opaque romVersion : Byte

/-- The share of a header's current (mA) that one of several valves carries: header current is only the sum (R304); what
a part makes of it for R251 is not stated. Log entry 3. -/
opaque valveShare : Nat → Nat → Nat

/-- KP and KI of the zone-time servo (R369), in rate units of 2^-32 ns per us tick and ns of offset. Log entry 3. -/
opaque servoKP : Int
opaque servoKI : Int

/-- READY of another member as the lead knows it at an instant (Table 18-3): how it learns it is not stated. Log entry 3. -/
opaque memberReady : Nat → Nat → Bool

/-- PART_CODE (Table 2-9). -/
def partCode : Half := 0x0140
/-- STEPPING (Table 2-9, R592). -/
def stepping : Byte := 0x01

/-- One microsecond and one millisecond in ns. -/
def us : Nat := 1000
def ms : Nat := 1000000
def sec : Nat := 1000000000

/-- tSQL: the scheduler's queue lead (R75). -/
def tSQL : Nat := 50 * us
/-- tEBW: the event collection window (R96). -/
def tEBW : Nat := 20 * us
/-- tRPK: the longest wait for packing (R59). -/
def tRPK : Nat := 10 * us
/-- The chain timeout (R74). -/
def tChain : Nat := 10 * ms
/-- The delay of a restart and of reply-path turn-downs after the reply has left (R85, R137, R521). -/
def tAfterReply : Nat := 100 * us
/-- The time after which a restart no longer waits for an SPI host (R85). -/
def tReplyLimit : Nat := 100 * ms
/-- The lapse time of an unbound registration (R63). -/
def tLapse : Nat := 60 * sec
/-- tIWH: idle time before an internally woken domain returns (R142). -/
def tIWH : Nat := 10 * ms
/-- tRSW: the shortest acted-on low pulse of RESET_N (R99). -/
def tRSW : Nat := 10 * us
/-- tPLL: the bound on PLL lock (Table 3-2). -/
def tPLL : Nat := 3200 * us
/-- tMCO: coalescing of mirror entries (R193). -/
def tMCO : Nat := 10 * ms
/-- Scheduler capacity (R75), queue capacity (R70), outgoing buffer (R97), event entries of a packet (R96). -/
def schedCap : Nat := 1024
def queueCap : Nat := 32
def outCap : Nat := 64
def entriesPerPacket : Nat := 85
/-- Chain length (R74). -/
def chainCap : Nat := 16

end Sys2Proof.Config
end

