-- ==== Sys2Proof/Machine/Bits.lean ====
section
/-! DEFINITION. Bytes and fields: most significant byte first (R6), bit ranges (R7), and the two check codes
(R44, R45). -/

namespace Sys2Proof.Machine

/-- `n` bytes of `v`, most significant first (R6). -/
def be (n v : Nat) : List Byte :=
  match n with
  | 0 => []
  | k + 1 => BitVec.ofNat 8 (v / 256 ^ k) :: be k v

/-- The number that bytes spell, most significant first (R6). -/
def ofBe (bs : List Byte) : Nat := bs.foldl (fun a b => a * 256 + b.toNat) 0

/-- `n` bytes from offset `i`; a byte past the end reads 00h. -/
def slice (bs : List Byte) (i n : Nat) : List Byte := (bs.drop i).take n

def byteAt (bs : List Byte) (i : Nat) : Byte := bs.getD i 0
def numAt (bs : List Byte) (i n : Nat) : Nat := ofBe (slice bs i n)
def halfAt (bs : List Byte) (i : Nat) : Half := BitVec.ofNat 16 (numAt bs i 2)
def wordAt (bs : List Byte) (i : Nat) : Word := BitVec.ofNat 32 (numAt bs i 4)

/-- Bits [lo + n - 1 : lo] of a word as a number (R7). -/
def fld (w : Word) (lo n : Nat) : Nat := (w.toNat / 2 ^ lo) % 2 ^ n

/-- A field placed at `lo` (R7). -/
def at_ (lo n : Nat) (v : Nat) : Word := BitVec.ofNat 32 ((v % 2 ^ n) * 2 ^ lo)

def bit (b : Bool) (lo : Nat) : Word := if b then BitVec.ofNat 32 (2 ^ lo) else 0

/-- Replace field [lo + n - 1 : lo] of a word. -/
def setFld (w : Word) (lo n v : Nat) : Word :=
  let m : Word := BitVec.ofNat 32 ((2 ^ n - 1) * 2 ^ lo)
  (w &&& ~~~m) ||| at_ lo n v

/-- The bits of `w` under mask `m` taken from `v`. -/
def merge (w v m : Word) : Word := (w &&& ~~~m) ||| (v &&& m)

def allZero (bs : List Byte) : Bool := bs.all (· == 0)

/-- Signed reading of an n-bit field. -/
def signed (n v : Nat) : Int := if v < 2 ^ (n - 1) then (v : Int) else (v : Int) - 2 ^ n

/-- Two's complement of an integer in n bits. -/
def twos (n : Nat) (v : Int) : Nat := (v % (2 ^ n : Int)).toNat

/-- Number clamped to the range of n bits. -/
def sat (n v : Nat) : Nat := min v (2 ^ n - 1)

/-- One bit step of CRC-16/CCITT-FALSE (R44). -/
def crc16Bit (c : BitVec 16) : BitVec 16 := if c.msb then (c <<< 1) ^^^ 0x1021#16 else c <<< 1

/-- One byte of CRC-16/CCITT-FALSE (R44). -/
def crc16Byte (c : BitVec 16) (b : Byte) : BitVec 16 :=
  let c := c ^^^ (b.setWidth 16 <<< 8)
  crc16Bit (crc16Bit (crc16Bit (crc16Bit (crc16Bit (crc16Bit (crc16Bit (crc16Bit c)))))))

/-- HDR_CRC (R44). -/
def crc16 (bs : List Byte) : BitVec 16 := bs.foldl crc16Byte 0xFFFF

/-- One bit step of the reflected CRC-32 (R45). -/
def crc32Bit (c : BitVec 32) : BitVec 32 := if c.getLsbD 0 then (c >>> 1) ^^^ 0xEDB88320#32 else c >>> 1

def crc32Byte (c : BitVec 32) (b : Byte) : BitVec 32 :=
  let c := c ^^^ b.setWidth 32
  crc32Bit (crc32Bit (crc32Bit (crc32Bit (crc32Bit (crc32Bit (crc32Bit (crc32Bit c)))))))

/-- The CRC-32 of SPI trailers, plan images and domain images (R45). -/
def crc32 (bs : List Byte) : BitVec 32 := ~~~ (bs.foldl crc32Byte 0xFFFFFFFF)

end Sys2Proof.Machine
end

