-- ==== Sys2Proof/Machine/Crypto.lean ====
section
/-! DEFINITION. The cryptographic functions the spec names: AES-128, AES-CMAC (NIST SP 800-38B, R43) and the
AES key wrap (NIST SP 800-38F, chapter 15). PRESUMED from those standards, which the spec names and does not
print. Blocks and keys are lists of 16 bytes. -/

namespace Sys2Proof.Machine.Crypto

/-- The AES substitution box, entry i at bits [8i+7:8i], and its inverse. -/
def sboxTable : Nat := 0x16bb54b00f2d99416842e6bf0d89a18cdf2855cee9871e9b948ed9691198f8e19e1dc186b95735610ef6034866b53e708a8bbd4b1f74dde8c6b4a61c2e2578ba08ae7a65eaf4566ca94ed58d6d37c8e779e4959162acd3c25c2406490a3a32e0db0b5ede14b8ee4688902a22dc4f816073195d643d7ea7c41744975fec130ccdd2f3ff1021dab6bcf5389d928f40a351a89f3c507f02f94585334d43fbaaefd0cf584c4a39becb6a5bb1fc20ed00d153842fe329b3d63b52a05a6e1b1a2c830975b227ebe28012079a059618c323c7041531d871f1e5a534ccf73f362693fdb7c072a49cafa2d4adf04759fa7dc982ca76abd7fe2b670130c56f6bf27b777c63
def invSboxTable : Nat := 0x7d0c2155631469e126d677ba7e042b17619953833cbbebc8b0f52aae4d3be0a0ef9cc9939f7ae52d0d4ab519a97f51605fec8027591012b131c7078833a8dd1ff45acd78fec0db9a2079d2c64b3e56fc1bbe18aa0e62b76f89c5291d711af1476edf751ce837f9e28535ade72274ac9673e6b4f0cecff297eadc674f4111913a6b8a130103bdafc1020f3fca8f1e2cd00645b3b80558e4f70ad3bc8c00abd890849d8da75746155edab9edfd5048706c92b6655dcc5ca4d41698688664f6f87225d18b6d49a25b76b224d92866a12e084ec3fa420b954cee3d23c2a632947b54cbe9dec444438e3487ff2f9b8239e37cfbd7f3819ea340bf38a53630d56a0952

def sub (b : Byte) : Byte := BitVec.ofNat 8 (sboxTable >>> (8 * b.toNat))
def invSub (b : Byte) : Byte := BitVec.ofNat 8 (invSboxTable >>> (8 * b.toNat))

/-- Multiplication by 2 in the field of AES. -/
def xtime (b : Byte) : Byte := if b.msb then (b <<< 1) ^^^ 0x1B#8 else b <<< 1

def xorBytes (a b : List Byte) : List Byte := List.zipWith (· ^^^ ·) a b

/-- The rows rotate left by their number; the block is stored by columns. -/
def shiftRows (s : List Byte) : List Byte :=
  [0, 5, 10, 15, 4, 9, 14, 3, 8, 13, 2, 7, 12, 1, 6, 11].map (s.getD · 0)
def invShiftRows (s : List Byte) : List Byte :=
  [0, 13, 10, 7, 4, 1, 14, 11, 8, 5, 2, 15, 12, 9, 6, 3].map (s.getD · 0)

def mixColumn (a b c d : Byte) : List Byte :=
  let t := a ^^^ b ^^^ c ^^^ d
  [a ^^^ t ^^^ xtime (a ^^^ b), b ^^^ t ^^^ xtime (b ^^^ c), c ^^^ t ^^^ xtime (c ^^^ d), d ^^^ t ^^^ xtime (d ^^^ a)]

def invMixColumn (a b c d : Byte) : List Byte :=
  let u := xtime (xtime (a ^^^ c))
  let v := xtime (xtime (b ^^^ d))
  mixColumn (a ^^^ u) (b ^^^ v) (c ^^^ u) (d ^^^ v)

def mapColumns (f : Byte → Byte → Byte → Byte → List Byte) : List Byte → List Byte
  | a :: b :: c :: d :: r => f a b c d ++ mapColumns f r
  | _ => []

/-- The next round key from the last one and the round constant. -/
def nextKey (k : List Byte) (rcon : Byte) : List Byte :=
  let t := [sub (k.getD 13 0) ^^^ rcon, sub (k.getD 14 0), sub (k.getD 15 0), sub (k.getD 12 0)]
  let w0 := xorBytes (k.take 4) t
  let w1 := xorBytes ((k.drop 4).take 4) w0
  let w2 := xorBytes ((k.drop 8).take 4) w1
  let w3 := xorBytes (k.drop 12) w2
  w0 ++ w1 ++ w2 ++ w3

/-- The eleven round keys. -/
def roundKeys (k : List Byte) : List (List Byte) :=
  ([0x01, 0x02, 0x04, 0x08, 0x10, 0x20, 0x40, 0x80, 0x1B, 0x36] : List Byte).foldl
    (fun ks r => ks ++ [nextKey (ks.getLastD []) r]) [k]

/-- AES-128 encryption of one block. -/
def aes (k m : List Byte) : List Byte :=
  let ks := roundKeys k
  let s0 := xorBytes m k
  let s9 := ((ks.drop 1).take 9).foldl
    (fun s rk => xorBytes (mapColumns mixColumn (shiftRows (s.map sub))) rk) s0
  xorBytes (shiftRows (s9.map sub)) (ks.getLastD [])

/-- AES-128 decryption of one block. -/
def aesInv (k m : List Byte) : List Byte :=
  let ks := (roundKeys k).reverse
  let s0 := (invShiftRows (xorBytes m (ks.headD []))).map invSub
  let s9 := ((ks.drop 1).take 9).foldl
    (fun s rk => (invShiftRows (mapColumns invMixColumn (xorBytes s rk))).map invSub) s0
  xorBytes s9 k

/-- Doubling in the field of CMAC, on a 16-byte block. -/
def dbl (b : List Byte) : List Byte :=
  let n := ofBe b
  let d := (n * 2) % 2 ^ 128
  be 16 (if n ≥ 2 ^ 127 then d ^^^ 0x87 else d)

/-- The blocks of a message after the first `fuel` ones. -/
def cbc (k : List Byte) (last : List Byte → List Byte) : Nat → List Byte → List Byte → List Byte
  | 0, acc, _ => acc
  | fuel + 1, acc, m =>
    if m.length ≤ 16 then aes k (xorBytes acc (last m))
    else cbc k last fuel (aes k (xorBytes acc (m.take 16))) (m.drop 16)

/-- AES-CMAC (R43): 16 bytes. -/
def cmac (k m : List Byte) : List Byte :=
  let k1 := dbl (aes k (be 16 0))
  let k2 := dbl k1
  let last (b : List Byte) : List Byte :=
    if b.length = 16 then xorBytes b k1
    else xorBytes (b ++ [0x80#8] ++ List.replicate (15 - b.length) 0) k2
  cbc k last (m.length / 16 + 1) (be 16 0) m

/-- The most significant 8 bytes of the CMAC, as packets carry it (R43). -/
def cmac8 (k m : List Byte) : List Byte := (cmac k m).take 8

/-- One step of the key wrap: block register A, semiblock i, counter t. -/
def wrapStep (k : List Byte) (a r : List Byte) (t : Nat) : List Byte × List Byte :=
  let b := aes k (a ++ r)
  (xorBytes (b.take 8) (be 8 t), b.drop 8)

def unwrapStep (k : List Byte) (a r : List Byte) (t : Nat) : List Byte × List Byte :=
  let b := aesInv k (xorBytes a (be 8 t) ++ r)
  (b.take 8, b.drop 8)

/-- One pass of the wrap over the semiblocks, first to last. -/
def wrapPass (k : List Byte) : List Byte → List (List Byte) → Nat → List Byte × List (List Byte)
  | a, [], _ => (a, [])
  | a, r :: rs, t =>
    let (a, r) := wrapStep k a r t
    let (a, rs) := wrapPass k a rs (t + 1)
    (a, r :: rs)

/-- One pass of the unwrap over the reversed semiblocks, last to first. -/
def unwrapPass (k : List Byte) : List Byte → List (List Byte) → Nat → List Byte × List (List Byte)
  | a, [], _ => (a, [])
  | a, r :: rs, t =>
    let (a, r) := unwrapStep k a r t
    let (a, rs) := unwrapPass k a rs (t - 1)
    (a, r :: rs)

def semiblocks : Nat → List Byte → List (List Byte)
  | 0, _ => []
  | n + 1, m => m.take 8 :: semiblocks n (m.drop 8)

/-- AES key wrap of a plaintext of whole semiblocks. -/
def keyWrap (k m : List Byte) : List Byte :=
  let n := m.length / 8
  let (a, rs) := (List.range 6).foldl (fun (p : List Byte × List (List Byte)) j => wrapPass k p.1 p.2 (n * j + 1))
    (List.replicate 8 0xA6#8, semiblocks n m)
  a ++ rs.flatten

/-- AES key unwrap: none when the check fails. -/
def keyUnwrap (k c : List Byte) : Option (List Byte) :=
  let n := c.length / 8 - 1
  let (a, rs) := (List.range 6).foldl
    (fun (p : List Byte × List (List Byte)) j => unwrapPass k p.1 p.2 (n * (6 - j)))
    (c.take 8, (semiblocks n (c.drop 8)).reverse)
  if a = List.replicate 8 0xA6#8 then some rs.reverse.flatten else none

end Sys2Proof.Machine.Crypto
end

