-- ==== Sys2Proof/Machine/StateCore.lean ====
section
/-! DEFINITION. The state of the command engine, the events, the power domains, the bring-up and the almanac
(chapters 01 to 04, 11, 16 and 17), as plain data. Instants are ns of the model's own timebase `now` unless a
field says zone time. -/

namespace Sys2Proof.Machine

/-! ### Time and counters -/

/-- The model's timebase, the counted clocks and the counters of the always-on section (R27, R28, R31, R150, R373). -/
structure Clk where
  /-- ns since the model's start: the timebase every instant of the state is given in -/
  now      : Nat
  /-- ns counted while D00 is on: entry timers and verdict waits (R354) -/
  d00Clock : Nat
  /-- ns counted while D00 is on and no warm restart runs: lapse and silence timers (R63, R88) -/
  cmdClock : Nat
  /-- how many free values have been taken: the model's own field -/
  free     : Nat
  /-- life counter, 4 us units (R150) -/
  life     : BitVec 48
  /-- 1/64 ns into the present life tick -/
  lifeFrac : Nat
  /-- AO clock time (R28): ns that its cycles have counted, and 1/64 ns into the present one -/
  ao       : Nat
  aoFrac   : Nat
  /-- AO clock trim (R28) -/
  aoTrim   : Int
  /-- wall seconds, 0 while unset (R373), and the ns into the present second -/
  wall     : Word
  wallFrac : Nat
  deriving DecidableEq, Repr

/-! ### Events (R86, R91 to R97, R596) -/

/-- Routing of one event (Table 2-11): IRQ_EN, IRQ_SEL, EVT_PCP, HOSTS. -/
structure EvRoute where
  irqEn  : Bool
  irqSel : BitVec 2
  pcp    : BitVec 2
  hosts  : BitVec 10
  deriving DecidableEq, Repr

/-- One entry being collected for a host (Table 2-19). -/
structure EvEntry where
  event  : Nat
  member : BitVec 4
  rep    : Nat
  zone   : Nat
  deriving DecidableEq, Repr

/-- What an occurrence of the reflex engine is (Table 11-2). -/
inductive OccKind where
  | swEdge (input : Nat) (closed : Bool)
  | fiChange (input : Nat) (on : Bool)
  | token (serial : BitVec 20) (drivers : BitVec 6)
  | timer (entry : Nat)
  | frame (port : Nat) (auth ext : Bool) (id : Nat) (first : Option Byte)
  | event (e : Nat)
  deriving DecidableEq, Repr

/-- A buffered occurrence: its kind, the zone time and the instant it arose (R346, R352). -/
structure Occ where
  kind : OccKind
  zone : Nat
  at_  : Nat
  deriving DecidableEq, Repr

structure EvSt where
  mask    : BitVec 256
  route   : Vector EvRoute 256
  pending : BitVec 256
  /-- held occurrences: event number and zone time of the first, ascending (R596) -/
  held    : List (Nat × Nat)
  /-- entries being collected per host 0 to 9 (R96) -/
  entries : Vector (List EvEntry) 10
  /-- start of the running collection window per host (R96) -/
  ebw     : Vector (Option Nat) 10
  deriving DecidableEq, Repr

/-! ### Hosts, chains, queues and the scheduler (R60 to R81) -/

/-- A registration (R61, R87). -/
structure Reg where
  mac   : BitVec 48
  vlan  : BitVec 12
  port  : Fin 2
  bound : Bool
  deriving DecidableEq, Repr

/-- What the leaving of a reply starts (R85, R137, R521). -/
inductive ReplyMark where
  | none
  | restart
  | domainSet
  | inject
  deriving DecidableEq, Repr

/-- A packet in an outgoing buffer: rank 0 reply, 1 forwarded frames, 2 events (R97). -/
structure OutPkt where
  rank    : Fin 3
  bytes   : List Byte
  pcp     : BitVec 3
  builtAt : Nat
  mark    : ReplyMark
  deriving DecidableEq, Repr

/-- Outcome of one unit of a packet: status code, detail, the two-bit or four-bit outcome its opcode defines. -/
structure UnitRes where
  unit    : UnitRef
  code    : Half
  detail  : Half
  outcome : Nat
  deriving DecidableEq, Repr

/-- The unit refused the packet: it did not act on it. Outcomes below 10h are acceptances, 2xh those of LATCH_CLEAR. -/
def UnitRes.refused (r : UnitRes) : Bool := r.code != 0 || 0x10 ≤ r.outcome && r.outcome / 16 != 2

/-- Where a command frame came from (R57, R62). -/
structure EthSrc where
  port : Fin 2
  mac  : BitVec 48
  vlan : BitVec 12
  pcp  : BitVec 3
  deriving DecidableEq, Repr

/-- A packet in the queues, in the scheduler or waiting for authentication (R66, R70, R75). -/
structure QPkt where
  pkt     : Packet
  /-- arrival number (R69) -/
  seq     : Nat
  /-- the queues it stands in and has not left (R71) -/
  todo    : List UnitRef
  /-- every unit it addresses -/
  units   : List UnitRef
  results : List UnitRes
  /-- placed at the heads by staging or by a chain (R74, R75) -/
  staged  : Bool
  /-- execution time of a staged packet, zone time -/
  effect  : Option Nat
  /-- it completes with LATE (R77, R79) -/
  late    : Bool
  /-- its authentication passed (R47) -/
  authOk  : Bool
  /-- it ran at once under R77 with T in the past: its acceptance reply carries the status -/
  ranLate : Bool
  /-- it is executing and its completion comes with another row -/
  busy    : Bool
  /-- its execution has begun and waits for a domain that its work needs (R132) -/
  begun   : Bool
  /-- the chain it belongs to (R74) -/
  chain   : Option Nat
  /-- PCP of the request frame (R59) -/
  pcp     : BitVec 3
  /-- the source of the request frame, which takes the reply when it holds no host ID any more (R48, R62) -/
  src     : Option EthSrc
  deriving DecidableEq, Repr

/-- The chain a host is sending (R74): `count` packets of chain `id` have arrived, the last at `lastAt`; after a break
every packet belongs to it until one with CHAIN clear. -/
structure ChainSt where
  open_   : Bool
  broken  : Bool
  count   : Nat
  id      : Nat
  member  : BitVec 4
  lastAt  : Nat
  deriving DecidableEq, Repr

/-- A chain with packets that have not completed (R74): the status of the last completed one while no packet of it is
admitted, and the packets that wait. -/
structure ChainRun where
  id      : Nat
  host    : Fin 16
  /-- its first packet was SCHEDULED: the waiting ones take scheduler places -/
  sched   : Bool
  prev    : Option Half
  waiting : List QPkt
  deriving DecidableEq, Repr

/-- One host ID (Table 2-16, R63, R88, R97). -/
structure HostSt where
  reg        : Option Reg
  lapsed     : Bool
  silent     : Bool
  /-- cmdClock instant at which an unbound registration lapses -/
  lapseAt    : Nat
  /-- TIMEOUT of HOST_SILENCE in 10 ms, 0 off, and the cmdClock instant of its expiry -/
  silence    : Nat
  silenceAt  : Option Nat
  out        : List OutPkt
  chain      : ChainSt
  deriving DecidableEq, Repr

/-- A reply waiting for its CMAC (R47). -/
structure ReplyWait where
  host : Fin 16
  pkt  : Packet
  slot : Fin 64
  pcp  : BitVec 3
  src  : Option EthSrc
  mark : ReplyMark
  deriving DecidableEq, Repr

/-- An accepted RESTART that has not begun (R85). -/
structure RestartReq where
  cold    : Bool
  /-- its reply has not left -/
  waiting : Bool
  /-- instant the restart begins, or gives up waiting for an SPI host -/
  at_     : Option Nat
  deriving DecidableEq, Repr

structure CmdSt where
  authPolicy : Word
  /-- sticky bits [11:0] of word 0000h (Table 2-15) -/
  sticky     : BitVec 12
  ready      : Bool
  /-- next arrival number -/
  arrivals   : Nat
  /-- packets in the unit queues -/
  waiting    : List QPkt
  /-- packets in the scheduler (R75) -/
  sched      : List QPkt
  highWater  : Nat
  /-- packets waiting at step 7 (R66) -/
  authWait   : List QPkt
  /-- chains with packets that have not completed, and the next chain number -/
  chains     : List ChainRun
  chainNext  : Nat
  replyWait  : List ReplyWait
  restart    : Option RestartReq
  /-- the bytes shifted out or sent by the last transaction or frame row: what the outside saw -/
  lastOut    : List Byte
  deriving DecidableEq, Repr

/-! ### Bring-up and plan (chapter 03) -/

structure BootSt where
  /-- 1 to 7 of Table 3-2; 0 while no supply -/
  phase     : Nat
  /-- CONDITION of Table 3-4: 0 none, 1 cold bring-up, 2 warm restart, 3 fatal hold -/
  condition : Nat
  cause     : Nat
  lastCause : Nat
  selfFails : Nat
  startAt   : Nat
  /-- scheduled packets discarded by the RESTART of the restart in progress (Table 3-10) -/
  discarded : Nat
  /-- RESET_N low since -/
  resetLow  : Option Nat
  /-- member number read from the straps in phase 3 (R526) -/
  member    : BitVec 2
  deriving DecidableEq, Repr

structure PlanSt where
  noPlan   : Bool
  copyB    : Bool
  /-- COPY_A_STATE, COPY_B_STATE (Table 3-9) -/
  stateA   : BitVec 2
  stateB   : BitVec 2
  targetB  : Bool
  /-- sticky [7:4]: FALLBACK, MIRROR_SKIP, PACKET_FAIL, COMMIT_FAIL -/
  sticky   : BitVec 4
  passedA  : Bool
  passedB  : Bool
  version  : Word
  /-- phase 6 has checked and chosen (R114) -/
  picked   : Bool
  /-- offset of the next plan packet in the body and its index; none when no plan runs -/
  next     : Option (Nat × Nat)
  deriving DecidableEq, Repr

/-! ### Power domains and wake (chapter 04) -/

/-- The states of Table 4-1 and the transitions of Table 4-2. -/
inductive DomState where
  | off
  | ret
  | on
  | toRet
  | toOff
  | retToOn
  | offToOn
  deriving DecidableEq, Repr

structure DomOne where
  st          : DomState
  woa         : Bool
  /-- a turn-up waits for the end of the turn-off (R138) -/
  upAfter     : Bool
  /-- state to return to after an internal wake (R142) -/
  returnTo    : Option DomState
  idleSince   : Nat
  intHeld     : Bool
  lastRefusal : BitVec 4
  /-- sticky [5:0] of word 0100h -/
  sticky      : BitVec 6
  /-- the image saved at turn-off fails its CRC-32 (R130) -/
  imageBad    : Bool
  startedAt   : Nat
  /-- when the domain reached retention: what stops there goes on from here (R219) -/
  retAt       : Nat
  deriving DecidableEq, Repr

/-- One wake detector entry (R143, R146). -/
structure WakeCfg where
  enable : Bool
  set    : BitVec 16
  deriving DecidableEq, Repr

/-- The last-wake record (Table 4-10) and the AO cycle it was made in. -/
structure LastWake where
  source     : Byte
  index      : Byte
  count      : Half
  life       : BitVec 48
  domains    : Half
  duringDown : Bool
  concurrent : Byte
  cycle      : Nat
  /-- the detectors that fired in that cycle, each with its index -/
  fired      : List (Nat × Nat)
  deriving DecidableEq, Repr

/-- A DOMAIN_SET in progress (R135 to R137). -/
structure DSet where
  q        : QPkt
  target   : Word
  force    : Bool
  /-- domains whose turn has not come, in order -/
  turns    : List (Fin 16)
  /-- OUTCOME and REASON per domain (Table 4-5) -/
  outcome  : Vector (BitVec 2) 16
  reason   : Vector (BitVec 4) 16
  /-- domains whose started transition counts for the reply -/
  started  : BitVec 16
  lastTurn : Option Nat
  /-- the checks of the reply-path domains are made and the records of the request written (R137, Table 4-6) -/
  recorded : Bool
  deriving DecidableEq, Repr

/-- A reply-path turn-down (R137): its domain, the transition, whether FORCE overrode a reason, the host of the request,
and once the reply has left the instant it starts. -/
structure PathDown where
  dom    : Fin 16
  toRet  : Bool
  forced : Bool
  host   : Fin 16
  at_    : Option Nat
  deriving DecidableEq, Repr

/-- A command frame buffered at a port while D00 is down (R141). -/
structure CmdFrame where
  port    : Fin 2
  mac     : BitVec 48
  vlan    : BitVec 12
  pcp     : BitVec 3
  payload : List Byte
  deriving DecidableEq, Repr

structure DomSt where
  dom        : Vector DomOne 16
  dset       : Option DSet
  /-- reply-path turn-downs whose reply has not left, or that wait for 100 us -/
  replyPath  : List PathDown
  /-- detectors 01h to 09h in the order of Table 4-9, each with its indices -/
  wake       : Vector WakeCfg 96
  /-- AO clock time at which the wake timer expires (R147) -/
  timerAt    : Option Nat
  lastWake   : LastWake
  /-- the level of each wake land after its last edge (R144) -/
  wakeLevel  : Vector Bool 2
  /-- MAIN_REG_ON, ROOT_RUNNING, LP_FORCED, LP_LOAD of word 0101h -/
  mainReg    : Bool
  root       : Bool
  lpForced   : Bool
  lpLoad     : Nat
  lpLowSince : Option Nat
  rootAt     : Option Nat
  /-- sticky [3:0] of word 0101h -/
  sticky     : BitVec 4
  /-- AO clock time at which the scheduler timer fires (R152) -/
  schedTimer : Option Nat
  frames     : List CmdFrame
  deriving DecidableEq, Repr

/-! ### The reflex table (chapter 11) -/

structure RfxEntry where
  /-- the 64 bytes of Table 11-1 -/
  image     : List Byte
  /-- d00Clock instant at which the entry's timer expires -/
  timerAt   : Option Nat
  /-- d00Clock instant at which the hold-off ends -/
  holdUntil : Nat
  /-- proximity wait: its occurrence, its start, and its end, in d00Clock -/
  waiting   : Option (Occ × Nat × Nat)
  lastStatus : Half
  sticky    : BitVec 4
  deriving DecidableEq, Repr

structure RfxSt where
  entries   : Vector RfxEntry 128
  occs      : List Occ
  overflow  : Bool
  discarded : Nat
  /-- entries that fire in this core cycle, in order, as they stood, with their occurrences -/
  fired     : List (Fin 128 × List Byte × Occ)
  deriving DecidableEq, Repr

/-! ### The almanac (chapter 16) -/

/-- A record (Table 16-3) before or after it has its SEQ. -/
structure Rec where
  seq    : Word
  life   : BitVec 48
  wall   : Word
  code   : Half
  member : BitVec 2
  cls    : BitVec 6
  idx    : Byte
  sev    : BitVec 2
  fc     : BitVec 2
  flags  : BitVec 4
  supp   : Byte
  p1     : Word
  p2     : Word
  p3     : Word
  deriving DecidableEq, Repr

/-- A snapshot captured for a watch point: which, WORD_UNAVAILABLE, the 56 words (R497). -/
structure Snap where
  watch   : Fin 16
  at_     : Nat
  unavail : Bool
  words   : List Word
  deriving DecidableEq, Repr

/-- A record with the snapshots captured in its core cycle (R481, R496). -/
structure RecCap where
  rec_  : Rec
  snaps : List Snap
  deriving DecidableEq, Repr

/-- One staged item: a record (one entry) or a snapshot (eight entries). -/
inductive Staged where
  | record (r : Rec)
  | snapshot (w : Fin 16) (header : Rec) (words : List Word)
  deriving DecidableEq, Repr

/-- The rate limit of one code (R483). -/
structure Rate where
  code    : Half
  burst   : Nat
  refill  : Nat
  tokens  : Nat
  pending : Nat
  lastAt  : Nat
  deriving DecidableEq, Repr

/-- A watch point (R495 to R498). -/
structure Watch where
  enable   : Bool
  stopFull : Bool
  minSev   : BitVec 2
  code     : Half
  codeMask : Half
  src      : Half
  srcMask  : Half
  holdoff  : Nat
  list     : List (Half × Half)
  lastAt   : Option Nat
  taken    : Nat
  over_     : Nat
  sticky   : BitVec 3
  deriving DecidableEq, Repr

/-- What one ring keeps beside its records (R490, Table 16-10). -/
structure Ring where
  over_    : Nat
  refused : Bool
  deriving DecidableEq, Repr

/-- A flush intent (R486). -/
structure Intent where
  done    : Bool
  targets : List Nat
  lastSeq : Word
  deriving DecidableEq, Repr

/-- The checkpoint (R486). -/
structure Checkpoint where
  lastSeq : Word
  life    : BitVec 48
  fill    : Nat
  epoch   : Word
  deriving DecidableEq, Repr

/-- What waits for the end of a flush (R107, R485, R493, Table 4-6). -/
structure Flush where
  powerFail : Bool
  /-- entries staged at its start -/
  count     : Nat
  startAt   : Nat
  /-- ALMANAC_FLUSH and VAULT_CLEAR packets that this flush completes -/
  waits     : List QPkt
  deriving DecidableEq, Repr

/-- A non-volatile write of a lower arbiter class in progress (R504). -/
structure NvWrite where
  cls   : Nat
  addr  : Nat
  data  : List Byte
  /-- bytes erased from `addr` on before the data is written -/
  erase : Nat
  /-- the packet this write completes -/
  q     : Option QPkt
  deriving DecidableEq, Repr

structure AlmSt where
  seq        : Word
  batch      : List Rec
  intake     : List RecCap
  lost       : Nat
  staging    : List Staged
  rates      : List Rate
  dropInfo   : Nat
  dropWarn   : Nat
  dropErr    : Nat
  flush      : Option Flush
  again      : Bool
  flushWait  : List QPkt
  lastEnd    : Nat
  intents    : Vector Intent 2
  lastIntent : Fin 2
  check      : Checkpoint
  fill       : Nat
  epoch      : Word
  fullDone   : Bool
  vnonce     : Word
  /-- VNONCE waits for the first random value after a failed health test (R555) -/
  vnonceDue  : Bool
  watches    : Vector Watch 16
  rings      : Vector Ring 160
  /-- sticky [7:0] of word 0F00h -/
  sticky     : BitVec 8
  cleared    : Bool
  /-- VAULT_MIN_SEV and VAULT_EN of word 0F05h -/
  cfg        : Word
  writes     : List NvWrite
  /-- running from VHOLD after a power-fail warning (R488) -/
  onHold     : Bool
  /-- VS6 at a brown-out that takes effect when the power-fail flush has ended, mV -/
  brown      : Option Nat
  deriving DecidableEq, Repr

/-! ### Faults (chapter 17) -/

structure BlkSt where
  firstClass   : BitVec 2
  firstChecker : BitVec 6
  /-- the core cycle of the block's first fault since the fields were last cleared (R515) -/
  firstAt      : Option Nat
  /-- checkers whose contained fault is in force -/
  degraded     : List (BitVec 6)
  corrected    : Byte
  sticky       : BitVec 4
  /-- a self-check slot has failed and its class is not decided (R513) -/
  selfFail     : Bool
  /-- that slot was made to fail by an injection (R521) -/
  selfInj      : Bool
  deriving DecidableEq, Repr

structure Inject where
  checker : BitVec 6
  block   : Fin 25
  cont    : Bool
  target  : Nat
  endAt   : Nat
  /-- a fatal-class injection arms 100 us after its reply has left (R521): the reply has not left, or the instant -/
  armWait : Bool
  armAt   : Option Nat
  fired   : Nat
  deriving DecidableEq, Repr

structure FltSt where
  blocks     : Vector BlkSt 25
  /-- life ticks of the fatal faults of the last 10 s -/
  fatals     : List (BitVec 48)
  fatalCount : Nat
  lastFatal  : BitVec 6
  lastBlock  : Byte
  sticky     : BitVec 2
  inject     : Option Inject
  injSticky  : BitVec 2
  /-- FAULT_CLEAR in progress: packet, block, slots left (R522) -/
  clear      : List (QPkt × Fin 25 × Nat)
  entropyBad : Bool
  deriving DecidableEq, Repr

end Sys2Proof.Machine
end

