-- ==== Sys2Proof/Machine/StateAccess.lean ====
section
/-! DEFINITION. The state of vehicle access (chapter 14) and of the trellis (chapter 18), as plain data. -/

namespace Sys2Proof.Machine

/-! ### Vehicle access -/

/-- An LF driver (Table 14-9). -/
structure LfDrv where
  peak    : Nat
  sticky  : BitVec 4
  /-- word 0D01h -/
  cfg     : Word
  /-- the frame in progress has been stopped (R421) -/
  stopped : Bool
  deriving DecidableEq, Repr

/-- A release (R429): serial, slot, session key, random numbers. -/
structure Release where
  serial : BitVec 20
  slot   : Nat
  ks     : List Byte
  rt     : List Byte
  deriving DecidableEq, Repr

/-- The exchange in progress (R426 to R433). -/
structure Exch where
  q          : QPkt
  drivers    : BitVec 6
  serial     : BitVec 20
  mask       : BitVec 20
  /-- EXCH of word 0D02h: 1 challenge frame, 2 window, 3 confirmation -/
  phase      : BitVec 2
  attempt    : Nat
  rd         : List Byte
  seed       : Nat
  seeds      : List Nat
  /-- start of the first and of the present challenge frame; the latter in zone time too -/
  firstAt    : Nat
  frameAt    : Nat
  frameZone  : Nat
  garbled    : BitVec 8
  garbledAll : BitVec 8
  responses  : Nat
  released   : Option Release
  /-- start of the confirmation frame -/
  confAt     : Nat
  /-- responses that wait for D14 or D15: slot of arrival and bytes -/
  held       : List (Nat × List Byte)
  /-- a fatal fault has come: the exchange ends after the frame in progress (R554) -/
  dead       : Bool
  deriving DecidableEq, Repr

/-- The transponder exchange (R437). -/
structure TpEx where
  q       : QPkt
  rd      : List Byte
  startAt : Nat
  /-- the uplink, once the window has closed: none inside when none arrived -/
  answer  : Option (Option (List Byte))
  /-- a fatal fault has come (R554) -/
  dead    : Bool
  deriving DecidableEq, Repr

/-- A held verdict (R439, R440). -/
structure Verdict where
  serial   : BitVec 20
  near     : Bool
  measured : Nat
  deriving DecidableEq, Repr

/-- A cached token key (R434): serial, key, number of the last use. -/
structure CacheKey where
  serial : BitVec 20
  key    : List Byte
  used   : Nat
  deriving DecidableEq, Repr

structure AccSt where
  lf        : Vector LfDrv 6
  exch      : Option Exch
  tp        : Option TpEx
  cache     : List CacheKey
  uses      : Nat
  /-- oldest first -/
  verdicts  : List Verdict
  /-- the release of each serial that a verdict must postdate: serial, zone time of its challenge frame (R440) -/
  released  : List (BitVec 20 × Nat)
  /-- word 0D03h -/
  cfg       : Word
  /-- sticky [7:0] of word 0D02h, sticky [2:0] of word 0D04h -/
  sticky    : BitVec 8
  stickyTp  : BitVec 3
  verdict   : BitVec 2
  tpSerial  : BitVec 20
  /-- PARK_TIME in ns of the AO clock -/
  park      : Nat
  stopped   : Bool
  polls     : Nat
  /-- the poll in progress or the last one began at; a poll waits for D13 -/
  pollAt    : Option Nat
  pollDue   : Bool
  lastPoll  : Option Nat
  /-- CHALLENGE and TP_CHALLENGE packets waiting for their drivers, oldest first (R443) -/
  waits     : List QPkt
  deriving DecidableEq, Repr

/-! ### The trellis -/

/-- A frame sent on a side and not acknowledged: LSEQ, bytes, sent at, resends (R529). -/
structure TrlTx where
  seq     : Byte
  bytes   : List Byte
  at_     : Nat
  resends : Nat
  deriving DecidableEq, Repr

structure TrlSide where
  /-- 0 down, 1 training, 2 up -/
  st     : BitVec 2
  lastAt : Nat
  sentAt : Nat
  /-- valid frames since the side went down -/
  good   : Nat
  /-- next LSEQ, LSEQ of the last frame received in order, whether one was received -/
  txSeq  : Byte
  rxSeq  : Byte
  unack  : List TrlTx
  /-- members reachable through this side, as the neighbour reports them -/
  reach  : BitVec 4
  /-- the member at the other end of the link, once heard -/
  peer   : Option (Fin 4)
  /-- link round trip in ns -/
  rtt    : Nat
  deriving DecidableEq, Repr

/-- A request the lead has forwarded (R535, R536). -/
structure TrlReq where
  member : Fin 4
  host   : Fin 16
  pkt    : Packet
  pcp    : BitVec 3
  /-- expiry of the member timer; none while the member is being woken -/
  due    : Option Nat
  /-- the member is being woken since -/
  wakeAt : Option Nat
  bcast  : Bool
  /-- a scheduled packet has had its acceptance reply -/
  acked  : Bool
  /-- frame bytes held while the member wakes -/
  held   : List Byte
  deriving DecidableEq, Repr

/-- A broadcast with REPLY_WANTED (R537): members of EXPECT to be answered, failures, failures without own reply. -/
structure TrlBcast where
  host   : Fin 16
  pkt    : Packet
  pcp    : BitVec 3
  open_  : BitVec 4
  failed : BitVec 4
  mute   : BitVec 4
  deriving DecidableEq, Repr

/-- A packet in execution that came over the trellis with REPLY_WANTED (R533, R535): how its reply is recognised, the host
at the lead, whether it is scheduled, whether its acceptance reply has gone, and the instant of the last extend frame. -/
structure TrlWork where
  tag    : Half
  opcode : Half
  seq    : Word
  orig   : Fin 16
  sched  : Bool
  acked  : Bool
  extAt  : Nat
  deriving DecidableEq, Repr

structure TrlSt where
  sides    : Vector TrlSide 2
  dup      : Bool
  hold     : Bool
  /-- FATAL seen in the lead's frames -/
  fatal    : Bool
  /-- sticky [8:0] of word 1100h -/
  sticky   : BitVec 9
  /-- word 1101h -/
  cfg      : Word
  present  : BitVec 4
  /-- LOST_SEEN, HOPS and VIA_B of word 1102h per member -/
  lost     : BitVec 4
  hops     : Vector Nat 4
  viaB     : BitVec 4
  reqs     : List TrlReq
  bcasts   : List TrlBcast
  /-- packets in execution that came over the trellis -/
  working  : List TrlWork
  /-- members 1 to 3: last time frame, agreements in a row -/
  timeAt   : Option Nat
  agree    : Nat
  timeSent : Nat
  /-- frames the last row put on the sides -/
  out      : List (Fin 2 × List Byte)
  deriving DecidableEq, Repr

end Sys2Proof.Machine
end

