-- ==== Sys2Proof/Machine/StateOut.lean ====
section
/-! DEFINITION. The state of the high-side cells, their protection and the regions (chapters 05 to 07), as plain
data. Instants are `now` unless a field says zone time. -/

namespace Sys2Proof.Machine

/-- Cell states of Table 5-2. -/
inductive CellState where
  | off
  | waitToken
  | rising
  | on
  | falling
  | demag
  deriving DecidableEq, Repr

/-- The gate is on (Table 5-2). -/
def CellState.gate : CellState → Bool
  | .rising | .on => true
  | _ => false

/-- An inrush token of a governed unit (R237 to R239): waiting since, aged, or held with its units. -/
inductive Tok where
  | none
  | waiting (since : Nat) (aged : Bool)
  | held (units : Nat)
  deriving DecidableEq, Repr

/-- PERIOD, ON and PHASE of a cell (Table 5-6). -/
structure PwmVals where
  period : Nat
  on_    : Nat
  phase  : Nat
  deriving DecidableEq, Repr

/-- The PWM generator (R177 to R183). Instants are zone time. -/
structure Pwm where
  /-- the values in force; the commanded ones differ from them while a change waits (R180) -/
  act      : PwmVals
  onPhase  : Bool
  /-- end of the on-phase in progress -/
  onEnd    : Nat
  /-- end of the period in progress -/
  perEnd   : Nat
  /-- no demand before the first period start at or after this instant -/
  waitFrom : Option Nat
  deriving DecidableEq, Repr

/-- Protection states of R216; `clear` is the grant. -/
inductive Prot where
  | none
  | offPending
  | latched
  deriving DecidableEq, Repr

/-- The envelope values a turn-on started with (R204 to R210). -/
structure Env where
  mode  : BitVec 2
  peak  : Nat
  hold  : Nat
  half  : Nat
  codes : List Nat
  deriving DecidableEq, Repr

/-- Readback of a cell (Table 5-9): current in uA, voltage in mV, conversion instants. -/
structure Readback where
  current : Int
  vout    : Int
  /-- the range of `current`, and that of the next conversion under RANGE automatic (R188) -/
  range   : Nat
  next    : Nat
  /-- a current and a voltage have been converted since the region domain last came on -/
  gotI    : Bool
  gotV    : Bool
  onPhase : Bool
  over_    : Bool
  timeI   : Nat
  timeV   : Nat
  /-- consecutive readings below 80 % of the lower range (R188) -/
  below   : Nat
  deriving DecidableEq, Repr

/-- At least one conversion since the region domain last came on (Table 5-9). -/
def Readback.valid (r : Readback) : Bool := r.gotI || r.gotV

/-- The sequencer of a block's ADC (R187, R304): the place in its cycle, cells that have tripped or latched since their last
current conversion, and cells whose conversion waits for an on-phase until an instant. -/
structure AdcSeq where
  pos     : Nat
  tripped : List Nat
  waits   : List (Nat × Nat)
  deriving DecidableEq, Repr

/-- One OUT cell (Tables 5-11, 5-12, 6-16 to 6-19). -/
structure OutSt where
  st        : CellState
  mode      : BitVec 2
  start     : Bool
  vals      : PwmVals
  pwm       : Pwm
  uvOff     : Bool
  lastHost  : Fin 16
  /-- sticky [6:0] of word 0200h -/
  sticky2   : BitVec 7
  /-- word 0201h: SLEW, EDGE_REF, STAGGER, RANGE -/
  cfg       : Word
  /-- SLEW in force for the present edge (R170) -/
  slewAct   : BitVec 2
  partner   : Option (Fin 96)
  stateAt   : Nat
  riseAt    : Nat
  /-- OFF, not DEMAG, since (R208) -/
  offSince  : Nat
  tok       : Tok
  /-- instant a timed edge is due (R182, R184), zone time -/
  tokDue    : Option Nat
  /-- the first edge of fast PWM has had its token (R182) -/
  fastTok   : Bool
  /-- a staged packet holds a token request for an edge at T (R184) -/
  staged    : Bool
  /-- the gate command of a scheduled packet that an edge reference has started before its instant (R170) -/
  early     : Option Bool
  mirPend   : Bool
  mirAt     : Option Nat
  mirLife   : BitVec 48
  rb        : Readback
  prot      : Prot
  clear     : Bool
  clearFor  : Fin 16
  retry     : Nat
  tripAt    : Nat
  tripKind  : Nat
  /-- trips of the core cycle `tripAt`: over-current, envelope, thermal, wire; the state and the envelope they met (R200) -/
  trips     : BitVec 4
  tripFrom  : CellState
  tripEnv   : Option Env
  /-- tRTY runs from here: the trip, moved on by the time spent in retention (R216, R219) -/
  coolFrom  : Nat
  /-- clean time gathered and the instant it was gathered to (R217) -/
  cleanNs   : Nat
  cleanAt   : Nat
  openOn    : Bool
  openOff   : Bool
  shortSup  : Bool
  leakSup   : Bool
  /-- since when every reading lies in / outside the band: open-on, open-off, short, leak (R225, R226) -/
  diagIn    : Vector (Option Nat) 4
  diagOut   : Vector (Option Nat) 4
  /-- the last current reading evaluated for OPEN_ON (R225) -/
  diagAt    : Nat
  theta     : Nat
  env       : Option Env
  /-- the short-circuit limit holds the current (R202) -/
  limiting  : Bool
  tj        : Int
  /-- the junction has reached 175 degC and has not been below 150 degC since (R215) -/
  hotHold   : Bool
  /-- sticky [15:0] of word 0300h -/
  sticky3   : BitVec 16
  cfg1      : Word
  cfg2      : Word
  learn     : Nat
  learnRun  : Bool
  peaks     : List Nat
  envBefore : BitVec 2
  learned   : Option (List Nat)
  deriving DecidableEq, Repr

/-- A region (Tables 7-7 to 7-10, R243 to R257). -/
structure RegSt where
  /-- region supply, mV -/
  vs        : Nat
  /-- supply levels 1 to 3 set -/
  level     : BitVec 3
  /-- since when the supply has lain below 4.0 V (record 0403h) -/
  lowAt     : Option Nat
  uv        : Bool
  uvAt      : Nat
  uvLow     : Nat
  therm     : BitVec 3
  coolAt    : Vector (Option Nat) 3
  /-- H in 1/240 degC and the index of the hottest sensor -/
  hot       : Int
  hotIdx    : Nat
  hotValid  : Bool
  temps     : List Int
  invalid   : List Nat
  deviant   : List (Nat × Nat)
  /-- the samples of the last second, run-length: count, power in uW, current in mA (R251) -/
  samples   : List (Nat × Nat × Nat)
  budget    : Nat
  budgetAt  : Option Nat
  budgetLow : Option Nat
  /-- restore list: indices of word 0404h (R255) -/
  restore   : List (Fin 120)
  releaseAt : Option Nat
  /-- sticky [7:0] of word 0400h -/
  sticky    : BitVec 8
  cfg1      : Word
  cfg2      : Word
  /-- the two supply channels differ: the region uses the lower one (R513) -/
  crossBad  : Bool
  crossAt   : Option Nat
  deriving DecidableEq, Repr

/-- Unit pruning (Table 7-11). -/
structure PruneSt where
  cls    : BitVec 2
  pruned : Bool
  cause  : BitVec 2
  seen   : Bool
  deriving DecidableEq, Repr

/-- Module budget (Table 7-12). -/
structure ModSt where
  pmax   : Nat
  /-- own consumption at VS5 and VS6, mW, and MODULE_P_AVG of the last step -/
  own    : Nat
  pavg   : Nat
  stage  : Nat
  at_    : Option Nat
  lowAt  : Option Nat
  deriving DecidableEq, Repr

end Sys2Proof.Machine
end

