-- ==== Sys2Proof/Machine/StateIO.lean ====
section
/-! DEFINITION. The state of switch inputs, analog inputs and field I/O (chapter 10), as plain data. -/

namespace Sys2Proof.Machine

/-- A switch input (words 0700h, 0701h; R319 to R322). Zone times are ns. -/
structure SwSt where
  cfg     : Word
  raw     : Bool
  closed  : Bool
  valid   : Bool
  /-- SOURCE: 0 full rate, 1 cyclic, 2 held, 3 none -/
  source  : BitVec 2
  hold    : Bool
  /-- sticky [3:0] of word 0700h -/
  sticky  : BitVec 4
  /-- the debounce run: its value, its count, the zone time of its first sample -/
  runVal  : Bool
  run     : Nat
  runZone : Nat
  /-- held value of an armed input and a candidate change with its instant and zone time, in the always-on section (R320) -/
  held    : Option Bool
  cand    : Option (Bool × Nat × Nat)
  /-- parked changes: value, zone time, whether it fired a wake (R321) -/
  parked  : List (Bool × Nat × Bool)
  deriving DecidableEq, Repr

/-- An analog input (words 0702h to 0704h). -/
structure AnSt where
  cfg2   : Word
  cfg3   : Word
  /-- the last 16 conversions, newest first -/
  convs  : List Nat
  code   : Nat
  valid  : Bool
  below  : Bool
  above  : Bool
  sticky : BitVec 2
  /-- the newest conversion in CODE -/
  convAt : Option Nat
  deriving DecidableEq, Repr

/-- A field input (word 0801h). -/
structure FiSt where
  cfg      : Word
  value    : Bool
  /-- a value has qualified since D12 was last off, and since it last came on (VALID) -/
  known    : Bool
  valid    : Bool
  raw      : Bool
  /-- start of the run of samples that differ from the value, or of equal samples before one is valid -/
  runAt    : Option Nat
  sticky   : BitVec 2
  /-- instant, value and sticky bits before the last change (R326) -/
  changeAt : Nat
  before   : Bool
  stickyBefore : BitVec 2
  deriving DecidableEq, Repr

/-- A field output (word 0802h, R332 to R334). -/
structure FqSt where
  mode     : Bool
  wait     : Bool
  /-- FAULT_MODE and FAULT_EN of word 0802h -/
  cfg      : Word
  lastHost : Fin 16
  shut     : Bool
  latched  : Bool
  limiting : Bool
  fed      : Bool
  stretch  : Option Nat
  mirPend  : Bool
  mirAt    : Option Nat
  mirLife  : BitVec 48
  deriving DecidableEq, Repr

/-- The field block (word 0800h, R325 to R328). -/
structure FieldSt where
  supply    : FieldSupply
  mv        : Nat
  /-- sticky [3:0] of word 0800h -/
  sticky    : BitVec 4
  missingAt : Nat
  /-- how long the last stay in MISSING took, ns (record 0804h) -/
  missNs    : Nat
  /-- re-drive is due tFRD after this instant -/
  okAt      : Option Nat
  /-- a stay in MISSING has not been followed by a re-drive -/
  owed      : Bool
  /-- re-drive in progress: next index, instant of the last step, outputs re-driven -/
  redrive   : Option (Nat × Nat × Nat)
  faultAt   : Option Nat
  deriving DecidableEq, Repr

structure IoSt where
  sw  : Vector SwSt 64
  an  : Vector AnSt 12
  /-- word 0705h -/
  cyc : Word
  fi  : Vector FiSt 16
  fq  : Vector FqSt 16
  fld : FieldSt
  deriving DecidableEq, Repr

end Sys2Proof.Machine
end

