-- ==== Sys2Proof/Machine/StateKeys.lean ====
section
/-! DEFINITION. The state of the key store and crypto engine (chapter 15), as plain data. -/

namespace Sys2Proof.Machine

/-- Slot states of R455. -/
inductive SlotState where
  | empty
  | loaded
  | orphaned
  deriving DecidableEq, Repr

structure KeySlot where
  st         : SlotState
  parent     : Nat
  attr       : Half
  version    : Word
  parentGen  : Word
  /-- the scion while it is held in D14; empty when it is not (R461) -/
  key        : List Byte
  /-- the blob kept in the store when PERSIST is 1 (Table 15-7) -/
  blob       : List Byte
  /-- S and the record of accepted values: bit i is S - i (R67) -/
  seqS       : Word
  accepted   : BitVec 64
  dirty      : Bool
  wroteAt    : Option Nat
  /-- sticky [7:0] of word 0E00h -/
  sticky     : BitVec 8
  deriving DecidableEq, Repr

/-- Rootstock states of R451. -/
inductive RootState where
  | unset
  | established
  | retired
  deriving DecidableEq, Repr

structure Rootstock where
  st     : RootState
  role   : BitVec 2
  gen    : Word
  div    : BitVec 64
  sticky : BitVec 3
  deriving DecidableEq, Repr

/-- The kinds of update that a KEY_STORE_COMMIT brings into force (R465). -/
inductive KeyChange where
  | load (slot : Fin 64) (parent : Nat) (attr : Half) (version gen : Word) (key blob : List Byte)
  | clear (slot : Fin 64)
  | establish (i : Fin 32) (role : BitVec 2) (gen : Word) (div : BitVec 64)
  | invalidate (i : Fin 32) (proofKey : Nat)
  | revoke (serial : BitVec 20)
  deriving DecidableEq, Repr

structure KeySt where
  roots    : Vector Rootstock 32
  slots    : Vector KeySlot 64
  copyB    : Bool
  genA     : Word
  genB     : Word
  lost     : Bool
  sticky   : BitVec 4
  nonce    : Word
  /-- NONCE waits for the first random value after a failed health test (R555) -/
  nonceDue : Bool
  /-- revoked serials, ascending (R464) -/
  revoked  : List Nat
  /-- updates in the order their opcodes executed; the first is in progress (R465) -/
  updates  : List (KeyChange × QPkt)
  /-- the writes of steps 1 to 3 of that update stand with the arbiter; and they are done -/
  writing  : Bool
  written  : Bool
  /-- persistent slots are being reloaded after D14 came on from off (R461) -/
  reload   : Bool
  deriving DecidableEq, Repr

end Sys2Proof.Machine
end

