-- ==== Sys2Proof/Machine/StateMotion.lean ====
section
/-! DEFINITION. The state of the motor bridges and the valve groups (chapters 08 and 09), as plain data. Instants are
`now` unless a field says zone time. -/

namespace Sys2Proof.Machine

/-- Bridge states of Table 8-3. -/
inductive BrState where
  | coast
  | brake
  | waitToken
  | start
  | run
  | stopping
  | reversing
  | tripped
  deriving DecidableEq, Repr

/-- A commanded move (Table 8-9): MODE, DUTY, TARGET, HOME. -/
structure BrCmd where
  mode   : Nat
  duty   : Nat
  target : Int
  home   : Bool
  deriving DecidableEq, Repr

/-- An anti-pinch reversal (R276). -/
structure Reversal where
  detectAt : Nat
  /-- the braking time of step 2, ns -/
  pause    : Nat
  driveAt  : Option Nat
  counted  : Nat
  deriving DecidableEq, Repr

/-- Sums of one bin of a learning run: current in mA, period in us, samples of each (R278). -/
structure LearnBin where
  curSum : Nat
  curN   : Nat
  perSum : Nat
  perN   : Nat
  deriving DecidableEq, Repr

/-- A bridge (Tables 8-3, 8-11 to 8-13). -/
structure BrSt where
  st        : BrState
  cmd       : BrCmd
  /-- a command received in REVERSING, with its host (R267) -/
  deferred  : Option (BrCmd × Fin 16)
  /-- the last driven direction: true FORWARD -/
  fwd       : Bool
  /-- WAIT_TOKEN came from COAST -/
  fromCoast : Bool
  posValid  : Bool
  pos       : Int
  /-- CLOSE_I and CLOSE_T of the profile that matches TRAVEL (R279) -/
  profile   : Option (List Nat × List Nat)
  learning  : Bool
  uvOff     : Bool
  /-- BR_CLEAR has set the clear grant, and its host -/
  clear     : Bool
  clearFor  : Fin 16
  lastHost  : Fin 16
  /-- sticky [12:0] of word 0500h -/
  sticky    : BitVec 13
  cfg1      : Word
  cfg2      : Word
  cfg3      : Word
  /-- words 0501h and 0503h as the last start from rest took them (R286) -/
  act1      : Word
  act3      : Word
  stateAt   : Nat
  /-- the last 8 counted periods in ns, newest first (R271) -/
  periods   : List Nat
  lastPulse : Option Nat
  /-- when the legs last began to drive -/
  driveAt   : Nat
  moveAt    : Nat
  /-- time spent in START and RUN before the present stretch (R273) -/
  ranNs     : Nat
  /-- end code of the stop in progress (record 0502h); 0 none -/
  stopEnd   : Nat
  rev       : Option Reversal
  /-- bins of the closing run in progress, and the means of the counted runs (R278) -/
  learnRun  : Option (List LearnBin)
  learnt    : List (List (Nat × Nat))
  tok       : Tok
  tokDue    : Option Nat
  staged    : Bool
  mirPend   : Bool
  mirAt     : Option Nat
  mirLife   : BitVec 48
  /-- i_f at the last evaluation of R275, mA -/
  filtered  : Nat
  current   : Int
  va        : Int
  vb        : Int
  /-- when CURRENT, VA and VB were converted; none since D10 last came on (Table 8-11) -/
  timeI     : Option Nat
  timeA     : Option Nat
  timeB     : Option Nat
  deriving DecidableEq, Repr

/-- At least one conversion since D10 last came on (Table 8-11). -/
def BrSt.valid (b : BrSt) : Bool := b.timeI.isSome || b.timeA.isSome || b.timeB.isSome

/-- A leg (word 0505h): TJ in degC, sticky [2:0]. -/
structure LegSt where
  tj       : Int
  limiting : Bool
  sticky   : BitVec 3
  deriving DecidableEq, Repr

/-- Valve states of Table 9-2. -/
inductive VlState where
  | off
  | waitToken
  | hdrRise
  | on
  | clamp
  | window
  | tripped
  deriving DecidableEq, Repr

/-- A valve switch (Tables 9-2, 9-8 to 9-10). Voltages in mV. -/
structure VlSt where
  st        : VlState
  mode      : Bool
  uvOff     : Bool
  openCoil  : Bool
  drainHigh : Bool
  /-- since when every reading meets / fails OPEN_COIL and DRAIN_HIGH (R303) -/
  diagIn    : Vector (Option Nat) 2
  diagOut   : Vector (Option Nat) 2
  tj        : Int
  lastHost  : Fin 16
  /-- sticky [9:0] of word 0600h -/
  sticky    : BitVec 10
  /-- marked latched by its own thermal trip (R293) -/
  marked    : Bool
  clear     : Bool
  /-- word 0602h without its live fields, and as the last turn-off took it (R311) -/
  cfg       : Word
  act       : Word
  partner   : Option (Fin 16)
  guard_    : Bool
  result    : BitVec 2
  cause     : BitVec 3
  closeTime : Nat
  clampTime : Nat
  /-- the result of the window of this turn-off has been given (R297) -/
  ended     : Bool
  /-- the turn-off command, the 8-bit samples of vd since (newest first), and k0 (R295, R296) -/
  offAt     : Nat
  samples   : List Nat
  k0        : Nat
  onAt      : Nat
  tok       : Tok
  tokDue    : Option Nat
  staged    : Bool
  mirPend   : Bool
  mirAt     : Option Nat
  mirLife   : BitVec 48
  volt      : Int
  /-- when the drain was converted; none since D10 last came on (Table 9-8) -/
  timeV     : Option Nat
  deriving DecidableEq, Repr

/-- HSTATE of Table 9-10. -/
inductive HdState where
  | off
  | rising
  | on
  | falling
  deriving DecidableEq, Repr

/-- A valve header (words 0601h and 0603h). -/
structure VhSt where
  st       : HdState
  stateAt  : Nat
  prot     : Prot
  clear    : Bool
  retry    : Nat
  tripAt   : Nat
  tripKind : Nat
  /-- tRTY runs from here: the trip, moved on by the time spent in retention (R219, R300) -/
  coolFrom : Nat
  cleanNs  : Nat
  cleanAt  : Nat
  limiting : Bool
  tj       : Int
  /-- sticky [5:0] of word 0601h -/
  sticky   : BitVec 6
  /-- word 0603h, and as the last turn-off or turn-on took its TRIP_MODE, RETRY_SET and RETRY_DELAY (R311) -/
  cfg      : Word
  act      : Word
  current  : Int
  volt     : Int
  /-- when current and output were converted; none since D10 last came on (Table 9-8) -/
  timeI    : Option Nat
  timeV    : Option Nat
  deriving DecidableEq, Repr

end Sys2Proof.Machine
end

