-- ==== Sys2Proof/Machine/StateNet.lean ====
section
/-! DEFINITION. The state of zone time and the networks (chapter 12), as plain data. -/

namespace Sys2Proof.Machine

/-- Sync states of Table 12-1. -/
inductive SyncState where
  | free
  | locking
  | locked
  | holdover
  deriving DecidableEq, Repr

/-- Zone time and its discipline (R366 to R373, Table 12-6). -/
structure ZoneSt where
  /-- zone time in ns and its fraction in 2^-32 ns -/
  time     : Nat
  frac     : Nat
  /-- rate correction in 2^-32 ns per us tick -/
  rate     : Int
  integral : Int
  state    : SyncState
  good     : Nat
  offset   : Int
  lastSync : Option Nat
  /-- word 0B01h -/
  cfg      : Word
  /-- sticky [5:0] of word 0B00h -/
  sticky   : BitVec 6
  deriving DecidableEq, Repr

/-! ### Ethernet ports and the internal switch (R359 to R365, R367, R368) -/

structure EthPort where
  /-- LINK of the PHY: 0 down, 1 training, 2 up -/
  link    : BitVec 2
  quality : BitVec 3
  /-- sticky [7:0] of word 0A00h -/
  sticky  : BitVec 8
  /-- word 0A01h -/
  cfg     : Word
  /-- the last three delay requests, newest first: answered -/
  answers : List Bool
  delay   : Nat
  asCap   : Bool
  /-- sticky [3:0] of word 0B02h -/
  stickyT : BitVec 4
  /-- zone time of the last Sync sent from this port -/
  syncAt  : Option Nat
  deriving DecidableEq, Repr

/-- A learned address (R362). -/
structure FdbEntry where
  mac  : BitVec 48
  vlan : BitVec 12
  port : Fin 3
  at_  : Nat
  deriving DecidableEq, Repr

/-- A VLAN table entry (R389): bit 0 ETH0, bit 1 ETH1, bit 2 endpoint. -/
structure VlanEntry where
  valid   : Bool
  members : BitVec 3
  untag   : BitVec 3
  vid     : BitVec 12
  deriving DecidableEq, Repr

/-! ### CAN, LIN, filters and authentication channels (R374 to R387) -/

structure CanPort where
  tec    : Nat
  rec_   : Nat
  busOff : Bool
  /-- sticky [7:0] of word 0A02h -/
  sticky : BitVec 8
  /-- word 0A03h -/
  cfg    : Word
  /-- transmit buffers in order of placement -/
  bufs   : List CanFrame
  deriving DecidableEq, Repr

structure LinSlot where
  id      : BitVec 6
  publish : Bool
  classic : Bool
  len     : Nat
  delay   : Nat
  data    : List Byte
  deriving DecidableEq, Repr

structure LinPort where
  /-- sticky [4:0] of word 0A04h -/
  sticky   : BitVec 5
  /-- word 0A05h -/
  cfg      : Word
  table    : List LinSlot
  /-- a table that takes effect when the slot in progress ends (R378) -/
  next     : Option (List LinSlot)
  slot     : Nat
  /-- a slot is in progress, since -/
  slotAt   : Option Nat
  /-- a response is awaited -/
  awaiting : Bool
  /-- identifiers stored by FRAME_SEND while asleep and not sent yet (R413) -/
  txNeed   : List (BitVec 6)
  deriving DecidableEq, Repr

structure Filter where
  valid   : Bool
  ext     : Bool
  drop    : Bool
  port    : Nat
  prio    : BitVec 2
  id      : Nat
  mask    : Nat
  hosts   : BitVec 10
  deriving DecidableEq, Repr

/-- An authentication channel (R384); its counter lies beside it and in the key store partition (R387). -/
structure AuthChan where
  valid   : Bool
  tx      : Bool
  ext     : Bool
  port    : Nat
  slot    : Fin 64
  id      : Nat
  window  : Nat
  counter : Word
  dirty   : Bool
  wroteAt : Option Nat
  deriving DecidableEq, Repr

/-- A frame collected for a host: port and the bytes of Table 12-3 (R381). -/
structure FwdEntry where
  port  : Nat
  prio  : BitVec 2
  bytes : List Byte
  deriving DecidableEq, Repr

structure FwdQueue where
  entries : List FwdEntry
  /-- instant of the first uncollected frame -/
  at_     : Option Nat
  deriving DecidableEq, Repr

/-- A received frame that waits for D14 (R384). -/
structure AuthWait where
  channel : Fin 6
  frame   : CanFrame
  zone    : Nat
  deriving DecidableEq, Repr

/-! ### Dormancy (chapter 13) -/

/-- Net states of Table 13-1. -/
inductive NetState where
  | disabled
  | need
  | idle
  | prepare
  | transition
  | asleep
  deriving DecidableEq, Repr

structure NetSt where
  st        : NetState
  /-- NEED_HOSTS -/
  needHosts : BitVec 13
  holdUntil : Nat
  /-- last restart of the idle timer -/
  idleAt    : Nat
  /-- last keep-alive from another participant -/
  kaAt      : Option Nat
  lastCause : Nat
  /-- sticky [7:0] of word 0C00h -/
  sticky    : BitVec 8
  /-- words 0C01h to 0C03h -/
  cfg1      : Word
  cfg2      : Word
  cfg3      : Word
  /-- entry into the present state, last wake, last sleep, last own keep-alive -/
  stateAt   : Nat
  wokeAt    : Nat
  sleptAt   : Nat
  kaSentAt  : Nat
  /-- no local need, keep-alive or matched frame since the wake (R412) -/
  quiet     : Bool
  /-- a TC10 sleep request of the module is out since (R405) -/
  tc10      : Option Nat
  /-- end of the LIN wake-up wait (R407) -/
  linWait   : Option Nat
  /-- a wake latched while the domain is not on: its cause (R409) -/
  latched   : Option Nat
  /-- the sleep comes from the partner's request -/
  partner   : Bool
  deriving DecidableEq, Repr

/-- The wake frame of a CAN channel (R416). -/
structure WakeFrame where
  ext  : Bool
  dlc  : Nat
  id   : Nat
  mask : Nat
  data : List Byte
  deriving DecidableEq, Repr

structure NetSts where
  eth     : Vector EthPort 2
  fdb     : List FdbEntry
  vlans   : Vector VlanEntry 32
  cans    : Vector CanPort 6
  lins    : Vector LinPort 8
  filters : Vector Filter 64
  chans   : Vector AuthChan 32
  fwd     : Vector FwdQueue 10
  authRx  : List AuthWait
  /-- FRAME_SENDs waiting for a transmit buffer: channel, packet, since (R382) -/
  txWait  : List (Fin 6 × QPkt × Nat)
  nets    : Vector NetSt 16
  wufs    : Vector WakeFrame 6
  /-- lease expiry per host 0 to 12 (R416) -/
  leases  : Vector (Option Nat) 13
  /-- transceiver supply VS5 below 5.0 V (R560) -/
  vs5Low  : Bool
  /-- what the last row put on the switch ports and the buses: port, queue, frame -/
  swOut   : List (Fin 3 × Nat × EthFrame)
  canOut  : List (Fin 6 × CanFrame)
  linOut  : List (Fin 8 × BitVec 6 × Bool × List Byte)
  /-- LIN and Ethernet nets on which the last row sent a wake-up signal or pulse (R406) -/
  wakeOut : List (Fin 16)
  deriving DecidableEq, Repr

end Sys2Proof.Machine
end

