-- ==== Sys2Proof/Machine/Fresh.lean ====
section
/-! DEFINITION. Every part of the block at its R12 reset value: the Reset columns of the status-word tables, and for what
no table gives a reset value the value of log entry 5. -/

namespace Sys2Proof.Machine

/-- Class of a cell: 0 H, 1 M, 2 L (R21). -/
def outClass (n : Fin 96) : Nat :=
  let k := n.val % 24
  if k < 2 then 0 else if k < 8 then 1 else 2

/-! ### Outputs and regions (Tables 5-11, 5-12, 6-16 to 6-19, 7-7 to 7-12) -/

def OutSt.fresh (n : Fin 96) : OutSt :=
  { st := .off, mode := 0, start := false, vals := ⟨0, 0, 0⟩
    pwm := { act := ⟨0, 0, 0⟩, onPhase := false, onEnd := 0, perEnd := 0, waitFrom := none }
    uvOff := false, lastHost := 0, sticky2 := 0, cfg := at_ 30 2 1, slewAct := 1, partner := none, stateAt := 0, riseAt := 0
    offSince := 0, tok := .none, tokDue := none, fastTok := false, staged := false, early := none, mirPend := false
    mirAt := none, mirLife := 0
    rb := { current := 0, vout := 0, range := 0, next := 0, gotI := false, gotV := false, onPhase := false, over_ := false, timeI := 0, timeV := 0,
            below := 0 }
    prot := .none, clear := false, clearFor := 0, retry := 3, tripAt := 0, tripKind := 0, trips := 0, tripFrom := .off
    tripEnv := none, coolFrom := 0, cleanNs := 0, cleanAt := 0
    openOn := false, openOff := false, shortSup := false, leakSup := false
    diagIn := Vector.replicate 4 none, diagOut := Vector.replicate 4 none, diagAt := 0
    theta := 0, env := none, limiting := false, tj := -64, hotHold := false, sticky3 := 0
    cfg1 := at_ 29 3 3 ||| at_ 28 1 1 ||| at_ 24 4 3 ||| at_ 20 4 7
    cfg2 := at_ 16 8 1 ||| at_ 8 8 (if outClass n = 0 then 0x64 else if outClass n = 1 then 0x28 else 0x0A) ||| at_ 0 8 10
    learn := 0, learnRun := false, peaks := [], envBefore := 0, learned := none }

def AdcSeq.fresh : AdcSeq := { pos := 0, tripped := [], waits := [] }

def RegSt.fresh : RegSt :=
  { vs := 0, level := 0, lowAt := none, uv := false, uvAt := 0, uvLow := 0, therm := 0
    coolAt := Vector.replicate 3 none, hot := 0, hotIdx := 0, hotValid := false, temps := [], invalid := [], deviant := []
    samples := [], budget := 0, budgetAt := none, budgetLow := none, restore := [], releaseAt := none, sticky := 0
    cfg1 := at_ 23 9 105 ||| at_ 14 9 90 ||| at_ 5 9 75 ||| at_ 2 3 3
    cfg2 := at_ 24 8 150 ||| at_ 16 8 80 ||| at_ 8 8 45 ||| at_ 4 4 8
    crossBad := false, crossAt := none }

def PruneSt.fresh : PruneSt := { cls := 1, pruned := false, cause := 0, seen := false }
def ModSt.fresh : ModSt := { pmax := 120, own := 0, pavg := 0, stage := 0, at_ := none, lowAt := none }

/-! ### Bridges and valves (Tables 8-12, 8-13, 9-9, 9-10) -/

def BrSt.fresh : BrSt :=
  let c1 := at_ 29 3 3 ||| at_ 26 3 5 ||| at_ 20 6 10 ||| at_ 16 4 3 ||| at_ 8 6 10 ||| at_ 0 8 40
  let c3 := at_ 0 8 32
  { st := .coast, cmd := ⟨0, 0, 0, false⟩, deferred := none, fwd := true, fromCoast := true, posValid := false, pos := 0
    profile := none, learning := false, uvOff := false, clear := false, clearFor := 0, lastHost := 0, sticky := 0, cfg1 := c1
    cfg2 := at_ 24 8 40 ||| at_ 18 6 16 ||| at_ 10 8 60 ||| at_ 5 5 5, cfg3 := c3, act1 := c1, act3 := c3, stateAt := 0
    periods := [], lastPulse := none, driveAt := 0, moveAt := 0, ranNs := 0, stopEnd := 0, rev := none, learnRun := none
    learnt := [], tok := .none, tokDue := none, staged := false, mirPend := false, mirAt := none, mirLife := 0, filtered := 0
    current := 0, va := 0, vb := 0, timeI := none, timeA := none, timeB := none }

def LegSt.fresh : LegSt := { tj := -64, limiting := false, sticky := 0 }

def VlSt.fresh : VlSt :=
  let c := at_ 25 6 20 ||| at_ 18 7 20
  { st := .off, mode := false, uvOff := false, openCoil := false, drainHigh := false, diagIn := Vector.replicate 2 none
    diagOut := Vector.replicate 2 none, tj := -64, lastHost := 0, sticky := 0, marked := false, clear := false, cfg := c
    act := c, partner := none, guard_ := false, result := 0, cause := 0, closeTime := 0, clampTime := 0, ended := true
    offAt := 0, samples := [], k0 := 0, onAt := 0, tok := .none, tokDue := none, staged := false, mirPend := false
    mirAt := none, mirLife := 0, volt := 0, timeV := none }

def VhSt.fresh : VhSt :=
  let c := at_ 28 4 6 ||| at_ 27 1 1 ||| at_ 23 4 3 ||| at_ 19 4 7
  { st := .off, stateAt := 0, prot := .none, clear := false, retry := 3, tripAt := 0, tripKind := 0
    coolFrom := 0, cleanNs := 0, cleanAt := 0, limiting := false, tj := -64, sticky := 0, cfg := c, act := c
    current := 0, volt := 0, timeI := none, timeV := none }

/-! ### Inputs and field I/O (Tables 10-10, 10-11) -/

def SwSt.fresh : SwSt :=
  { cfg := at_ 28 3 3 ||| at_ 25 3 2 ||| at_ 16 8 20, raw := false, closed := false, valid := false, source := 3
    hold := false, sticky := 0, runVal := false, run := 0, runZone := 0, held := none, cand := none, parked := [] }

def AnSt.fresh : AnSt :=
  { cfg2 := at_ 30 2 2 ||| at_ 25 3 2, cfg3 := at_ 8 12 0xFFF, convs := [], code := 0, valid := false, below := false
    above := false, sticky := 0, convAt := none }

def FiSt.fresh : FiSt :=
  { cfg := at_ 25 4 5, value := false, known := false, valid := false, raw := false, runAt := none, sticky := 0, changeAt := 0
    before := false, stickyBefore := 0 }

def FqSt.fresh : FqSt :=
  { mode := false, wait := false, cfg := at_ 27 2 3, lastHost := 0, shut := false, latched := false, limiting := false
    fed := false, stretch := none, mirPend := false, mirAt := none, mirLife := 0 }

def FieldSt.fresh : FieldSt :=
  { supply := .ok, mv := 0, sticky := 0, missingAt := 0, missNs := 0, okAt := none, owed := false, redrive := none, faultAt := none }

/-- Word 0705h. -/
def cycFresh : Word := at_ 29 3 2 ||| at_ 24 3 1 ||| at_ 23 1 1

def IoSt.fresh : IoSt :=
  { sw := Vector.replicate 64 SwSt.fresh, an := Vector.replicate 12 AnSt.fresh, cyc := cycFresh
    fi := Vector.replicate 16 FiSt.fresh, fq := Vector.replicate 16 FqSt.fresh, fld := FieldSt.fresh }

/-! ### Networks, zone time and dormancy (Tables 12-5, 12-6, 13-8) -/

def EthPort.fresh (n : Fin 2) : EthPort :=
  { link := 0, quality := 0, sticky := 0, cfg := at_ 31 1 1 ||| at_ 30 1 n.val, answers := [], delay := 0, asCap := false
    stickyT := 0, syncAt := none }

def CanPort.fresh : CanPort :=
  { tec := 0, rec_ := 0, busOff := false, sticky := 0
    cfg := at_ 29 1 1 ||| at_ 27 2 2 ||| at_ 25 2 1 ||| at_ 18 7 64 ||| at_ 12 6 14 ||| at_ 11 1 1, bufs := [] }

def LinPort.fresh : LinPort :=
  { sticky := 0, cfg := at_ 23 8 192, table := [], next := none, slot := 0, slotAt := none, awaiting := false, txNeed := [] }

def Filter.fresh : Filter :=
  { valid := false, ext := false, drop := false, port := 0, prio := 0, id := 0, mask := 0, hosts := 0 }

def AuthChan.fresh : AuthChan :=
  { valid := false, tx := false, ext := false, port := 0, slot := 0, id := 0, window := 0, counter := 0, dirty := false
    wroteAt := none }

def NetSt.fresh : NetSt :=
  { st := .disabled, needHosts := 0, holdUntil := 0, idleAt := 0, kaAt := none, lastCause := 0, sticky := 0
    cfg1 := at_ 22 8 10 ||| at_ 14 8 20 ||| at_ 6 8 10 ||| at_ 0 6 30, cfg2 := at_ 30 1 1 ||| at_ 0 29 0x500
    cfg3 := at_ 0 29 0x700, stateAt := 0, wokeAt := 0, sleptAt := 0, kaSentAt := 0, quiet := false, tc10 := none
    linWait := none, latched := none, partner := false }

def NetSts.fresh : NetSts :=
  { eth := #v[EthPort.fresh 0, EthPort.fresh 1], fdb := []
    vlans := Vector.replicate 32 { valid := false, members := 0, untag := 0, vid := 0 }
    cans := Vector.replicate 6 CanPort.fresh, lins := Vector.replicate 8 LinPort.fresh
    filters := Vector.replicate 64 Filter.fresh, chans := Vector.replicate 32 AuthChan.fresh
    fwd := Vector.replicate 10 { entries := [], at_ := none }, authRx := [], txWait := []
    nets := Vector.replicate 16 NetSt.fresh
    wufs := Vector.replicate 6 { ext := false, dlc := 0, id := 0, mask := 0, data := List.replicate 8 0 }
    leases := Vector.replicate 13 none, vs5Low := false, swOut := [], canOut := [], linOut := [], wakeOut := [] }

/-- Words 0B01h and the rest of zone time, at zone time `t`. -/
def ZoneSt.fresh (t : Nat) : ZoneSt :=
  { time := t, frac := 0, rate := 0, integral := 0, state := .free, good := 0, offset := 0, lastSync := none
    cfg := at_ 29 3 2 ||| at_ 27 2 1 ||| at_ 25 2 2 ||| at_ 17 8 100 ||| at_ 9 8 80 ||| at_ 5 4 3, sticky := 0 }

/-! ### Access, keys and the trellis (Tables 14-9, 14-10, 15-13, 18-3) -/

def LfDrv.fresh (n : Fin 6) : LfDrv :=
  { peak := 0, sticky := 0, cfg := at_ 28 4 10 ||| at_ 27 1 (if n.val < 2 then 1 else 0), stopped := false }

def AccSt.fresh : AccSt :=
  { lf := Vector.ofFn LfDrv.fresh, exch := none, tp := none, cache := [], uses := 0, verdicts := [], released := []
    cfg := at_ 11 5 4 ||| at_ 5 6 14 ||| at_ 3 2 3, sticky := 0, stickyTp := 0, verdict := 0, tpSerial := 0, park := 0
    stopped := false, polls := 0, pollAt := none, pollDue := false, lastPoll := none, waits := [] }

def KeySlot.fresh : KeySlot :=
  { st := .empty, parent := 0, attr := 0, version := 0, parentGen := 0, key := [], blob := [], seqS := 0, accepted := 0
    dirty := false, wroteAt := none, sticky := 0 }

def Rootstock.fresh : Rootstock := { st := .unset, role := 0, gen := 0, div := 0, sticky := 0 }

def KeySt.fresh : KeySt :=
  { roots := Vector.replicate 32 Rootstock.fresh, slots := Vector.replicate 64 KeySlot.fresh, copyB := false, genA := 0
    genB := 0, lost := true, sticky := 0, nonce := 0, nonceDue := false, revoked := [], updates := [], writing := false, written := false, reload := false }

def TrlSide.fresh : TrlSide :=
  { st := 0, lastAt := 0, sentAt := 0, good := 0, txSeq := 1, rxSeq := 0, unack := [], reach := 0, peer := none, rtt := 0 }

/-- Word 1101h. -/
def trlCfgFresh : Word := at_ 26 4 1 ||| at_ 18 8 4

def TrlSt.fresh : TrlSt :=
  { sides := Vector.replicate 2 TrlSide.fresh, dup := false, hold := false, fatal := false, sticky := 0, cfg := trlCfgFresh
    present := 0, lost := 0, hops := Vector.replicate 4 0, viaB := 0, reqs := [], bcasts := [], working := []
    timeAt := none, agree := 0, timeSent := 0, out := [] }

/-! ### The command engine, events, reflexes and faults (Tables 2-15 to 2-17, 3-9, 4-15, 11-5, 17-3 to 17-8) -/

def ChainSt.fresh : ChainSt :=
  { open_ := false, broken := false, count := 0, id := 0, member := 0, lastAt := 0 }

def HostSt.fresh : HostSt :=
  { reg := none, lapsed := false, silent := false, lapseAt := 0, silence := 0, silenceAt := none, out := []
    chain := ChainSt.fresh }

def EvRoute.fresh : EvRoute := { irqEn := false, irqSel := 0, pcp := 0, hosts := 0 }

def EvSt.fresh : EvSt :=
  { mask := 0, route := Vector.replicate 256 EvRoute.fresh, pending := 0, held := [], entries := Vector.replicate 10 []
    ebw := Vector.replicate 10 none }

def CmdSt.fresh : CmdSt :=
  { authPolicy := 0, sticky := 0, ready := false, arrivals := 0, waiting := [], sched := [], highWater := 0, authWait := []
    chains := [], chainNext := 0,
    replyWait := [], restart := none, lastOut := [] }

def PlanSt.fresh : PlanSt :=
  { noPlan := true, copyB := false, stateA := 1, stateB := 1, targetB := false, sticky := 0, passedA := false
    passedB := false, version := 0, picked := false, next := none }

def DomOne.fresh : DomOne :=
  { st := .on, woa := false, upAfter := false, returnTo := none, idleSince := 0, intHeld := false, lastRefusal := 0
    sticky := 0, imageBad := false, startedAt := 0, retAt := 0 }

/-- WAKE0 and WAKE1 enabled with wake set D00, every other detector disabled (R146). -/
def wakeFresh : Vector WakeCfg 96 :=
  ((Vector.replicate 96 { enable := false, set := 1 }).set 93 { enable := true, set := 1 }).set 94 { enable := true, set := 1 }

def LastWake.fresh : LastWake :=
  { source := 0, index := 0, count := 0, life := 0, domains := 0, duringDown := false, concurrent := 0, cycle := 0, fired := [] }

def DomSt.fresh : DomSt :=
  { dom := Vector.replicate 16 DomOne.fresh, dset := none, replyPath := [], wake := wakeFresh, timerAt := none
    lastWake := LastWake.fresh, wakeLevel := Vector.replicate 2 false, mainReg := true, root := true, lpForced := false
    lpLoad := 0, lpLowSince := none, rootAt := none, sticky := 0, schedTimer := none, frames := [] }

/-- A reflex entry never written: 64 zero bytes, disabled. -/
def RfxEntry.fresh : RfxEntry :=
  { image := List.replicate 64 0, timerAt := none, holdUntil := 0, waiting := none, lastStatus := 0, sticky := 0 }

def RfxSt.fresh : RfxSt :=
  { entries := Vector.replicate 128 RfxEntry.fresh, occs := [], overflow := false, discarded := 0, fired := [] }

def Watch.fresh : Watch :=
  { enable := false, stopFull := false, minSev := 0, code := 0, codeMask := 0, src := 0, srcMask := 0, holdoff := 0
    list := List.replicate 56 (0xFFFF, 0), lastAt := none, taken := 0, over_ := 0, sticky := 0 }

def AlmSt.fresh : AlmSt :=
  { seq := 0, batch := [], intake := [], lost := 0, staging := [], rates := [], dropInfo := 0, dropWarn := 0, dropErr := 0
    flush := none, again := false, flushWait := [], lastEnd := 0
    intents := Vector.replicate 2 { done := true, targets := [], lastSeq := 0 }, lastIntent := 0
    check := { lastSeq := 0, life := 0, fill := 0, epoch := 0 }, fill := 0, epoch := 0, fullDone := false, vnonce := 0, vnonceDue := false
    watches := Vector.replicate 16 Watch.fresh, rings := Vector.replicate 160 { over_ := 0, refused := false }, sticky := 0
    cleared := false, cfg := at_ 30 2 1 ||| at_ 29 1 1, writes := [], onHold := false, brown := none }

def BlkSt.fresh : BlkSt :=
  { firstClass := 0, firstChecker := 0, firstAt := none, degraded := [], corrected := 0, sticky := 0, selfFail := false, selfInj := false }

def FltSt.fresh : FltSt :=
  { blocks := Vector.replicate 25 BlkSt.fresh, fatals := [], fatalCount := 0, lastFatal := 0, lastBlock := 0, sticky := 0
    inject := none, injSticky := 0, clear := [], entropyBad := false }

def BootSt.fresh : BootSt :=
  { phase := 6, condition := 1, cause := 0, lastCause := 0, selfFails := 0, startAt := 0, discarded := 0, resetLow := none
    member := 0 }

def Clk.fresh : Clk :=
  { now := 0, d00Clock := 0, cmdClock := 0, free := 0, life := 0, lifeFrac := 0, ao := 0, aoFrac := 0, aoTrim := 0, wall := 0, wallFrac := 0 }

end Sys2Proof.Machine
end

