-- ==== Sys2Proof/Machine/Memory.lean ====
section
/-! DEFINITION. The non-volatile die (R16, R477) as a list of cells in one canonical form: addresses strictly
rising, no cell holding 00h. A byte that is not listed reads 00h, the value of an erased die (R192, R508, R594). -/

namespace Sys2Proof.Machine

abbrev Memory := List Host.Cell

namespace Mem

/-- Size of the die: 64 MB (R16). -/
def size : Nat := 0x4000000

/-- What an unlisted address reads as. -/
def erased : Byte := 0

def read (m : Memory) (a : Nat) : Byte :=
  match m with
  | [] => erased
  | (b, v) :: r => if b = a then v else read r a

def readN (m : Memory) (a n : Nat) : List Byte := (List.range n).map fun i => read m (a + i)

/-- The listed cells of `bs` laid at `a`; no cell lies past the end of the die. -/
def cells (a : Nat) : List Byte → Memory
  | [] => []
  | b :: bs => if b = erased || decide (size ≤ a) then cells (a + 1) bs else (a, b) :: cells (a + 1) bs

/-- Write `bs` at `a`: everything below, the bytes, everything above. -/
def write (m : Memory) (a : Nat) (bs : List Byte) : Memory :=
  m.filter (fun c => c.1 < a) ++ cells a bs ++ m.filter (fun c => a + bs.length ≤ c.1)

/-- Erase `n` bytes from `a`. -/
def clear (m : Memory) (a n : Nat) : Memory := m.filter fun c => decide (c.1 < a) || decide (a + n ≤ c.1)

/-- Addresses strictly rise. -/
def rising : Memory → Bool
  | [] => true
  | [_] => true
  | a :: b :: r => decide (a.1 < b.1) && rising (b :: r)

end Mem

/-- The canonical form: rising addresses, no cell with the erased value, every address inside the die. -/
def Memory.wf (m : Memory) : Bool :=
  Mem.rising m && m.all (fun c => c.2 != Mem.erased) && m.all (fun c => decide (c.1 < Mem.size))

end Sys2Proof.Machine
end

