-- ==== Sys2Proof/Machine/State.lean ====
section
/-! DEFINITION. The whole state of the block, its reasons to stop, and the state after reset: the instant R12 names,
after the memory self-test of a cold bring-up and before the planting plan runs. -/

namespace Sys2Proof.Machine

/-- No command of the table ends in a fault: the spec answers every error by a status, a sticky bit or a record. -/
inductive Fault where
  deriving DecidableEq, Repr

/-- Raised by an arm of `exec` whose command has no meaning yet; safe. -/
inductive Refusal where
  | notModelled (mnemonic : String)
  deriving DecidableEq, Repr

/-- A reading as it stood before the conversions of the present cycle of its block's ADC: a failing self-check slot
discards them (R513). -/
inductive HeldRb where
  | out (n : Fin 96) (rb : Readback)
  | br (k : Fin 8) (current va vb : Int) (timeI timeA timeB : Option Nat)
  | vl (n : Fin 16) (volt : Int) (timeV : Option Nat)
  | vh (g : Fin 4) (current volt : Int) (timeI timeV : Option Nat)
  | an (m : Fin 12) (x : AnSt)
  deriving DecidableEq, Repr

structure State where
  /-- commands waiting, first in, first out: the model's own queue -/
  pending : List Instr
  clk     : Clk
  zone    : ZoneSt
  ev      : EvSt
  cmd     : CmdSt
  hosts   : Vector HostSt 14
  boot    : BootSt
  plan    : PlanSt
  dom     : DomSt
  rfx     : RfxSt
  alm     : AlmSt
  flt     : FltSt
  ks      : KeySt
  nv      : Memory
  outs    : Vector OutSt 96
  regs    : Vector RegSt 7
  prune   : Vector PruneSt 120
  modb    : ModSt
  brs     : Vector BrSt 8
  legs    : Vector LegSt 16
  vls     : Vector VlSt 16
  vhs     : Vector VhSt 4
  io      : IoSt
  net     : NetSts
  acc     : AccSt
  trl     : TrlSt
  /-- readings of the present cycle's start, per block with an ADC -/
  adc     : Vector (List HeldRb) 25
  /-- the sequencers of the block ADCs (R187, R304) -/
  seqs    : Vector AdcSeq 25
  deriving DecidableEq, Repr

/-- The machine right after reset (R12, R103): phase 6 of a cold bring-up from power-on, every domain on, every unit at its
reset value, every output off, nothing listed in the non-volatile die, no command waiting. -/
def State.reset : State :=
  { pending := [], clk := Clk.fresh, zone := ZoneSt.fresh 0, ev := EvSt.fresh, cmd := CmdSt.fresh
    hosts := Vector.replicate 14 HostSt.fresh, boot := BootSt.fresh, plan := PlanSt.fresh, dom := DomSt.fresh
    rfx := RfxSt.fresh, alm := AlmSt.fresh, flt := FltSt.fresh, ks := KeySt.fresh, nv := []
    outs := Vector.ofFn OutSt.fresh, regs := Vector.replicate 7 RegSt.fresh, prune := Vector.replicate 120 PruneSt.fresh
    modb := ModSt.fresh, brs := Vector.replicate 8 BrSt.fresh, legs := Vector.replicate 16 LegSt.fresh
    vls := Vector.replicate 16 VlSt.fresh, vhs := Vector.replicate 4 VhSt.fresh, io := IoSt.fresh, net := NetSts.fresh
    acc := AccSt.fresh, trl := TrlSt.fresh, adc := Vector.replicate 25 []
    seqs := Vector.replicate 25 AdcSeq.fresh }

end Sys2Proof.Machine
end

