-- ==== Sys2Proof/Machine/Ops.lean ====
section
/-! DEFINITION. The shared operations of the block: domain states as packets see them, free values, records, events,
occurrences, turn-ups, outgoing packets and replies. -/

namespace Sys2Proof.Machine

/-! ### Free values and time -/

/-- The next random value (log entry 3); the counter of free values advances. -/
def random (s : State) : BitVec 128 := Config.random s.clk.free
/-- Advance the counter of free values. -/
def drew (s : State) : State := { s with clk := { s.clk with free := s.clk.free + 1 } }

/-- The record times of an occurrence. -/
def now (s : State) : Nat := s.clk.now
def zone (s : State) : Nat := s.zone.time

/-! ### Domains -/

/-- How a domain answers a packet: a domain between states answers as the state it is leaving (R37). -/
inductive Answer where
  | on
  | ret
  | off
  deriving DecidableEq, Repr

def DomState.answer : DomState → Answer
  | .on | .toRet | .toOff => .on
  | .ret | .retToOn => .ret
  | .off | .offToOn => .off

def domState (d : Fin 16) (s : State) : DomState := s.dom.dom[d].st
/-- The domain has reached on and is not leaving it. -/
def domOn (d : Fin 16) (s : State) : Bool := domState d s = .on

def modDom (d : Fin 16) (f : DomOne → DomOne) (s : State) : State :=
  { s with dom := { s.dom with dom := s.dom.dom.set d (f s.dom.dom[d]) } }

/-- The domain a unit lies in (Table 1-5, Table 1-7); regions lie in the always-on section (R258). -/
def unitDomain : UnitRef → Option (Fin 16)
  | .chip => some 0
  | .out n => some (Fin.ofNat 16 (6 + n.val / 24))
  | .leg _ | .vh _ | .vl _ => some 10
  | .sw _ => some 11
  | .fi _ | .fq _ => some 12
  | .lf _ | .tp | .uhf => some 13
  | .spi _ => some 0
  | .eth n => some (Fin.ofNat 16 (1 + n.val))
  | .can n => some (Fin.ofNat 16 (3 + n.val / 3))
  | .lin _ => some 5
  | .slot _ => some 14
  | .trl => some 0
  | .region _ => none

/-- Region of an OUT cell (R20). -/
def outRegion (n : Fin 96) : Fin 7 := Fin.ofNat 7 (n.val / 24)
def outDomain (n : Fin 96) : Fin 16 := Fin.ofNat 16 (6 + n.val / 24)

/-- The command engine executes packets: D00 on, phase 6 or later, no warm restart, no fatal hold, and no restart
awaited (R85, R101, R516). -/
def engineRuns (s : State) : Bool :=
  domOn 0 s && decide (6 ≤ s.boot.phase) && decide (s.boot.condition ≤ 1) && s.cmd.restart.isNone

/-- D00 is about to leave on: packets in execution still complete (R132). -/
def engineLeaves (s : State) : Bool :=
  (domState 0 s == .toRet || domState 0 s == .toOff) && decide (6 ≤ s.boot.phase) && decide (s.boot.condition ≤ 1)
    && s.cmd.restart.isNone

/-- Ready has been reached and no warm restart or fatal hold has taken it away (R101, R105). -/
def ready (s : State) : Bool := s.cmd.ready

/-- CAN and LIN transmitters may drive their buses: recessive from the start of a cold bring-up or warm restart until ready
(Table 3-3). -/
def busesDriven (s : State) : Bool := s.boot.condition != 1 && s.boot.condition != 2

/-! ### Records -/

/-- A record of a unit class and index at this core cycle (R478, R503): it joins the batch of the cycle (R482). -/
def record (code : Half) (sev fc : BitVec 2) (cls : BitVec 6) (idx : Nat) (p1 p2 p3 : Nat) (s : State)
    (flags : BitVec 4 := 0) : State :=
  { s with alm := { s.alm with batch := s.alm.batch ++
    [{ seq := 0, life := s.clk.life, wall := s.clk.wall, code := code, member := s.boot.member, cls := cls,
       idx := BitVec.ofNat 8 idx, sev := sev, fc := fc, flags := flags, supp := 0,
       p1 := BitVec.ofNat 32 p1, p2 := BitVec.ofNat 32 p2, p3 := BitVec.ofNat 32 p3 }] } }

/-- Severities of Table 16-3. -/
def info : BitVec 2 := 0
def warning : BitVec 2 := 1
def error : BitVec 2 := 2
def critical : BitVec 2 := 3

/-- A record of fault class none. -/
def note (code : Half) (sev : BitVec 2) (cls : BitVec 6) (idx p1 p2 p3 : Nat) (s : State) : State :=
  record code sev 0 cls idx p1 p2 p3 s

/-! ### Reflex occurrences (R345, R352) -/

def entryEnabled (img : List Byte) : Bool := (byteAt img 0).getLsbD 7
def trigType (img : List Byte) : Nat := (byteAt img 0).toNat % 16

/-- The occurrence is one the entry's trigger names (Table 11-2). -/
def trigMatches (entry : Nat) (img : List Byte) (k : OccKind) : Bool :=
  match k with
  | .swEdge i c => trigType img = 1 && (byteAt img 4).toNat = i && (byteAt img 5).getLsbD (if c then 0 else 1)
  | .fiChange i o => trigType img = 2 && (byteAt img 4).toNat = i && (byteAt img 5).getLsbD (if o then 0 else 1)
  | .token ser drv =>
    let serial := BitVec.ofNat 20 (numAt img 4 3)
    let mask := BitVec.ofNat 20 (numAt img 7 3)
    let lf := BitVec.ofNat 6 (byteAt img 10).toNat
    trigType img = 3 && (ser &&& mask) == (serial &&& mask) && (lf == 0 || (lf &&& drv) != 0)
  | .timer e => trigType img = 4 && e = entry
  | .frame port auth ext id first =>
    let idMask := numAt img 12 4
    trigType img = 5 && (byteAt img 4).toNat % 16 = port && (!(byteAt img 4).getLsbD 4 || auth)
      && (byteAt img 4).getLsbD 5 == ext && (id &&& idMask) == (numAt img 8 4 &&& idMask)
      && (match first with
          | some b => (b &&& byteAt img 5) == (byteAt img 6 &&& byteAt img 5)
          | none => byteAt img 5 == 0)
  | .event e => trigType img = 6 && (byteAt img 4).toNat = e

/-- Some enabled entry has this trigger. -/
def occNamed (k : OccKind) (s : State) : Bool :=
  (List.range 128).any fun i =>
    let img := (s.rfx.entries[Fin.ofNat 128 i]).image
    entryEnabled img && trigMatches i img k

/-! ### Events (R91 to R96, R596) -/

def route (e : Nat) (ev : EvSt) : EvRoute := ev.route[Fin.ofNat 256 e]

/-- One entry more for host `h`, or one repeat more of an entry that waits for it (R96). -/
def collect (h : Fin 10) (e : Nat) (member : BitVec 4) (z now : Nat) (ev : EvSt) : EvSt :=
  let l := ev.entries[h]
  if l.any (fun x => x.event = e && x.member == member) then
    let l' := l.map fun x => if x.event = e && x.member == member then { x with rep := min 255 (x.rep + 1) } else x
    { ev with entries := ev.entries.set h l' }
  else
    { ev with entries := ev.entries.set h (l ++ [⟨e, member, 0, z⟩]), ebw := ev.ebw.set h (some (ev.ebw[h].getD now)) }

/-- An occurrence judged against the mask and routing in force (R86, R91, R95). -/
def judge (e : Nat) (member : BitVec 4) (z now : Nat) (ev : EvSt) : EvSt :=
  if ev.mask.getLsbD e then
    let ev := { ev with pending := ev.pending ||| (1 <<< e) }
    (List.range 10).foldl (fun ev h =>
      if (route e ev).hosts.getLsbD h then collect (Fin.ofNat 10 h) e member z now ev else ev) ev
  else ev

/-- Keep the first occurrence of an event that cannot be raised now, in ascending event number (R596). -/
def hold (e z : Nat) (ev : EvSt) : EvSt :=
  if ev.held.any (·.1 = e) then ev
  else { ev with held := ev.held.filter (·.1 < e) ++ [(e, z)] ++ ev.held.filter (e < ·.1) }

/-- Raise event `e` without offering it to the reflex engine. -/
def raiseEv (e : Nat) (s : State) : State :=
  { s with ev := if domOn 0 s && ready s then judge e (s.boot.member.setWidth 4) (zone s) (now s) s.ev
                 else hold e (zone s) s.ev }

/-- The buffer takes an occurrence: D00 on, and during a warm restart rake edges only (R352). -/
def occAdmitted (k : OccKind) (s : State) : Bool :=
  domOn 0 s && (decide (s.boot.condition ≤ 1) ||
    (decide (s.boot.condition = 2) && (match k with | .swEdge _ _ => true | _ => false)))

/-- Offer an occurrence of zone time `z` to the reflex engine (R346, R352). -/
def pushOccAt (k : OccKind) (z : Nat) (s : State) : State :=
  if occNamed k s && occAdmitted k s then
    if s.rfx.occs.length < 64 then
      { s with rfx := { s.rfx with occs := s.rfx.occs ++ [⟨k, z, now s⟩] } }
    else
      let s' := { s with rfx := { s.rfx with overflow := true, discarded := s.rfx.discarded + 1 } }
      if s.rfx.overflow then s' else raiseEv 234 s'
  else s

def pushOcc (k : OccKind) (s : State) : State := pushOccAt k (zone s) s

/-- An event occurs at a unit: it is raised or held, and it is an occurrence of the reflex engine (R91, R345). -/
def raise (e : Nat) (s : State) : State :=
  if e < 240 then pushOcc (.event e) (raiseEv e s) else s

/-- Raise `e` when `b`: a sticky bit has set from 0 to 1. -/
def raiseIf (b : Bool) (e : Nat) (s : State) : State := if b then raise e s else s

/-- A mask sets a bit that is not set yet. -/
def fresh {n : Nat} (old m : BitVec n) : Bool := (m &&& ~~~old) != 0

/-- Set sticky bits of word 0000h; event 236 on a new one (R93). -/
def stickCmd (m : BitVec 12) (s : State) : State :=
  raiseIf (fresh s.cmd.sticky m) 236 { s with cmd := { s.cmd with sticky := s.cmd.sticky ||| m } }

/-- Set sticky bits of word 0100h of a domain; event 235 on a new one (R161). -/
def stickDom (d : Fin 16) (m : BitVec 6) (s : State) : State :=
  raiseIf (fresh s.dom.dom[d].sticky m) 235 (modDom d (fun x => { x with sticky := x.sticky ||| m }) s)

/-- Set sticky bits of word 0101h (R161). -/
def stickReg (m : BitVec 4) (s : State) : State :=
  raiseIf (fresh s.dom.sticky m) 235 { s with dom := { s.dom with sticky := s.dom.sticky ||| m } }

/-- Set sticky bits [7:4] of word 1200h; event 237 on a new one (R126). -/
def stickPlan (m : BitVec 4) (s : State) : State :=
  raiseIf (fresh s.plan.sticky m) 237 { s with plan := { s.plan with sticky := s.plan.sticky ||| m } }

/-- Set sticky bits of word 0F00h; event 231 on a new one (R509). -/
def stickAlm (m : BitVec 8) (s : State) : State :=
  raiseIf (fresh s.alm.sticky m) 231 { s with alm := { s.alm with sticky := s.alm.sticky ||| m } }

/-- Set sticky bits of word 0E00h of a slot; event 230 on a new one (R476). -/
def modSlot (k : Fin 64) (f : KeySlot → KeySlot) (s : State) : State :=
  { s with ks := { s.ks with slots := s.ks.slots.set k (f s.ks.slots[k]) } }
def stickSlot (k : Fin 64) (m : BitVec 8) (s : State) : State :=
  raiseIf (fresh s.ks.slots[k].sticky m) 230 (modSlot k (fun x => { x with sticky := x.sticky ||| m }) s)

/-- Set sticky bits of a reflex entry's word 0900h; event 234 on a new one (R357). -/
def modRfx (i : Fin 128) (f : RfxEntry → RfxEntry) (s : State) : State :=
  { s with rfx := { s.rfx with entries := s.rfx.entries.set i (f s.rfx.entries[i]) } }
def stickRfx (i : Fin 128) (m : BitVec 4) (s : State) : State :=
  raiseIf (fresh s.rfx.entries[i].sticky m) 234 (modRfx i (fun x => { x with sticky := x.sticky ||| m }) s)

/-! ### Turn-ups (R129, R140 to R142, R151, R154) -/

/-- tRTS of a root restart (R151). -/
def tRTS : Nat := 1200 * Config.us

/-- Start the main regulator, and with it the root, unless it runs (R151, R154). -/
def startRoot (s : State) : State :=
  let at_ := if s.dom.root then s.dom.rootAt else some (s.dom.rootAt.getD (now s + tRTS))
  { s with dom := { s.dom with mainReg := true, lpForced := false, lpLowSince := none, rootAt := at_ } }

/-- Start the turn-up of one domain: at once from off or retention, after the end of a transition down (R138). -/
def startUpOne (d : Fin 16) (s : State) : State :=
  match domState d s with
  | .off => startRoot (modDom d (fun x => { x with st := .offToOn, startedAt := now s }) s)
  | .ret => startRoot (modDom d (fun x => { x with st := .retToOn, startedAt := now s }) s)
  | .toOff | .toRet => startRoot (modDom d (fun x => { x with upAfter := true }) s)
  | _ => s

/-- The domain is in use: its idle time starts again (R142). -/
def touch (d : Fin 16) (s : State) : State := modDom d (fun x => { x with idleSince := now s }) s

/-- What an internally woken domain returns to. -/
def DomState.resting : DomState → Option DomState
  | .off | .toOff => some .off
  | .ret | .toRet => some .ret
  | _ => none

/-- Fatal hold turns up no D00, and other domains for internal demands only (Table 17-4); a cold bring-up turns none up before
phase 6 (R103). -/
def upAllowed (d : Fin 16) (s : State) : Bool :=
  (s.boot.condition != 1 || 6 ≤ s.boot.phase) && !(decide (s.boot.condition = 3) && d == 0)

/-- Turn one domain on for an internal demand of Table 4-8; `bit` is the sticky bit of word 0100h it sets. A domain that comes on
already, or does so after its present way down, is woken by what asked for that first. -/
def wakeOne (d : Fin 16) (s : State) (bit : BitVec 6 := 0b001000) : State :=
  match (domState d s).resting with
  | none => touch d s
  | some r =>
    if s.dom.dom[d].upAfter then touch d s
    else if upAllowed d s then
      let s := modDom d (fun x => { x with returnTo := some r, intHeld := true, idleSince := now s }) (startUpOne d s)
      stickDom d bit s
    else s

/-- Turn a domain on for an internal demand; from off its image is restored, which is a demand on D15 (Table 4-8). -/
def wakeInternal (d : Fin 16) (s : State) (bit : BitVec 6 := 0b001000) : State :=
  let s' := wakeOne d s bit
  if domState d s == .off && d != 15 && upAllowed d s then wakeOne 15 s' 0b001000 else s'

/-- Start the turn-up of a domain; from off with the restore of its image. -/
def startUp (d : Fin 16) (s : State) : State :=
  let s' := startUpOne d s
  if domState d s == .off && d != 15 then wakeOne 15 s' 0b001000 else s'

/-- Turn a domain on for a packet; it stays on (R140, R142). -/
def wakeOnAccess (d : Fin 16) (s : State) : State :=
  match (domState d s).resting with
  | none => modDom d (fun x => { x with returnTo := none, intHeld := false }) s
  | some _ => stickDom d 0b000100 (modDom d (fun x => { x with returnTo := none, intHeld := false }) (startUp d s))

/-! ### Writes to the non-volatile die (R35, R504) -/

/-- What a write does to the die. -/
def NvWrite.apply (w : NvWrite) (m : Memory) : Memory := Mem.write (Mem.clear m w.addr w.erase) w.addr w.data

/-- The die as it will stand once the waiting writes up to class `c` are done: what their readers inside the block see. -/
def nvUpTo (c : Nat) (s : State) : Memory := (s.alm.writes.filter (·.cls ≤ c)).foldl (fun m w => w.apply m) s.nv
def nvView (s : State) : Memory := nvUpTo 6 s

/-- The waiting writes of class `c` are done. -/
def nvDrain (c : Nat) (s : State) : State :=
  { s with nv := (s.alm.writes.filter (·.cls = c)).foldl (fun m w => w.apply m) s.nv
           alm := { s.alm with writes := s.alm.writes.filter (·.cls ≠ c) } }

/-- A write joins those that wait for the arbiter; D15 is woken for it (R35, R142, R504). -/
def nvQueue (cls addr : Nat) (data : List Byte) (q : Option QPkt) (s : State) (erase : Nat := 0) : State :=
  wakeInternal 15 { s with alm := { s.alm with writes := s.alm.writes ++ [⟨cls, addr, data, erase, q⟩] } }

/-! ### Packets out (R39, R47, R48, R97) -/

def modHost (h : Fin 14) (f : HostSt → HostSt) (s : State) : State :=
  { s with hosts := s.hosts.set h (f s.hosts[h]) }

/-- The bytes of a packet with its header check (R39, R40, R42, R44). -/
def packetBytes (p : Packet) (hostByte : Bool := true) : List Byte :=
  let flags : Nat := 16 + (if p.replyWanted then 8 else 0) + (if p.time.isSome then 4 else 0)
    + (if p.auth then 2 else 0) + (if p.chain then 1 else 0)
  let head := be 1 flags ++ be 1 (p.member.toNat * 16 + p.prio.toNat * 4) ++ be 2 p.opcode.toNat ++ be 2 p.tag.toNat
    ++ be 2 p.payload.length ++ be 4 p.hostSeq.toNat ++ [p.keySlot] ++ be 1 (if hostByte then p.host.val else 0)
  head ++ be 2 (crc16 head).toNat ++ (p.time.elim [] fun t => be 8 t.toNat) ++ p.payload ++ (if p.auth then p.cmac else [])

/-- The packet at the start of the bytes, for the host given (R39, R40). -/
def parsePacket (host : Fin 16) (b : List Byte) : Packet :=
  let f := byteAt b 0
  let n := numAt b 6 2
  let t := if f.getLsbD 2 then 8 else 0
  { host := host, replyWanted := f.getLsbD 3, auth := f.getLsbD 1, chain := f.getLsbD 0
    member := BitVec.ofNat 4 ((byteAt b 1).toNat / 16), prio := BitVec.ofNat 2 ((byteAt b 1).toNat / 4)
    opcode := halfAt b 2, tag := halfAt b 4, hostSeq := wordAt b 8, keySlot := byteAt b 12
    time := if f.getLsbD 2 then some (BitVec.ofNat 64 (numAt b 16 8)) else none
    payload := slice b (16 + t) n, cmac := if f.getLsbD 1 then slice b (16 + t + n) 8 else [] }

/-- A reserved bit of the header is set (step 4). -/
def headerReserved (b : List Byte) : Bool := byteAt b 1 &&& 3 != 0 || byteAt b 13 &&& 0xF0 != 0

/-- The message a packet's CMAC covers: header bytes 0 to 12, execution time, payload (R43). -/
def cmacMessage (p : Packet) : List Byte :=
  (packetBytes p).take 13 ++ (p.time.elim [] fun t => be 8 t.toNat) ++ p.payload

/-- The reply to a request (R47), without CMAC. A request that has bit [15] set already keeps it: the field has no room for
8000h more (log entry 42). -/
def replyPacket (p : Packet) (code detail : Half) (data : List Byte) (member : BitVec 2) (time : Option (BitVec 64)) :
    Packet :=
  { p with replyWanted := false, auth := false, chain := false, member := member.setWidth 4,
           opcode := p.opcode ||| 0x8000, keySlot := 0xFF, time := time,
           payload := be 2 code.toNat ++ be 2 detail.toNat ++ data, cmac := [] }

/-- Put a packet into a host's outgoing buffer; a reply that finds it full is discarded and sets REPLY_DROPPED,
another packet is left to its entries (R97). An Ethernet host without registration has no port (R48). -/
def pushOut (h : Fin 16) (o : OutPkt) (s : State) : State :=
  if hlt : h.val < 14 then
    let h : Fin 14 := ⟨h.val, hlt⟩
    if 2 ≤ h.val && h.val ≤ 9 && s.hosts[h].reg.isNone then s
    else if s.hosts[h].out.length < Config.outCap then modHost h (fun x => { x with out := x.out ++ [o] }) s
    else if o.rank = 0 then stickCmd 0x400 s else s
  else s

def portDomain (p : Fin 2) : Fin 16 := Fin.ofNat 16 (1 + p.val)

/-- The egress queue of a priority code point (R363). -/
def pcpQueue (pcp : BitVec 3) : Nat := pcp.toNat / 2

/-- No frame passes a port in a test mode (R360) or asleep (R405). -/
def portShut (p : Fin 2) (s : State) : Bool :=
  fld s.net.eth[p].cfg 11 3 ≠ 0 || s.net.nets[(Fin.ofNat 16 (14 + p.val) : Fin 16)].st = .asleep

/-- A frame leaves a port of the switch; one that is shut drops it. -/
def sendFrame (p : Fin 3) (pcp : BitVec 3) (f : EthFrame) (s : State) : State :=
  if portShut (Fin.ofNat 2 p.val) s then s
  else { s with net := { s.net with swOut := s.net.swOut ++ [(p, pcpQueue pcp, f)] } }

/-- A frame of the endpoint with padding to 46 bytes (R57, R59); VLAN ID 0 means untagged. -/
def endpointFrame (mac : BitVec 48) (vlan : BitVec 12) (pcp : BitVec 3) (b : List Byte) : EthFrame :=
  { dst := mac, src := Config.endpointMac, tag := if vlan == 0 then none else some (pcp, vlan), etherType := 0x88B5
    payload := b ++ List.replicate (46 - b.length) 0 }

/-- A reply to a source without host ID (R62). -/
def directReply (src : EthSrc) (r : Packet) (s : State) : State :=
  sendFrame (Fin.ofNat 3 src.port.val) src.pcp (endpointFrame src.mac src.vlan src.pcp (packetBytes { r with host := 0 })) s

/-- A reply goes to its host, or by R62 to the source of its request when that holds no host ID any more (R48). -/
def pushReply (src : Option EthSrc) (r : Packet) (pcp : BitVec 3) (mark : ReplyMark) (s : State) : State :=
  if 2 ≤ r.host.val && r.host.val ≤ 9 && s.hosts[(Fin.ofNat 14 r.host.val : Fin 14)].reg.isNone then
    match src with
    | some x => if domOn (portDomain x.port) s then directReply x r s else s
    | none => s
  else pushOut r.host ⟨0, packetBytes r, pcp, now s, mark⟩ s

/-- Sources that take replies: hosts 0 to 10 (R48, R348, R115). -/
def takesReply (h : Fin 16) : Bool := h.val ≤ 10

/-- Build a reply under its slot and send it (R47, Table 15-5). -/
def buildAuthReply (r : Packet) (slot : Fin 64) (src : Option EthSrc) (pcp : BitVec 3) (mark : ReplyMark) (s : State) : State :=
  let k := s.ks.slots[slot]
  match k.st with
  | .loaded =>
    let r := { r with auth := true, keySlot := BitVec.ofNat 8 slot.val }
    let r := { r with cmac := Crypto.cmac8 k.key (cmacMessage r) }
    touch 14 (pushReply src r pcp mark s)
  | .empty => pushReply src r pcp mark s
  | .orphaned =>
    let r := { r with payload := be 2 0x32 ++ be 2 0 ++ r.payload.drop 4 }
    let s := stickSlot slot 0x80 (record 0x0E0B error 2 13 slot.val k.parent 2 r.host.val s)
    pushReply src r pcp mark s

/-- D14 can compute: it is on and its slots are reloaded (R66, R461). -/
def cryptoReady (s : State) : Bool := domOn 14 s && !s.ks.reload

/-- A member's answer to a broadcast of the lead (R537): `own` says that it gave a reply of its own. The last answer of
EXPECT sends the summary reply. -/
def bcastAnswer (m : Nat) (host : Fin 16) (tag : Half) (seq : Word) (good own : Bool) (s : State) : State :=
  match s.trl.bcasts.find? (fun b => b.host = host && b.pkt.tag == tag && b.pkt.hostSeq == seq) with
  | none => s
  | some b =>
    let bit : BitVec 4 := BitVec.ofNat 4 (2 ^ m)
    let rest := s.trl.bcasts.filter (fun x => !(x.host = host && x.pkt.tag == tag && x.pkt.hostSeq == seq))
    if b.open_ &&& bit == 0 then s
    else
      let b := { b with open_ := b.open_ &&& ~~~bit, failed := if good then b.failed else b.failed ||| bit
                        mute := if good || own then b.mute else b.mute ||| bit }
      if b.open_ == 0 then
        let detail := b.failed.toNat + 16 * b.mute.toNat
        let r := replyPacket b.pkt (if b.failed == 0 then 0 else 2) (BitVec.ofNat 16 (if b.failed == 0 then 0 else detail)) [] 0 none
        pushOut host ⟨0, packetBytes { r with member := 15 }, b.pcp, now s, .none⟩
          { s with trl := { s.trl with bcasts := rest } }
      else { s with trl := { s.trl with bcasts := rest ++ [b] } }

/-- Answer a request (R47, R48): nothing without REPLY_WANTED unless forced; with AUTH the reply waits for D14. -/
def sendReply (q : QPkt) (code detail : Half) (data : List Byte) (time : Option (BitVec 64)) (mark : ReplyMark)
    (s : State) : State :=
  if q.pkt.replyWanted && takesReply q.pkt.host then
    let r := replyPacket q.pkt code detail data s.boot.member time
    if q.authOk && q.pkt.auth then
      let slot : Fin 64 := Fin.ofNat 64 q.pkt.keySlot.toNat
      if cryptoReady s then buildAuthReply r slot q.src q.pcp mark s
      else wakeInternal 14 { s with cmd := { s.cmd with replyWait := s.cmd.replyWait ++ [⟨r.host, r, slot, q.pcp, q.src, mark⟩] } }
    else pushReply q.src r q.pcp mark s
  else s

end Sys2Proof.Machine
end

