-- ==== Sys2Proof/Machine/Units.lean ====
section
/-! DEFINITION. Access to the governed units: cells, bridges with their legs, valves with their headers, and regions; the sticky
bits of their status words with their events (R195, R232, R261, R289, R313). -/

namespace Sys2Proof.Machine

/-! ### Updates -/

def modOut (n : Fin 96) (f : OutSt → OutSt) (s : State) : State :=
  { s with outs := s.outs.set n (f s.outs[n]) }
def modBr (k : Fin 8) (f : BrSt → BrSt) (s : State) : State := { s with brs := s.brs.set k (f s.brs[k]) }
def modLeg (n : Fin 16) (f : LegSt → LegSt) (s : State) : State := { s with legs := s.legs.set n (f s.legs[n]) }
def modVl (n : Fin 16) (f : VlSt → VlSt) (s : State) : State := { s with vls := s.vls.set n (f s.vls[n]) }
def modVh (g : Fin 4) (f : VhSt → VhSt) (s : State) : State := { s with vhs := s.vhs.set g (f s.vhs[g]) }
def modReg (r : Fin 7) (f : RegSt → RegSt) (s : State) : State := { s with regs := s.regs.set r (f s.regs[r]) }
/-- The sequencer of a block's ADC (R187). -/
def modSeq (b : Fin 25) (f : AdcSeq → AdcSeq) (s : State) : State := { s with seqs := s.seqs.set b (f s.seqs[b]) }

/-! ### Names -/

def legA (k : Fin 8) : Fin 16 := Fin.ofNat 16 (2 * k.val)
def legB (k : Fin 8) : Fin 16 := Fin.ofNat 16 (2 * k.val + 1)
def legBridge (n : Fin 16) : Fin 8 := Fin.ofNat 8 (n.val / 2)
def vlGroup (n : Fin 16) : Fin 4 := Fin.ofNat 4 (n.val / 4)

/-- The cell that commands, words and records of a cell go to: the primary of its gang (R186). -/
def primary (n : Fin 96) (s : State) : Fin 96 :=
  match s.outs[n].partner with
  | some m => if m.val < n.val then m else n
  | none => n

def isSecondary (n : Fin 96) (s : State) : Bool := primary n s ≠ n

/-- Update a cell and the other cell of its gang (R186). -/
def modPair (n : Fin 96) (f : OutSt → OutSt) (s : State) : State :=
  match s.outs[n].partner with
  | some m => modOut m f (modOut n f s)
  | none => modOut n f s

/-! ### Sticky bits -/

/-- Sticky bits of word 0200h; event nn on a new one (R195). -/
def stickOut (n : Fin 96) (m : BitVec 7) (s : State) : State :=
  let n := primary n s
  raiseIf (fresh s.outs[n].sticky2 m) n.val (modOut n (fun c => { c with sticky2 := c.sticky2 ||| m }) s)

/-- Sticky bits of word 0300h; event nn on a new one (R232). -/
def stickProt (n : Fin 96) (m : BitVec 16) (s : State) : State :=
  let n := primary n s
  raiseIf (fresh s.outs[n].sticky3 m) n.val (modOut n (fun c => { c with sticky3 := c.sticky3 ||| m }) s)

/-- Sticky bits of word 0500h; event 96 + 2k on a new one (R289). -/
def stickBr (k : Fin 8) (m : BitVec 13) (s : State) : State :=
  raiseIf (fresh s.brs[k].sticky m) (96 + 2 * k.val) (modBr k (fun b => { b with sticky := b.sticky ||| m }) s)

/-- Sticky bits of word 0505h; event 96 + n on a new one (R289). -/
def stickLeg (n : Fin 16) (m : BitVec 3) (s : State) : State :=
  raiseIf (fresh s.legs[n].sticky m) (96 + n.val) (modLeg n (fun b => { b with sticky := b.sticky ||| m }) s)

/-- Sticky bits of word 0600h; event 116 + nn on a new one (R313). -/
def stickVl (n : Fin 16) (m : BitVec 10) (s : State) : State :=
  raiseIf (fresh s.vls[n].sticky m) (116 + n.val) (modVl n (fun v => { v with sticky := v.sticky ||| m }) s)

/-- Sticky bits of word 0601h; event 112 + n on a new one (R313). -/
def stickVh (g : Fin 4) (m : BitVec 6) (s : State) : State :=
  raiseIf (fresh s.vhs[g].sticky m) (112 + g.val) (modVh g (fun v => { v with sticky := v.sticky ||| m }) s)

/-- A command of these units completed LATE: LATE_SEEN of their words (Tables 5-11, 8-11, 9-8). -/
def lateSeen (us : List UnitRef) (s : State) : State :=
  us.foldl (fun s u => match u with
    | .out n => stickOut n 0b0000100 s
    | .leg n => stickBr (legBridge n) 0x001 s
    | .vl n => stickVl n 0x001 s
    | _ => s) s

end Sys2Proof.Machine
end

