-- ==== Sys2Proof/Machine/Queue.lean ====
section
/-! DEFINITION. The unit queues (R70 to R73), the execution of a packet part by part (step 12 of Table 2-7), and its
completion with a reply (R47, R71, R74, R78, R116, R348). -/

namespace Sys2Proof.Machine

/-- Status, detail and data of a reply. -/
structure Ans where
  code   : Half
  detail : Half
  data   : List Byte
  deriving DecidableEq, Repr

def Ans.ok (data : List Byte := []) : Ans := ⟨0, 0, data⟩
def Ans.err (code : Half) (detail : Half := 0) : Ans := ⟨code, detail, []⟩

/-- Status codes of Table 2-3. -/
def stDeferred : Half := 0x0001
def stPartial : Half := 0x0002
def stNotReady : Half := 0x0010
def stDomainOff : Half := 0x0011
def stDomainRetained : Half := 0x0012
def stBusy : Half := 0x0013
def stBadOpcode : Half := 0x0020
def stBadLength : Half := 0x0021
def stBadParam : Half := 0x0022
def stBadHeader : Half := 0x0023
def stAuthFail : Half := 0x0030
def stReplay : Half := 0x0031
def stOrphaned : Half := 0x0032
def stRevoked : Half := 0x0033
def stInternal : Half := 0x003F
def stLate : Half := 0x0040
def stConflict : Half := 0x0041
def stLatched : Half := 0x0042
def stMemberTimeout : Half := 0x0050
def stContained : Half := 0x0060
def stChainBroken : Half := 0x0070
def stTimeStepped : Half := 0x0071
def stHostUnknown : Half := 0x0072

/-- How an opcode acts: on each addressed unit by itself, or once on all units that execute. A whole opcode that
answers none completes with another row. -/
inductive Act where
  | perUnit (f : QPkt → UnitRef → State → UnitRes × State) (combine : QPkt → List UnitRes → State → Ans)
  | whole (f : QPkt → List UnitRef → State → Option Ans × State)

/-- What the command engine knows of an opcode: the payload lengths it takes, whether its reserved fields are 0 (R13),
whether its fields are in the range the opcode has for all units, the units it addresses (none selected is BAD_PARAM,
R71), the domains a chip-queue packet is checked against, and its act. -/
structure OpSpec where
  lenOk : List Byte → Bool
  resOk : List Byte → Bool := fun _ => true
  parOk : List Byte → Bool := fun _ => true
  units : Packet → State → List UnitRef
  doms  : Packet → List (Fin 16)
  act   : Act
  /-- at least one of these domains must be on (Table 12-4) -/
  anyOf : Packet → List (Fin 16) := fun _ => []
  /-- domains the opcode wakes for its own work and waits for (Table 4-8) -/
  inner : Packet → State → List (Fin 16) := fun _ _ => []

/-- A chip-queue opcode of a fixed payload length. -/
def chipOp (len : Nat) (doms : List (Fin 16)) (resOk : List Byte → Bool)
    (f : QPkt → State → Option Ans × State) : OpSpec :=
  { lenOk := fun b => b.length = len, resOk := resOk, units := fun _ _ => [.chip], doms := fun _ => doms,
    act := .whole fun q _ s => f q s }

/-- The bytes at the given offsets are 0 (R13). -/
def zeroAt (l : List Nat) (b : List Byte) : Bool := l.all fun i => byteAt b i == 0
/-- Byte `i` has only bits of `m`. -/
def onlyBits (i : Nat) (m : Byte) (b : List Byte) : Bool := byteAt b i &&& ~~~m == 0

/-- Answer and done. -/
def done (a : Ans) (s : State) : Option Ans × State := (some a, s)
def refuse (code : Half) (s : State) (detail : Half := 0) : Option Ans × State := (some (.err code detail), s)

/-! ### Completion -/

def modCmd (f : CmdSt → CmdSt) (s : State) : State := { s with cmd := f s.cmd }

/-- Scheduler places in use: a scheduled chain's later packets wait there too (R74). -/
def schedLoad (s : State) : Nat :=
  s.cmd.sched.length + ((s.cmd.chains.filter (·.sched)).map fun r => r.waiting.length).sum

/-- HIGH_WATER follows the occupancy (Table 2-17). -/
def noteLoad (s : State) : State := modCmd (fun c => { c with highWater := max c.highWater (schedLoad s) }) s

def dropQ (seq : Nat) (s : State) : State :=
  modCmd (fun c => { c with waiting := c.waiting.filter (·.seq ≠ seq) }) s

def putQ (q : QPkt) (s : State) : State :=
  modCmd (fun c => { c with waiting := c.waiting.map fun x => if x.seq = q.seq then q else x }) s

/-- OK or DEFERRED: what lets a chain, a plan and a reflex go on. -/
def goodCode (c : Half) : Bool := c == 0 || c == stDeferred

/-- A plan packet that completed (R116): its index is the one before the next. -/
def planDone (p : Packet) (code : Half) (s : State) : State :=
  if goodCode code then s
  else
    let idx := (s.plan.next.elim 0 (·.2)) - 1
    note 0x1203 warning 0 0 idx p.opcode.toNat code.toNat (stickPlan 0b0010 s)

/-- A packet of a chain that is broken before it: CHAIN_BROKEN (R74). -/
def answerBroken (q : QPkt) (s : State) : State :=
  let s := if q.pkt.host = 12 then planDone q.pkt stChainBroken s else s
  sendReply q stChainBroken 0 [] none .none s

/-- A packet of chain `id` has completed: the next may be admitted, or the chain breaks and every later packet of it is
answered with CHAIN_BROKEN (R74). -/
def chainDone (id : Nat) (code : Half) (s : State) : State :=
  match s.cmd.chains.find? (·.id = id) with
  | none => s
  | some r =>
    let open_ := (List.range 14).any fun h =>
      let c := s.hosts[Fin.ofNat 14 h].chain
      c.open_ && decide (c.id = id)
    if goodCode code then
      if !open_ && r.waiting.isEmpty then modCmd (fun c => { c with chains := c.chains.filter (·.id ≠ id) }) s
      else modCmd (fun c => { c with chains := c.chains.map fun x => if x.id = id then { x with prev := some code } else x }) s
    else
      let s := modCmd (fun c => { c with chains := c.chains.filter (·.id ≠ id) }) s
      let s := { s with hosts := s.hosts.map fun x =>
        if x.chain.open_ && decide (x.chain.id = id) then { x with chain := { x.chain with open_ := false, broken := true } } else x }
      let s := r.waiting.foldl (fun s q => answerBroken q s) s
      if open_ || !r.waiting.isEmpty then stickCmd 0x080 s else s

/-- A reflex packet that completed (R348). -/
def reflexDone (p : Packet) (code : Half) (s : State) : State :=
  let i : Fin 128 := Fin.ofNat 128 p.tag.toNat
  let s := modRfx i (fun x => { x with lastStatus := code }) s
  if goodCode code then s
  else note 0x0902 warning 16 i.val p.opcode.toNat code.toNat 0 (stickRfx i 0b0100 s)

/-- A packet completes: LATE (R77, R79), chain, plan and reflex bookkeeping, and its reply (R48, R78). -/
def complete (q : QPkt) (a : Ans) (s : State) (mark : ReplyMark := .none) : State :=
  let s := dropQ q.seq s
  let code := if q.late && a.code == 0 then stLate else a.code
  let s := if code == stLate then stickCmd 0x100 s else s
  let s := match q.chain with | some id => chainDone id code s | none => s
  let s := if q.pkt.host = 12 then planDone q.pkt code s else s
  let s := if q.pkt.host = 11 then reflexDone q.pkt code s else s
  let time := if q.ranLate then none else q.pkt.time
  let s := sendReply q code a.detail a.data time mark (touch 0 s)
  if q.pkt.member == 15 && q.pkt.replyWanted then
    bcastAnswer s.boot.member.toNat q.pkt.host q.pkt.tag q.pkt.hostSeq (goodCode code) true s
  else s

/-! ### Domain check of step 12 (R37, R73, R140) -/

inductive DomCheck where
  | go
  | refuse (code : Half)
  | stall
  deriving DecidableEq, Repr

def domCheck (d : Fin 16) (s : State) : DomCheck :=
  match (domState d s).answer with
  | .on => .go
  | .off => if s.dom.dom[d].woa then .stall else .refuse stDomainOff
  | .ret => if s.dom.dom[d].woa then .stall else .refuse stDomainRetained

/-- The check over several domains: a refusal first, then a stall. -/
def domChecks : List (Fin 16) → State → DomCheck
  | [], _ => .go
  | d :: ds, s =>
    match domCheck d s, domChecks ds s with
    | .refuse c, _ => .refuse c
    | _, .refuse c => .refuse c
    | .stall, _ => .stall
    | .go, r => r

/-- Turn on every domain of the list that is not on (R140). -/
def wakeAll (ds : List (Fin 16)) (s : State) : State :=
  ds.foldl (fun s d => if domCheck d s = .stall then wakeOnAccess d s else s) s

/-- The domains that one unit of a packet is checked against. -/
def unitDoms (spec : OpSpec) (q : QPkt) (u : UnitRef) (s : State) : List (Fin 16) :=
  match u with
  | .chip => spec.doms q.pkt ++
      (if (spec.anyOf q.pkt).any (fun d => domCheck d s = .go) then [] else (spec.anyOf q.pkt).take 1)
  | _ => (unitDomain u).toList

/-- A domain woken for internal work is usable: on, and for D14 its slots reloaded (R461). -/
def innerReady (d : Fin 16) (s : State) : Bool := if d = 14 then cryptoReady s else domOn d s

/-- Wake the domains a packet's work needs and that are not usable yet (R142). -/
def wakeInner (ds : List (Fin 16)) (s : State) : State :=
  ds.foldl (fun s d => if innerReady d s then s else wakeInternal d s) s

/-! ### Execution of one part -/

/-- Outcome byte of a domain refusal (Table 5-7). -/
def domOutcome (code : Half) : Nat := if code == stDomainOff then 0x11 else 0x12

/-- The answer of a whole opcode when some of its units were refused by their domain (R71). -/
def partAns (refused total : Nat) (anyOff : Bool) (a : Ans) : Ans :=
  if refused = 0 then a
  else if refused = total then .err (if anyOff then stDomainOff else stDomainRetained)
  else ⟨stPartial, BitVec.ofNat 16 refused, a.data⟩

/-- A packet that completes LATE leaves LATE_SEEN in the words of its units (R79). -/
def lateUnits (q : QPkt) (a : Ans) (s : State) : State := if q.late && a.code == 0 then lateSeen q.units s else s

/-- Every unit of the packet has had its turn: combine, or run the whole opcode on the units that executed. -/
def finishParts (spec : OpSpec) (q : QPkt) (s : State) : State :=
  match spec.act with
  | .perUnit _ comb =>
    let a := comb q q.results s
    complete q a (lateUnits q a s)
  | .whole f =>
    let bad := q.results.filter (·.code != 0)
    let okUnits := (q.results.filter (·.code == 0)).map (·.unit)
    if bad.length = q.results.length && !bad.isEmpty then
      complete q (partAns bad.length bad.length (bad.any (·.code == stDomainOff)) (.ok)) s
    else
      let r := f q okUnits s
      match r.1 with
      | some a =>
        let mark : ReplyMark := if q.pkt.opcode == 0x0004 && r.2.cmd.restart.isSome && s.cmd.restart.isNone then .restart
          else if q.pkt.opcode == 0x1000 && r.2.flt.inject != s.flt.inject then .inject else .none
        let a := partAns bad.length q.results.length (bad.any (·.code == stDomainOff)) a
        complete q a (lateUnits q a r.2) mark
      | none => putQ { q with busy := true, todo := q.units } r.2

/-- The part of a packet that addresses unit `u` reaches execution. -/
def runPart (spec : OpSpec) (q : QPkt) (u : UnitRef) (s : State) : State :=
  let late := q.late || (match q.effect with | some t => decide (t + 2000 < zone s) | none => false)
  let q := { q with late := late }
  let ds := unitDoms spec q u s
  match domChecks ds s with
  | .stall => putQ q (wakeAll ds s)
  | .refuse c =>
    let q := { q with todo := q.todo.filter (· ≠ u), results := q.results ++ [⟨u, c, 0, domOutcome c⟩] }
    if q.todo.isEmpty then finishParts spec q (putQ q s) else putQ q s
  | .go =>
    let s := ds.foldl (fun s d => touch d s) s
    let need := spec.inner q.pkt s
    if !spec.parOk q.pkt.payload then complete q (.err stBadParam) s
    else if !need.all (innerReady · s) then putQ { q with begun := true } (wakeInner need s)
    else
    let s := need.foldl (fun s d => touch d s) s
    let r : UnitRes × State := match spec.act with
      | .perUnit f _ => f q u s
      | .whole _ => (⟨u, 0, 0, 0⟩, s)
    let q := { q with todo := q.todo.filter (· ≠ u), results := q.results ++ [r.1] }
    if q.todo.isEmpty then finishParts spec q (putQ q r.2) else putQ q r.2

/-! ### Queue order (R70, R74 to R76) -/

/-- `a` stands before `b`: staged packets first, by execution time, then PRIORITY, then arrival. -/
def qBefore (a b : QPkt) : Bool :=
  if a.staged != b.staged then a.staged
  else if a.staged && a.effect.getD 0 != b.effect.getD 0 then decide (a.effect.getD 0 < b.effect.getD 0)
  else if a.pkt.prio != b.pkt.prio then decide (b.pkt.prio.toNat < a.pkt.prio.toNat)
  else decide (a.seq < b.seq)

def firstQ : List QPkt → Option QPkt
  | [] => none
  | q :: r => match firstQ r with
    | none => some q
    | some b => if qBefore b q then some b else some q

/-- The packets in the queue of `u`. -/
def inQueue (u : UnitRef) (s : State) : List QPkt := s.cmd.waiting.filter (u ∈ ·.todo)

/-- The head of the queue of `u`; none while a packet of it is executing. A packet that waits there for a domain to wake keeps
its place by the same order: one of higher PRIORITY goes first (R70, R73, log entry 42). -/
def queueHead (u : UnitRef) (s : State) : Option QPkt :=
  if (inQueue u s).any (·.busy) then none else firstQ (inQueue u s)

/-- The packet is in execution, which D00 leaving on never stops part-way (R132). -/
def QPkt.executing (q : QPkt) : Bool := q.busy || q.begun || (!q.results.isEmpty && !q.todo.isEmpty)

/-- Waiting packets that count towards the 32 of a queue: the one it is executing and staged ones do not (R70). -/
def queueLoad (u : UnitRef) (s : State) : Nat := ((inQueue u s).filter fun q => !q.staged && !q.busy).length

/-- A packet whose effect lies at a later instant holds its place (R75). -/
def effectDue (q : QPkt) (s : State) : Bool :=
  match q.effect with
  | some t => decide (t ≤ zone s)
  | none => true

/-- A packet put at the heads of its queues, its parts run in order: a packet row of the table at its execution. -/
def runNow (spec : OpSpec) (q : QPkt) (s : State) : State :=
  let s := modCmd (fun c => { c with waiting := q :: c.waiting, arrivals := c.arrivals + 1 }) s
  q.units.foldl (fun s u => match s.cmd.waiting.find? (·.seq = q.seq) with
    | some q' => if u ∈ q'.todo && !q'.busy then runPart spec q' u s else s
    | none => s) s

/-- A packet as the queues hold it. -/
def mkQ (p : Packet) (units : List UnitRef) (s : State) : QPkt :=
  { pkt := p, seq := s.cmd.arrivals, todo := units, units := units, results := [], staged := false, effect := none,
    late := false, authOk := p.auth, ranLate := false, busy := false, begun := false, chain := none, pcp := 0, src := none }

/-- The owning chapter requires AUTH of the opcode from this host (R355, R372, R436, R439, R519): the planting plan is
exempt for families 09h and 0Bh, hosts 11 and 12 for family 10h, where they complete with BAD_PARAM. -/
def alwaysAuth (op : Half) (host : Fin 16) : Bool :=
  if op == 0x0900 || op == 0x0901 || op == 0x0B02 || op == 0x0B03 then host != 12
  else if op == 0x1000 || op == 0x1001 then host != 11 && host != 12
  else op == 0x0D03 || op == 0x0D05 || op == 0x0D06 || op == 0x0D07

/-- A packet row of the table: packet `p`, with that row's opcode, reaches execution (step 12 of Table 2-7). While a packet
of one of its queues is executing, it waits there instead (R70). -/
def runRow (spec : OpSpec) (op : Half) (p : Packet) (s : State) : State :=
  if engineRuns s then
    let p := { p with opcode := op }
    let units := spec.units p s
    let q := { mkQ p units s with staged := true }
    if units.isEmpty || !spec.resOk p.payload then complete q (.err stBadParam) s
    else if alwaysAuth op p.host && !p.auth then complete q (.err stAuthFail 3) (stickCmd 0x004 s)
    else if !spec.lenOk p.payload then complete q (.err stBadLength) s
    else if units.any (fun u => (inQueue u s).any (·.busy)) then
      modCmd (fun c => { c with waiting := c.waiting ++ [{ q with staged := false }], arrivals := c.arrivals + 1 }) s
    else runNow spec q s
  else s

end Sys2Proof.Machine
end

