-- ==== Sys2Proof/Machine/Wake.lean ====
section
/-! DEFINITION. Wake detectors firing (R133, R145, R149, R150). -/

namespace Sys2Proof.Machine

/-- The turn-up order of R135. -/
def turnUpOrder : List (Fin 16) := [15, 14, 0, 1, 2, 3, 4, 5, 6, 7, 8, 9, 10, 11, 12, 13]

/-- The AO clock's time in ns (R28). -/
def aoTime (s : State) : Nat := s.clk.ao

/-- The number of the present AO clock cycle (R28). -/
def aoCycle (s : State) : Nat := (s.clk.ao * 64 + s.clk.aoFrac) / 1953125

/-- A domain is on its way down (R149). -/
def goingDown (d : Fin 16) (s : State) : Bool := domState d s == .toRet || domState d s == .toOff

/-- Detectors fired in this AO clock cycle have the wake in the record already (R150). -/
def sameWake (s : State) : Bool := s.dom.lastWake.source != 0 && s.dom.lastWake.cycle = aoCycle s

/-- The last-wake record with a wake entered (R150); another detector of the same AO cycle is counted, the lowest named. -/
def enterWake (code idx : Nat) (mask : Half) (down : Bool) (s : State) : State :=
  let l := s.dom.lastWake
  let l' : LastWake :=
    if sameWake s then
      let lower := decide (code * 256 + idx < l.source.toNat * 256 + l.index.toNat)
      let fired := if l.fired.contains (code, idx) then l.fired else l.fired ++ [(code, idx)]
      { l with source := if lower then BitVec.ofNat 8 code else l.source
               index := if lower then BitVec.ofNat 8 idx else l.index
               domains := l.domains ||| mask, duringDown := l.duringDown || down
               concurrent := BitVec.ofNat 8 (min 255 (fired.length - 1)), fired := fired }
    else
      { source := BitVec.ofNat 8 code, index := BitVec.ofNat 8 idx
        count := BitVec.ofNat 16 (min 0xFFFF (l.count.toNat + 1)), life := s.clk.life, domains := mask
        duringDown := down, concurrent := 0, cycle := aoCycle s, fired := [(code, idx)] }
  { s with dom := { s.dom with lastWake := l' } }

/-- The parameters of record 0103h (Table 4-17). -/
def wakeParams (l : LastWake) : Nat × Nat × Nat :=
  (l.source.toNat * 256 + l.index.toNat, l.domains.toNat, (if l.duringDown then 256 else 0) + l.concurrent.toNat)

/-- Record 0103h of the last wake follows the last-wake record while that is completed within its AO clock cycle, so that the two
agree (R150, R162). -/
def amendWake (s : State) : State :=
  let l := s.dom.lastWake
  let p := wakeParams l
  let fix (r : Rec) : Rec :=
    if r.code == 0x0103 && r.life == l.life then
      { r with p1 := BitVec.ofNat 32 p.1, p2 := BitVec.ofNat 32 p.2.1, p3 := BitVec.ofNat 32 p.2.2 } else r
  let a := s.alm
  { s with alm := { a with
      batch := a.batch.map fix, intake := a.intake.map fun c => { c with rec_ := fix c.rec_ }
      staging := a.staging.map fun x => match x with | .record r => .record (fix r) | y => y } }

/-- Turn on every listed domain that is not on: all of a protection wake and D00 of any wake as internal wakes, which for a
protection wake set PROTECTION_WAKE only (R142, R145, Table 4-15). -/
def turnOnAll (code : Nat) (ds : List (Fin 16)) (s : State) : State :=
  ds.foldl (fun s d =>
    if code = 0x0B then wakeInternal d s 0b010000
    else if d = 0 then wakeInternal 0 s
    else if (domState d s).resting.isSome then startUp d s else s) s

/-- PARK_TIME returns to 0 and a stopped poll resumes, with record 0D06h (R425). -/
def pollResume (code host : Nat) (s : State) : State :=
  let days := min 63 (s.acc.park / (86400 * Config.sec))
  let a := s.acc
  let s' := { s with acc := { a with park := 0, stopped := false, polls := if a.stopped then 0 else a.polls } }
  if a.stopped then note 0x0D06 info 7 0 code days host s' else s'

/-- A detector fires with its wake set; bit 0 counts as 1 (R145, R146). Without supply there is none (R31). Before phase 3, and while RESET_N is low, it is
only entered in the last-wake record (R100); in fatal hold it is recorded and D00 stays down (Table 17-4). -/
def fireDetector (code idx : Nat) (set : BitVec 16) (s : State) : State :=
  let set := set ||| 1
  if s.boot.phase < 2 then s
  else if s.boot.phase < 3 || s.boot.resetLow.isSome then enterWake code idx 0 false s
  else
    let ds := turnUpOrder.filter fun d => set.getLsbD d.val && (domState d s).resting.isSome && upAllowed d s
    let mask : Half := ds.foldl (fun m d => m ||| BitVec.ofNat 16 (2 ^ d.val)) 0
    let down := ds.any (goingDown · s)
    let wasUp := (domState 0 s).resting.isNone
    let same := sameWake s && domState 0 s != .on
    let s1 := turnOnAll code ds s
    if wasUp && !same then s1
    else
      let s1 := if wasUp || code = 6 || code = 9 || code = 10 || code = 11 || s.boot.condition = 3 then s1
        else pollResume code 13 s1
      let s2 := enterWake code idx mask down s1
      if s.boot.condition = 3 then s2
      else if same then amendWake (if down then stickReg 0b0100 s2 else s2)
      else
        let p := wakeParams s2.dom.lastWake
        let s3 := note 0x0103 info 0 0 p.1 p.2.1 p.2.2 s2
        raise 235 { s3 with dom := { s3.dom with sticky := s3.dom.sticky ||| (if down then 0b0101 else 0b0001) } }

/-- Where a detector's entry stands: detectors 01h to 09h with the indices of Table 4-9. -/
def wakeSlot (code idx : Nat) : Fin 96 :=
  Fin.ofNat 96 (([0, 0, 6, 12, 20, 22, 86, 92, 93, 95].getD code 0) + idx)

def wakeEnabled (code idx : Nat) (s : State) : Bool := (s.dom.wake[wakeSlot code idx]).enable

/-- A configurable detector's condition is met (R143, R145). -/
def detect (code idx : Nat) (s : State) : State :=
  let w := s.dom.wake[wakeSlot code idx]
  if w.enable then fireDetector code idx w.set s else s

/-- The cell index that record 0106h names: an OUT cell's own index (R175, R197; log entry 18), for other units the position of
Table 1-5. -/
def cellPosition : UnitRef → Nat
  | .out n => n.val
  | .leg n | .vl n => n.val % 8
  | .vh g => 8 + g.val % 2
  | .fq n => 16 + n.val
  | .fi n => n.val
  | .sw n => n.val % 32
  | _ => 0

/-- A protection wake of region `r` (R133, R145): detector 0Bh turns on D00 and the region's domain, in that order; record
0106h. -/
def protectionWake (r : Nat) (d : Fin 16) (cell kind : Nat) (s : State) : State :=
  if domState d s == .ret || domState d s == .toRet then
    fireDetector 0x0B r (1 ||| BitVec.ofNat 16 (2 ^ d.val)) (note 0x0106 warning 12 d.val r cell kind s)
  else s

end Sys2Proof.Machine
end

