-- ==== Sys2Proof/Machine/Out.lean ====
section
/-! DEFINITION. The high-side cells (chapter 05): the state machine of Table 5-3, tokens, PWM, gangs, the output
state mirror, and the commands of family 02h. -/

namespace Sys2Proof.Machine

/-! ### Position, class and timing of a cell (R20, R21, Tables 5-1, 5-4, 7-1) -/

def outBlock (n : Fin 96) : Nat := n.val / 8

/-- tRISE = tFALL in ns (Table 5-4). -/
def tRise (cls : Nat) (slew : BitVec 2) : Nat :=
  (([[8, 16, 32, 64], [4, 8, 16, 32], [2, 5, 10, 20]].getD cls []).getD slew.toNat 0) * Config.us

/-- tD50 in ns (Table 5-4). -/
def tD50 (cls : Nat) (slew : BitVec 2) : Nat :=
  ([[5500, 9500, 17500, 33500], [3500, 5500, 9500, 17500], [2500, 4000, 6500, 11500]].getD cls []).getD slew.toNat 0

/-- tPMN in ns (R181). -/
def tPMN (cls : Nat) (slew : BitVec 2) : Nat := 2 * tRise cls slew + 2 * Config.us

/-- tPLD (R182). -/
def tPLD : Nat := 50 * Config.us

def slewOf (c : OutSt) : BitVec 2 := BitVec.ofNat 2 (fld c.cfg 30 2)
def edgeRef (c : OutSt) : Bool := c.cfg.getLsbD 29
def stagger (c : OutSt) : Bool := c.cfg.getLsbD 28
def rangeOf (c : OutSt) : Nat := fld c.cfg 26 2

/-- Token weight of a class (Table 7-1). -/
def classWeight (cls : Nat) : Nat := if cls = 0 then 4 else if cls = 1 then 2 else 1

def tokenBudget (r : Fin 7) (s : State) : Nat := fld s.regs[r].cfg2 4 4

/-! ### Records -/

/-- A record of an OUT cell, under the primary's number (R197, R234). -/
def outNote (code : Half) (sev : BitVec 2) (n : Fin 96) (p1 p2 p3 : Nat) (s : State) : State :=
  note code sev 1 (primary n s).val p1 p2 p3 s

/-! ### Demand and inhibit (R165) -/

/-- A gate command that an edge reference has started early goes before the commanded mode (R170). -/
def demand (c : OutSt) : Bool :=
  match c.early with
  | some b => b
  | none => c.mode == 1 || (2 ≤ c.mode.toNat && c.pwm.onPhase)

def prunedAt (i : Fin 120) (s : State) : Bool := s.prune[i].pruned
def outIdx (n : Fin 96) : Fin 120 := ⟨n.val, by omega⟩

def inhibited (n : Fin 96) (s : State) : Bool :=
  let c := s.outs[n]
  c.prot != .none || prunedAt (outIdx n) s || c.uvOff

/-- The gate of the cell is on (Table 5-2). -/
def gateOn (c : OutSt) : Bool := c.st.gate
/-- A unit conducts (R132, R133): gate on, falling or demagnetising. -/
def conducting (c : OutSt) : Bool := gateOn c || c.st == .falling || c.st == .demag

/-! ### Turning on and off (R166 to R168, R190, R204, R239) -/

def envMode (c : OutSt) : BitVec 2 := BitVec.ofNat 2 (fld c.cfg1 18 2)

/-- The envelope a turn-on starts with (R204): none for mode 00b, the learned entry for 10b when there is one, else
the fixed values. -/
def newEnv (c : OutSt) : Option Env :=
  if envMode c == 0 then none
  else some { mode := if envMode c == 2 && c.learned.isNone then 1 else envMode c,
              peak := fld c.cfg1 0 8, hold := fld c.cfg2 24 8, half := fld c.cfg2 16 8,
              codes := if envMode c == 2 then c.learned.getD [] else [] }

/-- A turn-on that may count towards learning (R208). -/
def learnStart (c : OutSt) (vs now : Nat) : Bool :=
  envMode c == 3 && c.offSince + 2 * Config.sec ≤ now
    && ((12000 ≤ vs && vs ≤ 15000) || (24000 ≤ vs && vs ≤ 30000))

/-- Live diagnosis bits [25:22] of word 0300h as a 4-bit mask. -/
def diagBits (c : OutSt) : Nat :=
  (if c.openOn then 8 else 0) + (if c.openOff then 4 else 0) + (if c.shortSup then 2 else 0) + (if c.leakSup then 1 else 0)

/-- Record 030Dh for live diagnosis bits that cleared (R227, Table 6-21). -/
def diagCleared (n : Fin 96) (before : Nat) (s : State) : State :=
  let gone := before &&& (15 - diagBits s.outs[n])
  if gone = 0 then s else outNote 0x030D info n gone 0 0 s

/-- The clean on-period gathers while the commanded mode is not off, protection is NONE and the domain is on (R217). -/
def cleanSync (n : Fin 96) (s : State) : State :=
  let run := s.outs[n].mode != 0 && s.outs[n].prot == .none && domOn (outDomain n) s
  modOut n (fun c => { c with cleanNs := if run then c.cleanNs + (now s - c.cleanAt) else c.cleanNs, cleanAt := now s }) s

/-- The counts of readings that a change of state ends; fast PWM keeps those of its on-phases, unless their bit has just been
set and clears (R225, R227, log entry 16). -/
def diagKeep (fast : Bool) (v : Vector (Option Nat) 4) : Vector (Option Nat) 4 :=
  #v[if fast then v[0] else none, none, none, none]

/-- Enter RISING; `env` says that the turn-on held a token and gets its envelope, for a gang the primary's (R204, R218). -/
def rise (n : Fin 96) (env : Bool) (s : State) : State :=
  let vs := s.regs[outRegion n].vs
  let p := s.outs[n]
  let e := if env then newEnv p else none
  let fast := p.mode == 2
  let s' := modPair n (fun c =>
    { c with st := .rising, stateAt := now s, riseAt := now s, slewAct := slewOf c, env := e, fastTok := true
             limiting := false, learnRun := false, openOff := false, shortSup := false, leakSup := false
             diagIn := diagKeep fast c.diagIn, diagOut := diagKeep fast c.diagOut }) s
  diagCleared n (diagBits p) (modOut n (fun c => { c with learnRun := env && learnStart c vs (now s) }) s')

/-- Enter FALLING: the token returns, the envelope ends (R206, R239), OPEN_ON clears (R227). -/
def fall (n : Fin 96) (s : State) : State :=
  let fast := s.outs[n].mode == 2
  diagCleared n (diagBits s.outs[n]) <| modPair n (fun c =>
    { c with st := .falling, stateAt := now s, slewAct := slewOf c, tok := .none, env := none, limiting := false
             learnRun := false, openOn := false
             diagIn := diagKeep (fast && !c.openOn) c.diagIn, diagOut := diagKeep (fast && !c.openOn) c.diagOut }) s

/-- Leave OFF for WAIT_TOKEN: the live bits that are evaluated in OFF clear (R166, R227). -/
def leaveOff (n : Fin 96) (s : State) : State :=
  let fast := s.outs[n].mode == 2
  diagCleared n (diagBits s.outs[n]) <| modPair n (fun c =>
    { c with st := .waitToken, stateAt := now s, openOff := false, shortSup := false, leakSup := false
             diagIn := diagKeep fast c.diagIn, diagOut := diagKeep fast c.diagOut }) s

/-- Withdraw a request or return a token (R166, R239). -/
def dropTok (n : Fin 96) (s : State) : State :=
  modOut n (fun c => { c with tok := .none, tokDue := none, staged := false }) s

/-- The junction, of a gang either one, has reached 175 degC and not yet fallen below 150 degC: the cell cannot turn on (R215). -/
def isHot (n : Fin 96) (s : State) : Bool :=
  s.outs[n].hotHold || (match s.outs[n].partner with | some m => s.outs[m].hotHold | none => false)

/-- A new junction temperature (R215). -/
def setTj (n : Fin 96) (tj : Int) (s : State) : State :=
  modOut n (fun c => { c with tj := tj, hotHold := decide (175 ≤ tj) || (c.hotHold && decide (150 ≤ tj)) }) s

/-- The turn-on of fast PWM needs a token only for its first edge (R182). -/
def needsTok (c : OutSt) : Bool := !(c.mode == 2 && c.fastTok)

/-- A turn-on with its token: when the token of a timed edge was granted after the edge's instant, TOKEN_DELAYED and record 0206h
(R182, R184). A grant in time has taken the instant away. -/
def tokenLate (n : Fin 96) (s : State) : State :=
  let s' := modOut n (fun c => { c with tokDue := none, staged := false }) s
  match s.outs[n].tokDue with
  | some due =>
    if due < zone s then
      outNote 0x0206 info n ((zone s - due) / Config.us) (outRegion n).val 0 (stickOut n 0b0100000 s')
    else s'
  | none => s'

def Tok.isHeld : Tok → Bool
  | .held _ => true
  | _ => false

/-- Arbitration at the cell (R190) for the primary `n`, trips apart. A hot cell with demand waits without a request (R215). -/
def gateCell (n : Fin 96) (s : State) : State :=
  let c := s.outs[n]
  if inhibited n s then
    match c.st with
    | .waitToken => modPair n (fun c => { c with st := .off, stateAt := now s, offSince := c.offSince, fastTok := false })
        (dropTok n s)
    | .rising | .on => modOut n (fun c => { c with fastTok := false }) (fall n s)
    | .off => modOut n (fun c => { c with fastTok := false }) (dropTok n s)
    | _ => modOut n (fun c => { c with fastTok := false }) s
  else if demand c then
    match c.st with
    | .off | .waitToken =>
      let s' := if c.st == .waitToken then s else leaveOff n s
      if isHot n s then modOut n (fun c => { c with tok := .none }) s'
      else if !needsTok c then rise n false s'
      else
        match c.tok with
        | .held _ => tokenLate n (rise n true s')
        | .waiting _ _ => s'
        | .none => modOut n (fun c => { c with tok := .waiting (now s) false }) s'
    | .demag => rise n false (dropTok n s)
    | _ => s
  else
    match c.st with
    | .waitToken => modPair n (fun c => { c with st := .off, stateAt := now s }) (dropTok n s)
    | .rising | .on => fall n s
    | _ => s

/-- The cell, or the primary of its gang, settles after a change. -/
def settle (n : Fin 96) (s : State) : State := gateCell (primary n s) s

/-! ### PWM (R177 to R183) -/

/-- The units of a PWM kind in ns: 100 ns ticks or ms. -/
def pwmUnit (mode : BitVec 2) : Nat := if mode == 2 then 100 else 1000000

/-- PHASE with the stagger of the cell's position (R177, R178). -/
def pwmPhase (mode : BitVec 2) (stag : Bool) (n : Fin 96) (v : PwmVals) : Nat :=
  if mode == 2 && stag then (v.phase + ((n.val % 24) * v.period) / 24) % v.period else v.phase

/-- On-time in units of PERIOD (R177). -/
def pwmOn (mode : BitVec 2) (v : PwmVals) : Nat := if mode == 2 then (v.period * v.on_) / 1024 else v.on_

/-- Start of the period that holds zone time z, in ns (R177); before the first start of zone time it lies below 0. -/
def periodStart (mode : BitVec 2) (stag : Bool) (n : Fin 96) (v : PwmVals) (z : Nat) : Int :=
  let u := pwmUnit mode
  let t : Int := ((z / u : Nat) : Int)
  (t - (t - (pwmPhase mode stag n v : Int)) % (v.period : Int)) * u

/-- First period start at or after z (R180, R183). -/
def nextStart (mode : BitVec 2) (stag : Bool) (n : Fin 96) (v : PwmVals) (z : Nat) : Nat :=
  let p := periodStart mode stag n v z
  if p = z then z else (p + (v.period * pwmUnit mode : Nat)).toNat

/-- On-time in ns after clipping, and whether it was clipped (R181). -/
def pwmOnNs (mode : BitVec 2) (v : PwmVals) (pmn : Nat) : Nat × Bool :=
  let on := pwmOn mode v * pwmUnit mode
  let off := v.period * pwmUnit mode - on
  if 0 < on && on < pmn then (0, true)
  else if 0 < off && off < pmn then (on + off, true)
  else (on, false)

/-- MIN_PULSE and, when it sets, record 0204h (R181). -/
def minPulse (n : Fin 96) (onNs pmn : Nat) (s : State) : State :=
  let was := s.outs[n].sticky2.getLsbD 4
  let s := stickOut n 0b0010000 s
  if was then s else outNote 0x0204 warning n (onNs / 100) (pmn / 100) 0 s

/-- The generator starts a period at `st` under the commanded values; the on-phase holds zone time `z` or not. -/
def startPeriod (n : Fin 96) (st : Int) (z : Nat) (s : State) : State :=
  let c := s.outs[n]
  let pmn := tPMN (outClass n) (slewOf c)
  let r := pwmOnNs c.mode c.vals pmn
  let s := if r.2 then minPulse n (pwmOn c.mode c.vals * pwmUnit c.mode) pmn s else s
  modOut n (fun c => { c with pwm :=
    { act := c.vals, onPhase := decide ((z : Int) < st + r.1), onEnd := (st + r.1).toNat,
      perEnd := (st + (c.vals.period * pwmUnit c.mode : Nat)).toNat, waitFrom := none } }) s

/-- PWM begins: join the pattern at once, or wait for the next period start (R179). -/
def beginPwm (n : Fin 96) (s : State) : State :=
  let c := s.outs[n]
  let s := modOut n (fun c => { c with fastTok := false }) s
  if c.start then
    modOut n (fun c => { c with pwm := { act := c.vals, onPhase := false, onEnd := zone s, perEnd := zone s,
                                         waitFrom := some (zone s) } }) s
  else startPeriod n (periodStart c.mode (stagger c) n c.vals (zone s)) (zone s) s

/-! ### The output state mirror (R191 to R193) -/

/-- Address and record class of a unit's mirror area; a bridge is named by its first leg. -/
def mirrorArea : UnitRef → Option (Nat × Nat × Nat)
  | .out n => some (0xC0000 + 0x40 * n.val, 1, n.val)
  | .vl n => some (0xC1800 + 0x40 * n.val, 4, n.val)
  | .fq n => some (0xC1C00 + 0x40 * n.val, 6, n.val)
  | .leg n => some (0xC2000 + 0x40 * (n.val / 2), 2, n.val / 2)
  | _ => none

/-- A two-slot entry is valid: its CRC, and the two bytes that name its place (R192). -/
def slotValid (e : List Byte) (b1 b2 : Nat) (at1 : Nat) : Bool :=
  crc32 (e.take 28) == wordAt e 28 && (byteAt e at1).toNat = b1 && (byteAt e (at1 + 1)).toNat = b2

/-- `a` is newer than `b`, modulo 2^32 as a signed number (R192, R479). -/
def seqNewer (a b : Word) : Bool := (0 : Int) < (a - b).toInt

/-- Which slot of a two-slot area holds the newer valid entry, and the entry (R192). -/
def newestSlot (base b1 b2 at1 : Nat) (m : Memory) : Option (Bool × List Byte) :=
  let a := Mem.readN m base 32
  let b := Mem.readN m (base + 0x20) 32
  match slotValid a b1 b2 at1, slotValid b b1 b2 at1 with
  | false, false => none
  | true, false => some (false, a)
  | false, true => some (true, b)
  | true, true => if seqNewer (wordAt b 0) (wordAt a 0) then some (true, b) else some (false, a)

/-- The next entry of a two-slot area and where it goes: the slot that does not hold the newer one; `body` is bytes 4
to 27 (R192). -/
def slotEntry (base b1 b2 at1 : Nat) (body : List Byte) (m : Memory) : Nat × List Byte :=
  let r := newestSlot base b1 b2 at1 m
  let seq : Nat := match r with | some (_, e) => (wordAt e 0 + 1).toNat | none => 1
  let e := be 4 seq ++ body
  (match r with | some (false, _) => base + 0x20 | _ => base, e ++ be 4 (crc32 e).toNat)

/-- A mirror entry goes to the arbiter, in the class of the record flushes (R192, R504). -/
def writeSlot (base b1 b2 at1 : Nat) (body : List Byte) (s : State) : State :=
  let e := slotEntry base b1 b2 at1 body (nvView s)
  nvQueue 3 e.1 e.2 none s

/-- What a mirror entry holds of a commanded state: bytes 13 to 27 (Table 5-10). -/
def outMirror (c : OutSt) : List Byte :=
  [BitVec.ofNat 8 c.mode.toNat, BitVec.ofNat 8 ((if c.start then 1 else 0) + (if c.partner.isSome then 2 else 0)), 0]
    ++ (if c.mode.toNat ≤ 1 then be 12 0 else be 4 c.vals.period ++ be 4 c.vals.on_ ++ be 4 c.vals.phase)

/-- Bytes 4 to 27 of a mirror entry (Table 5-10). -/
def mirrorBody (life : BitVec 48) (cls idx : Nat) (host : Fin 16) (state : List Byte) : List Byte :=
  be 6 life.toNat ++ be 1 cls ++ be 1 idx ++ be 1 host.val ++ state

/-- The commanded state that the newest entry holds. -/
def mirrored (u : UnitRef) (s : State) : Option (List Byte) :=
  match mirrorArea u with
  | some (base, cls, idx) => (newestSlot base cls idx 10 (nvView s)).map fun r => slice r.2 13 15
  | none => none

/-- Write the entry of a unit (R193). -/
def mirrorStore (u : UnitRef) (life : BitVec 48) (host : Fin 16) (state : List Byte) (s : State) : State :=
  match mirrorArea u with
  | some (base, cls, idx) => writeSlot base cls idx 10 (mirrorBody life cls idx host state) s
  | none => s

/-- Coalescing of R193: write at once, pend, or nothing to write. -/
inductive MirrorDo where
  | nothing
  | write
  | pend
  deriving DecidableEq, Repr

def mirrorDo (u : UnitRef) (lastAt : Option Nat) (state : List Byte) (s : State) : MirrorDo :=
  if mirrored u s = some state then .nothing
  else if (match lastAt with | some t => decide (t + Config.tMCO ≤ now s) | none => true) && domOn 15 s then .write
  else .pend

/-- The commanded state of a cell has changed (R193). -/
def outMirrorChange (n : Fin 96) (s : State) : State :=
  let c := s.outs[n]
  match mirrorDo (.out n) c.mirAt (outMirror c) s with
  | .nothing => modOut n (fun c => { c with mirPend := false }) s
  | .write => modOut n (fun c => { c with mirPend := false, mirAt := some (now s) })
      (mirrorStore (.out n) c.mirLife c.lastHost (outMirror c) s)
  | .pend => wakeInternal 15 (modOut n (fun c => { c with mirPend := true }) s)

/-- Write a pending entry now (R193: flushes, the end of tMCO). -/
def outMirrorNow (n : Fin 96) (s : State) : State :=
  let c := s.outs[n]
  if c.mirPend then
    let s := modOut n (fun c => { c with mirPend := false, mirAt := some (now s) }) s
    if mirrored (.out n) s = some (outMirror c) then s
    else mirrorStore (.out n) c.mirLife c.lastHost (outMirror c) s
  else s

/-! ### Commanded changes (R173, R179, R180, R193, R197) -/

/-- Set the commanded mode and values of a primary or single cell, attributed to `host`. -/
def command (n : Fin 96) (mode : BitVec 2) (start : Bool) (v : PwmVals) (host : Fin 16) (s : State) : State :=
  let s := cleanSync n s
  let c := s.outs[n]
  let v := if mode.toNat ≤ 1 then c.vals else v
  let changed := c.mode != mode || (2 ≤ mode.toNat && (c.vals != v))
  let s := modOut n (fun c => { c with mode := mode, start := if mode.toNat ≤ 1 then false else start, vals := v, early := none
                                       lastHost := if changed then host else c.lastHost
                                       mirLife := if changed then s.clk.life else c.mirLife }) s
  let s := if mode.toNat ≤ 1 then
      modOut n (fun c => { c with pwm := { c.pwm with onPhase := false, waitFrom := none } }) s
    else if c.mode != mode then beginPwm n s
    else s
  let s := if changed then
      outNote 0x0201 info n (mode.toNat + host.val * 256) (if mode.toNat ≤ 1 then 0 else v.period)
        (if mode.toNat ≤ 1 then 0 else v.on_) s
    else s
  settle n (if changed then outMirrorChange n s else s)

/-! ### Family 02h (R171 to R176, R185, R189) -/

/-- The cells of a 12-byte mask, ascending (R172). -/
def outMask (b : List Byte) : List UnitRef :=
  let m := numAt b 0 12
  ((List.range 96).filter m.testBit).map fun n => .out (Fin.ofNat 96 n)

/-- PERIOD, ON and PHASE fit the class (Table 5-6, Table 5-1). -/
def pwmRange (cls : Nat) (mode : BitVec 2) (v : PwmVals) : Bool :=
  if mode == 2 then
    let lo := if cls = 0 then 20000 else if cls = 1 then 10000 else 2500
    lo ≤ v.period && v.period ≤ 100000 && v.on_ ≤ 1024 && v.phase < v.period
  else 10 ≤ v.period && v.period ≤ 10000 && v.on_ ≤ v.period && v.phase < v.period

/-- A result with an outcome byte. -/
def unitRes (u : UnitRef) (outcome : Nat) : UnitRes := ⟨u, 0, 0, outcome⟩

/-- A packet refused at T gives back what its staging asked for (R175, R184). -/
def unstageOut (n : Fin 96) (s : State) : State :=
  let c := s.outs[n]
  if c.staged then settle n (modOut n (fun c => { c with early := none }) (dropTok n s))
  else if c.early.isSome then settle n (modOut n (fun c => { c with early := none }) s)
  else s

/-- A scheduled packet has created demand: the token that its cell still waits for is due at T, or, when the block comes to T later,
at this instant (R175, R184). -/
def tokenDueAt (q : QPkt) (n : Fin 96) (before : Bool) (s : State) : State :=
  let s := modOut n (fun c => { c with staged := false }) s
  match q.effect with
  | some t =>
    let c := s.outs[n]
    if q.staged && !before && demand c && !inhibited n s && (c.st == .waitToken || c.st == .falling) && !c.tok.isHeld
        && c.tokDue.isNone then
      modOut n (fun c => { c with tokDue := some (max t (zone s)) }) s
    else s
  | none => s

/-- OUT_SET on one cell (R173). -/
def outSetCell (q : QPkt) (n : Fin 96) (b : List Byte) (s : State) : Nat × State :=
  let c := s.outs[n]
  let mode : BitVec 2 := BitVec.ofNat 2 (byteAt b 12).toNat
  let keep := (byteAt b 13).getLsbD 1
  let v : PwmVals := if keep then c.vals else ⟨numAt b 16 4, numAt b 20 4, numAt b 24 4⟩
  if isSecondary n s then (0x13, s)
  else if 2 ≤ mode.toNat && !pwmRange (outClass n) mode v then (0x14, unstageOut n s)
  else if mode != 0 && c.prot != .none then (0x10, stickOut n 0b0000010 (unstageOut n s))
  else
    let falling := c.st == .falling
    let before := c.early.isNone && demand c
    let s := tokenDueAt q n before (command n mode ((byteAt b 13).getLsbD 0) v q.pkt.host s)
    if falling && demand s.outs[n] && !inhibited n s then
      (0x01, note 0x0202 info 1 n.val 4 q.pkt.host.val 0 (stickOut n 0b1000000 s))
    else if mode != 0 && (prunedAt (outIdx n) s || s.outs[n].uvOff) then (0x02, s)
    else (0x00, s)

/-- Refusing outcomes (R174). -/
def refusing (o : Nat) : Bool := 0x10 ≤ o && o ≠ 0x21 && o ≠ 0x22

/-- Status and detail of one outcome (Tables 5-7, 6-10, 7-3, 9 and 10 outcomes by their own codes). -/
def outcomeStatus (o : Nat) : Half × Half :=
  match o with
  | 0x00 => (0, 0)
  | 0x01 => (stDeferred, 0)
  | 0x02 => (0, 1)
  | 0x10 => (stLatched, 0)
  | 0x11 => (stDomainOff, 0)
  | 0x12 => (stDomainRetained, 0)
  | 0x13 => (0x0240, 0)
  | 0x14 => (0x0243, 0)
  | 0x20 => (0x0340, 0)
  | 0x21 => (0, 2)
  | 0x22 => (stDeferred, 0)
  | 0x23 => (0x0341, 0)
  | 0x30 => (0x0440, 0)
  | _ => (stInternal, 0)

/-- The reply status formed from outcomes (R174). -/
def statusOf (single : Nat → Half × Half) (os : List Nat) : Half × Half :=
  match os with
  | [o] => single o
  | _ =>
    let bad := (os.filter refusing).length
    if 0 < bad then (stPartial, BitVec.ofNat 16 bad)
    else if os.any (fun o => o = 1 || o = 0x22) then (stDeferred, 0)
    else (0, BitVec.ofNat 16 (os.filter (· = 2)).length)

/-- Reply of a per-unit opcode: a 2-byte N and one outcome byte per unit, in the order of the packet's units (R173). -/
def outcomesAns (single : Nat → Half × Half) (q : QPkt) (rs : List UnitRes) : Ans :=
  let os := q.units.map fun u => ((rs.find? (·.unit = u)).map (·.outcome)).getD 0
  let st := statusOf single os
  ⟨st.1, st.2, be 2 os.length ++ os.map (BitVec.ofNat 8)⟩

/-- Payload of OUT_SET from byte 12 of its layout: reserved fields (Table 5-6). -/
def outSetRes (b : List Byte) : Bool :=
  zeroAt [14, 15] b && (if (byteAt b 12).toNat ≤ 1 then byteAt b 13 == 0 && numAt b 16 12 = 0 else onlyBits 13 3 b)

def onOut (f : QPkt → Fin 96 → State → Nat × State) (q : QPkt) (u : UnitRef) (s : State) : UnitRes × State :=
  match u with
  | .out n => let r := f q n s; (unitRes u r.1, r.2)
  | _ => (unitRes u 0, s)

def opOutSet : OpSpec :=
  { lenOk := fun b => b.length = 28, resOk := outSetRes, parOk := fun b => decide ((byteAt b 12).toNat ≤ 3),
    units := fun p _ => outMask p.payload, doms := fun _ => [],
    act := .perUnit (onOut fun q n s => outSetCell q n q.pkt.payload s) (fun q rs _ => outcomesAns outcomeStatus q rs) }

/-- OUT_CONFIG on one cell (R176). -/
def outConfigCell (b : List Byte) (n : Fin 96) (s : State) : Nat × State :=
  let w := byteAt b 12
  let v := (byteAt b 13).toNat
  if isSecondary n s then (0x13, s)
  else if w.getLsbD 3 && v / 16 % 4 = 3 && outClass n ≠ 2 then (0x14, s)
  else
    (0x00, modPair n (fun c =>
      let x := c.cfg
      let x := if w.getLsbD 0 then setFld x 30 2 (v % 4) else x
      let x := if w.getLsbD 1 then setFld x 29 1 (v / 4 % 2) else x
      let x := if w.getLsbD 2 then setFld x 28 1 (v / 8 % 2) else x
      let x := if w.getLsbD 3 then setFld x 26 2 (v / 16 % 4) else x
      { c with cfg := x, rb := if w.getLsbD 3 then { c.rb with below := 0 } else c.rb }) s)

def opOutConfig : OpSpec :=
  { lenOk := fun b => b.length = 16,
    resOk := fun b => zeroAt [14, 15] b && onlyBits 12 0x0F b && onlyBits 13 0x3F b,
    units := fun p _ => outMask p.payload, doms := fun _ => [],
    act := .perUnit (onOut fun q n s => outConfigCell q.pkt.payload n s) (fun q rs _ => outcomesAns outcomeStatus q rs) }

/-- AGE in us since an instant, saturating (Table 5-9). -/
def ageUs (valid : Bool) (t : Nat) (s : State) : Nat :=
  if valid then min 0xFFFFFFFF ((now s - t) / Config.us) else 0xFFFFFFFF

/-- One entry of OUT_READ (Table 5-9). -/
def outEntry (n : Fin 96) (s : State) : List Byte :=
  let c := s.outs[n]
  let sum := c.partner.isSome && !isSecondary n s
  let cur := if sum then c.rb.current + (match c.partner with | some m => s.outs[m].rb.current | none => 0) else c.rb.current
  be 4 (twos 32 cur) ++ be 2 (twos 16 (c.rb.vout / 10)) ++ be 1 c.rb.range
    ++ be 1 ((if c.rb.valid then 1 else 0) + (if c.rb.onPhase then 2 else 0) + (if c.rb.over_ then 4 else 0)
        + (if sum then 8 else 0))
    ++ be 4 (ageUs (c.rb.gotI && c.rb.gotV) (min c.rb.timeI c.rb.timeV) s)

/-- An entry of a unit its domain refused: `n` zeros, AGE FFFFFFFFh (R71). -/
def deadEntry (n : Nat) : List Byte := be n 0 ++ be 4 0xFFFFFFFF

def opOutRead : OpSpec :=
  { lenOk := fun b => b.length = 4, resOk := zeroAt [3],
    units := fun p _ =>
      let u := numAt p.payload 0 2
      let k := (byteAt p.payload 2).toNat
      if 1 ≤ k && k ≤ 84 && u + k ≤ 96 then ((List.range k).map fun i => UnitRef.out (Fin.ofNat 96 (u + i))) else [],
    doms := fun _ => [],
    act := .whole fun q us s =>
      done (.ok (q.pkt.payload ++ (q.units.map fun u => match u with
        | .out n => if u ∈ us then outEntry n s else deadEntry 8
        | _ => deadEntry 8).flatten)) s }

/-- GANG_SET (R185): both cells of the pair execute it; the status is that of the chip-wide decision. -/
def gangSet (q : QPkt) (s : State) : Ans × State :=
  let b := q.pkt.payload
  let p := (byteAt b 0).toNat
  let c := (byteAt b 1).toNat
  if h : p < 96 ∧ c < 96 then
    let pn : Fin 96 := ⟨p, h.1⟩
    let cn : Fin 96 := ⟨c, h.2⟩
    let en := (byteAt b 2).getLsbD 0
    let idle (n : Fin 96) : Bool := s.outs[n].st == .off && s.outs[n].mode == 0
    if outClass pn ≠ outClass cn ∨ outBlock pn ≠ outBlock cn ∨ c ≤ p then (.err 0x0242, s)
    else if !en && !(s.outs[pn].partner == some cn) then (.ok, s)
    else if !idle pn || !idle cn || (en && (s.outs[pn].partner.isSome || s.outs[cn].partner.isSome)) then (.err 0x0241, s)
    else
      let s' := if en then
          modOut cn (fun x => { x with partner := some pn, cfg := s.outs[pn].cfg, vals := s.outs[pn].vals })
            (modOut pn (fun x => { x with partner := some cn }) s)
        else modOut cn (fun x => { x with partner := none }) (modOut pn (fun x => { x with partner := none }) s)
      (.ok, note 0x0205 info 1 p p c (if en then 1 else 0) s')
  else (.err stBadParam, s)

/-- OUT_CAS (R175): compare the commanded mode, then as OUT_SET. Outcome FFh marks a mismatch, its detail the mode. -/
def opOutCas : OpSpec :=
  { lenOk := fun b => b.length = 32,
    resOk := fun b => zeroAt [2, 3] b && outSetRes (b.drop 4),
    parOk := fun b => decide ((byteAt b 1).toNat ≤ 3) && decide ((byteAt (b.drop 4) 12).toNat ≤ 3)
      && decide (outMask (b.drop 4) = [.out (Fin.ofNat 96 (byteAt b 0).toNat)]),
    units := fun p _ => if (byteAt p.payload 0).toNat < 96 then [.out (Fin.ofNat 96 (byteAt p.payload 0).toNat)] else [],
    doms := fun _ => [],
    act := .perUnit
      (fun q u s => match u with
        | .out n =>
          if isSecondary n s then (unitRes u 0x13, s)
          else if s.outs[n].mode.toNat ≠ (byteAt q.pkt.payload 1).toNat then
            let d := BitVec.ofNat 16 s.outs[n].mode.toNat
            (⟨u, 0x0244, d, 0xFF⟩, unstageOut n s)
          else let r := outSetCell q n (q.pkt.payload.drop 4) s; (unitRes u r.1, r.2)
        | _ => (unitRes u 0, s))
      (fun _ rs _ => match rs with
        | [r] => if r.outcome = 0xFF then ⟨r.code, r.detail, [0xFF]⟩
                 else let st := outcomeStatus r.outcome; ⟨st.1, st.2, [BitVec.ofNat 8 r.outcome]⟩
        | _ => .ok) }

/-! ### The rows of the cells -/

/-- CELL_RISE_DONE (R166): a rising cell is ON; without an envelope it returns its token (R239). -/
def cellRiseDone (n : Fin 96) (s : State) : State :=
  if s.outs[n].st == .rising then
    let s := modPair n (fun c => { c with st := .on, stateAt := now s }) s
    let p := primary n s
    if s.outs[p].env.isNone then modOut p (fun c => { c with tok := .none }) s else s
  else s

/-- A falling or demagnetising cell reaches OFF and rises again if demand returned (R166, R167). -/
def cellOff (n : Fin 96) (s : State) : State :=
  let fast := s.outs[primary n s].mode == 2
  settle n (modPair n (fun c =>
    { c with st := .off, stateAt := now s, offSince := now s, diagIn := diagKeep fast c.diagIn
             diagOut := diagKeep fast c.diagOut }) s)

def cellFallDone (n : Fin 96) (s : State) : State :=
  if s.outs[n].st == .falling then cellOff n s else s

/-- CELL_DEMAG_ENTRY (R166): output below -1 V; demand that has returned turns the cell on at once (R167). -/
def cellDemagEntry (n : Fin 96) (mv : Int) (s : State) : State :=
  if s.outs[n].st == .falling && decide (mv < -1000) then
    settle n (modPair n (fun c => { c with st := .demag, stateAt := now s }) s)
  else s

/-- CELL_DEMAG_END (R166): output above -0.5 V. -/
def cellDemagEnd (n : Fin 96) (mv : Int) (s : State) : State :=
  if s.outs[n].st == .demag && decide (-500 < mv) then cellOff n s else s

/-- How much earlier than its instant a gate command starts (R170). -/
def edgeLead (n : Fin 96) (s : State) : Nat :=
  if edgeRef s.outs[n] then tD50 (outClass n) (slewOf s.outs[n]) else 0

/-- The period start the generator waits for. -/
def nextPeriod (n : Fin 96) (s : State) : Nat :=
  let c := s.outs[n]
  nextStart c.mode (stagger c) n c.vals (max c.pwm.perEnd (c.pwm.waitFrom.getD 0))

/-- PWM generators run while the region's domain is on (Table 4-3). -/
def pwmRuns (n : Fin 96) (s : State) : Bool :=
  2 ≤ s.outs[n].mode.toNat && !isSecondary n s && domOn (outDomain n) s && 0 < s.outs[n].vals.period

/-- PWM_PERIOD_START (R177, R180 to R182). -/
def pwmPeriodStart (n : Fin 96) (s : State) : State :=
  let st := nextPeriod n s
  if pwmRuns n s && decide (st ≤ zone s + edgeLead n s) then
    let s := startPeriod n st st s
    let s := if s.outs[n].mode == 3 && s.outs[n].pwm.onPhase && s.outs[n].st == .off && !s.outs[n].tok.isHeld then
        modOut n (fun c => { c with tokDue := some st }) s else s
    settle n s
  else s

/-- PWM_ON_PHASE_END (R177): the on-phase has run out, and the pattern has an off-phase or has changed. -/
def pwmOnPhaseEnd (n : Fin 96) (s : State) : State :=
  let c := s.outs[n]
  if pwmRuns n s && c.pwm.onPhase && decide (c.pwm.onEnd ≤ zone s + edgeLead n s)
      && (decide (c.pwm.onEnd < c.pwm.perEnd) || c.vals != c.pwm.act || c.pwm.waitFrom.isSome) then
    settle n (modOut n (fun c => { c with pwm := { c.pwm with onPhase := false } }) s)
  else s

/-- PWM_TOKEN_REQUEST (R182): slow PWM asks for its token tPLD before a rising edge. -/
def pwmTokenRequest (n : Fin 96) (s : State) : State :=
  let c := s.outs[n]
  let st := nextPeriod n s
  if pwmRuns n s && c.mode == 3 && c.st == .off && c.tok == .none && !inhibited n s && !isHot n s
      && decide (st ≤ zone s + tPLD) && decide (0 < pwmOn c.mode c.vals) then
    modOut n (fun c => { c with tok := .waiting (now s) false, tokDue := some st }) s
  else s

/-- Zone time has stepped by `d`: PWM completes its on-phase at its length and re-anchors (R183). -/
def pwmStep (d : Int) (s : State) : State :=
  (List.range 96).foldl (fun s i =>
    let n : Fin 96 := Fin.ofNat 96 i
    let c := s.outs[n]
    if 2 ≤ c.mode.toNat && !isSecondary n s then
      let onEnd := ((c.pwm.onEnd : Int) + d).toNat
      let from_ := if c.pwm.onPhase then max onEnd (zone s) else zone s
      let s := modOut n (fun c => { c with pwm := { c.pwm with onEnd := onEnd, perEnd := from_, waitFrom := some from_ } }) s
      note 0x0203 warning 1 i c.vals.period c.vals.phase (twos 32 (d / 1000000)) (stickOut n 0b0001000 s)
    else s) s

end Sys2Proof.Machine
end

