-- ==== Sys2Proof/Machine/Time.lean ====
section
/-! DEFINITION. Zone time and wall time (R366 to R373, R390): the servo, time steps, delay measurement, and the
opcodes of family 0Bh. -/

namespace Sys2Proof.Machine

/-! ### Words 0B00h to 0B02h -/

def modZone (f : ZoneSt → ZoneSt) (s : State) : State := { s with zone := f s.zone }
def modNet (f : NetSts → NetSts) (s : State) : State := { s with net := f s.net }
def modEth (n : Fin 2) (f : EthPort → EthPort) (s : State) : State :=
  modNet (fun x => { x with eth := x.eth.set n (f x.eth[n]) }) s

/-- Sticky bits of word 0B00h: event 238 for STEPPED, 222 for the others (R393). -/
def stickZone (m : BitVec 6) (s : State) : State :=
  let old := s.zone.sticky
  raiseIf (fresh old (m &&& 0b011111)) 222 (raiseIf (fresh old (m &&& 0b100000)) 238
    (modZone (fun x => { x with sticky := x.sticky ||| m }) s))

/-- Sticky bits of word 0B02h: event 222 (R393). -/
def stickPortTime (n : Fin 2) (m : BitVec 4) (s : State) : State :=
  raiseIf (fresh s.net.eth[n].stickyT m) 222 (modEth n (fun x => { x with stickyT := x.stickyT ||| m }) s)

def portRole (n : Fin 2) (w : Word) : Nat := if n = 0 then fld w 27 2 else fld w 25 2
def upstreamPort (w : Word) : Option (Fin 2) :=
  if portRole 0 w = 1 then some 0 else if portRole 1 w = 1 then some 1 else none

/-- Sync interval in ns (Table 12-6). -/
def syncInterval (w : Word) : Nat := 31250000 * 2 ^ fld w 29 3
def neighborThresh (w : Word) : Nat := fld w 9 8 * 10

/-- Signed and saturating in 32 bits. -/
def sat32 (i : Int) : Nat := twos 32 (max (-2147483648) (min 2147483647 i))

def SyncState.code : SyncState → Nat
  | .free => 0 | .locking => 1 | .locked => 2 | .holdover => 3

/-- A change of sync state: record 0B04h and its sticky bit (R370, R395, Table 12-6). -/
def setSync (st : SyncState) (s : State) : State :=
  let old := s.zone.state
  if st = old then s
  else
    let s := modZone (fun x => { x with state := st }) s
    let m : BitVec 6 := match st with
      | .holdover => 0b010000
      | .locked => 0b001000
      | .locking => if old = .locked then 0b000001 else 0
      | .free => 0
    let s := if m == 0 then s else stickZone m s
    note 0x0B04 info 0 0 st.code (sat32 s.zone.offset) (((upstreamPort s.zone.cfg).map (·.val)).getD 0) s

/-- HOLDOVER of a disciplined time (R370). -/
def loseSync (s : State) : State :=
  if s.zone.state = .locking || s.zone.state = .locked then setSync .holdover s else s

/-! ### Time steps (R80, R371) -/

/-- A staged packet leaves the heads of its queues: tokens requested for its edges go back (R80, R184). -/
def unstageUnits (q : QPkt) (s : State) : State :=
  q.units.foldl (fun s u => match u with
    | .out n => unstageOut n s
    | .leg n =>
      let k : Fin 8 := Fin.ofNat 8 (n.val / 2)
      if s.brs[k].staged then
        { s with brs := s.brs.set k { s.brs[k] with tok := .none, tokDue := none, staged := false } } else s
    | .vl n =>
      if s.vls[n].staged then
        { s with vls := s.vls.set n { s.vls[n] with tok := .none, tokDue := none, staged := false } } else s
    | _ => s) s

/-- The scheduler and the staged packets after a step (R80); the count of packets removed. A staged packet that is executing, or
has executed and completes in this cycle, is past its effect. -/
def reschedule (s : State) : State × Nat :=
  let z := zone s
  let back := s.cmd.waiting.filter fun q =>
    q.staged && !q.busy && !q.todo.isEmpty && q.effect.any (fun t => decide (z + Config.tSQL < t))
  let s := back.foldl (fun s q => unstageUnits q s) s
  let stay := (s.cmd.waiting.filter fun q => !back.any (·.seq = q.seq)).map fun q =>
    if q.staged && q.effect.any (fun t => decide (t < z)) then { q with late := true } else q
  let all := s.cmd.sched ++ back.map fun q => { q with staged := false }
  let time (q : QPkt) : Nat := q.effect.getD 0
  let past := (all.filter fun q => time q < z).map fun q => { q with staged := true, late := true }
  let far := all.filter fun q => z + 10 * Config.sec < time q
  let keep := all.filter fun q => z ≤ time q && time q ≤ z + 10 * Config.sec
  let s := noteLoad (modCmd (fun c => { c with waiting := stay ++ past, sched := keep }) s)
  let s := if far.isEmpty then s else stickCmd 0x200 s
  (far.foldl (fun s q => complete q (.err stTimeStepped) s) s, far.length)

/-- A time step to `new` (R371): cause 1 servo, 2 TIME_SET. -/
def stepTo (new cause : Nat) (s : State) : State :=
  let old := zone s
  let s := modZone (fun x => { x with time := new, frac := 0 }) s
  let s := pwmStep ((new : Int) - old) s
  let r := reschedule s
  let s := stickZone 0b100000 r.1
  let s := note 0x0B01 warning 0 0 (old / 2 ^ 32) (old % 2 ^ 32) cause s
  note 0x0B02 info 0 0 (new / 2 ^ 32) (new % 2 ^ 32) r.2 s

/-- Zone time is an unsigned 64-bit count (R366). -/
def wrap64 (i : Int) : Nat := (i % (2 ^ 64 : Int)).toNat

def stepZone (d : Int) (cause : Nat) (s : State) : State := stepTo (wrap64 ((zone s : Int) + d)) cause s

/-! ### Delay measurement and the servo (R367 to R370) -/

/-- 500 ppm in rate units: half a ns per us tick. -/
def rateMax : Int := 2147483648

/-- The time function runs on a port: domain on, link up, no test mode, not asleep, on the lead (R368, R539). -/
def portTimeRuns (n : Fin 2) (s : State) : Bool :=
  domOn (Fin.ofNat 16 (1 + n.val)) s && s.net.eth[n].link == 2 && !portShut n s && s.boot.member == 0

/-- AS_CAPABLE after the last answers (R368). -/
def asCapable (p : EthPort) (w : Word) : Bool :=
  !p.answers.isEmpty && p.answers.all id && decide (p.delay ≤ neighborThresh w)

/-- A port's AS_CAPABLE follows its measurements; an upstream port that loses it leaves discipline (R370). -/
def followCapable (n : Fin 2) (s : State) : State :=
  let c := asCapable s.net.eth[n] s.zone.cfg
  let was := s.net.eth[n].asCap
  let s := modEth n (fun x => { x with asCap := c }) s
  if was && !c && portRole n s.zone.cfg = 1 then loseSync s else s

/-- The time function of a port stops with its link or its domain. -/
def portTimeStops (n : Fin 2) (s : State) : State :=
  followCapable n (modEth n (fun x => { x with answers := [] }) s)

/-- PDELAY_REQUEST (R367, R368). -/
def pdelayRequest (n : Fin 2) (answered : Bool) (delay : Nat) (s : State) : State :=
  if portTimeRuns n s && portRole n s.zone.cfg ≠ 0 then
    let s := modEth n (fun x => { x with answers := (answered :: x.answers).take 3
                                         delay := if answered then delay else x.delay }) s
    let p := s.net.eth[n]
    let s := if p.answers = [false, false, false] then stickPortTime n 0b1000 s else s
    let s := if answered && neighborThresh s.zone.cfg < delay then stickPortTime n 0b0010 s else s
    followCapable n s
  else s

/-- The rate correction of the servo (R369). -/
def servoRate (off : Int) (s : State) : State :=
  let x := s.zone
  let integral := x.integral + off
  let raw := x.rate - off * Config.servoKP - integral * Config.servoKI
  let rate := max (-rateMax) (min rateMax raw)
  let s := modZone (fun x => { x with rate := rate, integral := integral }) s
  if rate = rateMax || rate = -rateMax then stickZone 0b000010 s else s

/-- The servo without a step (R369). -/
def servo (off : Int) (s : State) : State :=
  let s := servoRate off s
  let good := if off.natAbs ≤ 1000 then s.zone.good + 1 else 0
  let s := modZone (fun x => { x with good := good }) s
  let s := if s.zone.state = .locked && 5000 < off.natAbs then setSync .locking (modZone (fun x => { x with good := 0 }) s)
    else s
  if (s.zone.state = .locking || s.zone.state = .holdover) && 4 ≤ s.zone.good then setSync .locked s else s

/-- SYNC_RECEIVED (R367, R369). -/
def syncReceived (n : Fin 2) (origin : Nat) (corr : Int) (oneStep : Bool) (s : State) : State :=
  if portTimeRuns n s && portRole n s.zone.cfg = 1 then
    if oneStep then stickPortTime n 0b0001 s
    else if s.net.eth[n].asCap then
      let off : Int := (zone s : Int) - ((origin : Int) + corr + s.net.eth[n].delay)
      let s := modZone (fun x => { x with offset := off, lastSync := some (now s) }) s
      if s.zone.state = .free || fld s.zone.cfg 17 8 * 10000 < off.natAbs then
        setSync .locking (modZone (fun x => { x with good := 0 }) (stepZone (-off) 1 s))
      else servo off s
    else s
  else s

/-- SYNC_SEND: a downstream port sends time (R367, R368). -/
def syncSend (n : Fin 2) (s : State) : State :=
  if portTimeRuns n s && portRole n s.zone.cfg = 2 then modEth n (fun x => { x with syncAt := some (zone s) }) s else s

/-- SYNC_TIMEOUT (R370). -/
def syncTimeout (s : State) : State :=
  match upstreamPort s.zone.cfg with
  | some n =>
    let due := s.zone.lastSync.getD 0 + fld s.zone.cfg 5 4 * syncInterval s.zone.cfg
    if (s.zone.state = .locking || s.zone.state = .locked) && decide (due ≤ now s) then
      loseSync (stickPortTime n 0b0100 s)
    else s
  | none => s

/-! ### Opcodes of family 0Bh (R372, R373, R389 to R391) -/

/-- ms since the last Sync used (R390). -/
def sinceSync (s : State) : Nat :=
  match s.zone.lastSync with
  | some t => sat 32 ((now s - t) / Config.ms)
  | none => 0xFFFFFFFF

/-- TIME_READ (R390). -/
def opTimeRead : OpSpec :=
  chipOp 0 [0] (fun _ => true) fun _ s =>
    done (.ok (be 8 s.zone.time ++ be 4 s.clk.wall.toNat ++ be 4 (sat32 s.zone.offset)
      ++ be 4 (twos 32 (s.zone.rate * 1000000 / 4294967296)) ++ be 6 s.clk.life.toNat ++ be 1 s.zone.state.code ++ [0]
      ++ be 4 (sinceSync s))) s

/-- TIME_CONFIG fields are in range (Table 12-6, R368, R391). -/
def timeConfigOk (w : Word) : Bool :=
  fld w 29 3 ≤ 5 && portRole 0 w ≠ 3 && portRole 1 w ≠ 3 && !(portRole 0 w = 1 && portRole 1 w = 1)
    && 1 ≤ fld w 17 8 && 1 ≤ fld w 9 8 && 2 ≤ fld w 5 4

/-- TIME_CONFIG (R368, R391): without an upstream port the module is the time source and its state is FREE. -/
def opTimeConfig : OpSpec :=
  chipOp 4 [0] (fun b => onlyBits 3 0xE0 b) fun q s =>
    let w := wordAt q.pkt.payload 0
    if !timeConfigOk w then refuse 0x0B40 s
    else
      let s := modZone (fun x => { x with cfg := w }) s
      let s := followCapable 1 (followCapable 0 s)
      done .ok (if (upstreamPort w).isNone then setSync .free s else s)

/-- Members 1 to 3 take time from the lead while they have a path to it (R540). -/
def followsLead (s : State) : Bool := s.boot.member != 0 && s.trl.present.getLsbD 0

/-- TIME_SET (R371, R372, R540). -/
def opTimeSet : OpSpec :=
  chipOp 12 [0] (fun b => zeroAt [9, 10, 11] b) fun q s =>
    let b := q.pkt.payload
    if 1 < (byteAt b 8).toNat then refuse 0x0B40 s
    else if s.zone.state = .locking || s.zone.state = .locked || followsLead s then refuse 0x0B41 s
    else
      let v := numAt b 0 8
      let new := if byteAt b 8 == 0 then v else (zone s + v) % 2 ^ 64
      done .ok (if new = zone s then s else stepTo new 2 s)

/-- WALL_SET (R373, R540). -/
def opWallSet : OpSpec :=
  chipOp 8 [0] (fun b => zeroAt [4, 5, 6, 7] b) fun q s =>
    if followsLead s then refuse 0x0B41 s
    else
      let w := wordAt q.pkt.payload 0
      let old := s.clk.wall
      let s := { s with clk := { s.clk with wall := w, wallFrac := 0 } }
      done .ok (stickZone 0b000100 (note 0x0B03 info 0 0 old.toNat w.toNat q.pkt.host.val s))

end Sys2Proof.Machine
end

