-- ==== Sys2Proof/Machine/Dorm.lean ====
section
/-! DEFINITION. Dormancy (chapter 13): the agreement of each net, keep-alives, sleep by kind of net, waking, and the
opcodes of family 0Ch. Nets 0 to 5 are CAN0 to CAN5, 6 to 13 LIN0 to LIN7, 14 and 15 ETH0 and ETH1. -/

namespace Sys2Proof.Machine

/-! ### Nets (R396 to R398) -/

inductive NetKind where
  | can (c : Fin 6)
  | lin (c : Fin 8)
  | eth (p : Fin 2)
  deriving DecidableEq, Repr

def netKind (n : Fin 16) : NetKind :=
  if n.val < 6 then .can (Fin.ofNat 6 n.val) else if n.val < 14 then .lin (Fin.ofNat 8 (n.val - 6))
  else .eth (Fin.ofNat 2 (n.val - 14))

def canNet (c : Fin 6) : Fin 16 := Fin.ofNat 16 c.val
def linNet (c : Fin 8) : Fin 16 := Fin.ofNat 16 (6 + c.val)
def ethNet (p : Fin 2) : Fin 16 := Fin.ofNat 16 (14 + p.val)

def netUnit (n : Fin 16) : UnitRef :=
  match netKind n with | .can c => .can c | .lin c => .lin c | .eth p => .eth p

def netDomain (n : Fin 16) : Fin 16 := (unitDomain (netUnit n)).getD 0
def netUp (n : Fin 16) (s : State) : Bool := domOn (netDomain n) s

def modNets (n : Fin 16) (f : NetSt → NetSt) (s : State) : State :=
  modNet (fun x => { x with nets := x.nets.set n (f x.nets[n]) }) s
def modCan (c : Fin 6) (f : CanPort → CanPort) (s : State) : State :=
  modNet (fun x => { x with cans := x.cans.set c (f x.cans[c]) }) s
def modLin (c : Fin 8) (f : LinPort → LinPort) (s : State) : State :=
  modNet (fun x => { x with lins := x.lins.set c (f x.lins[c]) }) s

/-- Sticky bits of word 0C00h; event 232 (R418). -/
def stickNet (n : Fin 16) (m : BitVec 8) (s : State) : State :=
  raiseIf (fresh s.net.nets[n].sticky m) 232 (modNets n (fun x => { x with sticky := x.sticky ||| m }) s)

/-- A record of the net's port (R419). -/
def netNote (code : Half) (sev : BitVec 2) (n : Fin 16) (p1 p2 p3 : Nat) (s : State) (flags : BitVec 4 := 0) : State :=
  match netKind n with
  | .can c => record code sev 0 8 c.val p1 p2 p3 s flags
  | .lin c => record code sev 0 9 c.val p1 p2 p3 s flags
  | .eth p => record code sev 0 10 p.val p1 p2 p3 s flags

def NetState.code : NetState → Nat
  | .disabled => 0 | .need => 1 | .idle => 2 | .prepare => 3 | .transition => 4 | .asleep => 5

/-- Fields of words 0C01h to 0C03h (Table 13-8). -/
def netEnable (x : NetSt) : Bool := x.cfg1.getLsbD 31
def txWake (x : NetSt) : Bool := x.cfg1.getLsbD 30
def kaPeriod (x : NetSt) : Nat := fld x.cfg1 22 8 * 10 * Config.ms
def idleTime (x : NetSt) : Nat := fld x.cfg1 14 8 * 100 * Config.ms
def prepTime (x : NetSt) : Nat := fld x.cfg1 6 8 * 10 * Config.ms
def minAwake (x : NetSt) : Nat := fld x.cfg1 0 6 * 100 * Config.ms
def kaExt (x : NetSt) : Bool := x.cfg2.getLsbD 31
def kaSend (x : NetSt) : Bool := x.cfg2.getLsbD 30
def kaId (x : NetSt) : Nat := if kaExt x then fld x.cfg2 0 29 else fld x.cfg2 0 11

/-- tSLT, tLWW, tTSR (Table 13-9). -/
def tSLT : Nat := 1 * Config.ms
def tLWW : Nat := 100 * Config.ms
def tTSR : Nat := 100 * Config.ms

/-- TX_NEED (R398, R413). -/
def txNeed (n : Fin 16) (s : State) : Bool :=
  match netKind n with
  | .can c => !(s.net.cans[c].bufs.isEmpty)
  | .lin c => !(s.net.lins[c].txNeed.isEmpty)
  | .eth _ => false

/-- Local need (R398). -/
def localNeed (n : Fin 16) (s : State) : Bool :=
  s.net.nets[n].needHosts != 0 || txNeed n s || s.net.nets[n].linWait.isSome

/-! ### Ethernet links (R359, R360) -/

/-- Sticky bits of word 0A00h; event 220 + n (R393). -/
def stickEth (n : Fin 2) (m : BitVec 8) (s : State) : State :=
  raiseIf (fresh s.net.eth[n].sticky m) (220 + n.val) (modEth n (fun x => { x with sticky := x.sticky ||| m }) s)

/-- Record 0A01h with the LINK that word 0A00h reads (R395). -/
def linkRecord (n : Fin 2) (l : BitVec 2) (s : State) : State :=
  let p := s.net.eth[n]
  note 0x0A01 info 10 n.val l.toNat p.quality.toNat (fld p.cfg 30 2) s

/-- The PHY's LINK becomes `l` (R360, R395). -/
def setLink (n : Fin 2) (l : BitVec 2) (s : State) : State :=
  let old := s.net.eth[n].link
  if l == old then s
  else
    let s := modEth n (fun x => { x with link := l }) s
    let s := if l == 2 then stickEth n 0x40 s else if old == 2 then portTimeStops n (stickEth n 0x80 s) else s
    linkRecord n l s

/-- The PHY takes the link to its sleep state (R405): LINK reads 11b, which is not down. -/
def linkSleeps (n : Fin 2) (s : State) : State :=
  let old := s.net.eth[n].link
  let s := modEth n (fun x => { x with link := 0 }) s
  linkRecord n 3 (if old == 2 then portTimeStops n s else s)

/-! ### Packets of the module's own (R95, R414) -/

/-- A packet of opcode `op` to host `h` with the header of R95. -/
def hostPacket (op : Half) (prio : BitVec 2) (h : Fin 16) (payload : List Byte) (s : State) : Packet :=
  { host := h, replyWanted := false, auth := false, chain := false, member := s.boot.member.setWidth 4, prio := prio
    opcode := op, tag := 0, hostSeq := 0, keySlot := 0xFF, time := none, payload := payload, cmac := [] }

/-- Hosts registered through a port. -/
def hostsAt (p : Fin 2) (s : State) : List (Fin 14) :=
  ((List.range 14).map (Fin.ofNat 14)).filter fun h => s.hosts[h].reg.any (·.port = p)

/-! ### Keep-alive (R399, R403) -/

/-- MODE of a CAN channel is normal. -/
def canNormal (c : Fin 6) (s : State) : Bool := fld s.net.cans[c].cfg 30 2 = 1

/-- Send the own keep-alive of a net once (Table 13-2). The packet to a host (R414) takes the place of an event packet in the outgoing
buffer and is dropped where that is full (R97, log entry 42). -/
def keepAliveOwn (n : Fin 16) (s : State) : State :=
  let x := s.net.nets[n]
  let s := modNets n (fun x => { x with kaSentAt := now s }) s
  match netKind n with
  | .can c =>
    if kaSend x && canNormal c s && netUp n s && !s.net.cans[c].busOff && !s.net.vs5Low && busesDriven s then
      let f : CanFrame :=
        { ext := kaExt x, id := BitVec.ofNat 29 (kaId x), fd := false, brs := false, rtr := false, esi := false
          data := be 1 1 ++ be 1 (c.val + 16 * s.boot.member.toNat) }
      modNet (fun y => { y with canOut := y.canOut ++ [(c, f)] }) s
    else s
  | .lin _ => s
  | .eth p =>
    if netUp n s && s.net.eth[p].link == 2 then
      (hostsAt p s).foldl (fun s h =>
        let h16 : Fin 16 := Fin.ofNat 16 h.val
        let k := hostPacket 0x4C00 3 h16 (be 1 p.val ++ be 1 1 ++ be 2 0) s
        pushOut h16 ⟨2, packetBytes k, 0, now s, .none⟩ s) s
    else s

/-! ### State changes (R400, R401, R406, R411) -/

def enterNet (n : Fin 16) (st : NetState) (s : State) : State :=
  let s := modNets n (fun x => { x with st := st, stateAt := now s }) s
  if st = .need then keepAliveOwn n s else s

/-- What a port does when its net wakes (R402, R404, R406, R407). -/
def portWakes (n : Fin 16) (fromSleep : Bool) (s : State) : State :=
  match netKind n with
  | .can c => if fromSleep then modCan c (fun x => { x with tec := 0, rec_ := 0, busOff := false }) s else s
  | .lin c =>
    modNets n (fun x => { x with linWait := some (now s + tLWW) })
      (modLin c (fun x => { x with slot := 0, slotAt := none, awaiting := false }) s)
  | .eth p => if fromSleep && netUp n s then setLink p 1 s else s

/-- The signal of an active wake (R406): a LIN wake-up signal or a TC10 pulse. A CAN net's first frame is its own. -/
def wakeSignal (n : Fin 16) (cause : Nat) (s : State) : State :=
  if 6 ≤ n.val && netUp n s && (cause = 3 || cause = 4 || cause = 7) && (14 ≤ n.val || (!s.net.vs5Low && busesDriven s)) then
    modNet (fun x => { x with wakeOut := x.wakeOut ++ [n] }) s
  else s

/-- A net wakes with its cause: HOLD starts, WOKE, record 0C02h (R400, R401, R411). A LIN net just put to sleep gets its wake-up signal
too (R556). -/
def wakeNet (n : Fin 16) (cause : Nat) (s : State) : State :=
  let x := s.net.nets[n]
  let slept := x.st = .asleep
  let s := portWakes n slept (if slept || (6 ≤ n.val && n.val < 14) then wakeSignal n cause s else s)
  let need := localNeed n s
  let s := modNets n (fun x => { x with holdUntil := now s + minAwake x, idleAt := now s, lastCause := cause,
                                        wokeAt := now s, quiet := !need && cause ≠ 5, tc10 := none, latched := none,
                                        partner := false }) s
  let s := stickNet n (if slept then 0b00001000 else 0b10001000) s
  let s := netNote 0x0C02 info n cause (if slept then (now s - x.sleptAt) / Config.ms else 0) x.needHosts.toNat s
    (if slept then 0 else 1)
  enterNet n (if need then .need else .idle) s

/-- Local need as it stands moves the net where Table 13-3 says; in PREPARE waiting frames alone do not (R413). -/
def netSettle (n : Fin 16) (s : State) : State :=
  let x := s.net.nets[n]
  let need := localNeed n s
  match x.st with
  | .asleep => if need && netUp n s then wakeNet n 3 s else s
  | .transition => if need then wakeNet n 3 s else s
  | .prepare =>
    if x.needHosts != 0 || x.linWait.isSome then
      enterNet n .need (stickNet n 0b00000010 (modNets n (fun x => { x with quiet := false, tc10 := none }) s))
    else s
  | .idle => if need then enterNet n .need (modNets n (fun x => { x with quiet := false }) s) else s
  | .need => if need then s else enterNet n .idle (modNets n (fun x => { x with idleAt := now s }) s)
  | .disabled => s

/-- A keep-alive from another participant (R399, R400). -/
def keepAliveFrom (n : Fin 16) (s : State) : State :=
  let s := modNets n (fun x => { x with kaAt := some (now s), idleAt := now s, quiet := false }) s
  match s.net.nets[n].st with
  | .prepare => enterNet n .idle (stickNet n 0b00000010 (modNets n (fun x => { x with tc10 := none }) s))
  | .transition => wakeNet n 5 s
  | _ => s

/-- AWAKE_IDLE with the idle timer at IDLE_TIME and HOLD ended prepares sleep (R400, R401). -/
def prepareCheck (n : Fin 16) (s : State) : State :=
  let x := s.net.nets[n]
  if x.st = .idle && decide (x.idleAt + idleTime x ≤ now s) && decide (x.holdUntil ≤ now s) then enterNet n .prepare s
  else s

/-- KEEP_ALIVE_SEND (R399). -/
def keepAliveSend (n : Fin 16) (s : State) : State :=
  let x := s.net.nets[n]
  if x.st = .need && decide (x.kaSentAt + kaPeriod x ≤ now s) then keepAliveOwn n s else s

/-- The LIN schedule has finished its slot in progress (R404). -/
def linSlotOver (c : Fin 8) (s : State) : Bool :=
  match s.net.lins[c].slotAt with
  | some t => decide (t + ((s.net.lins[c].table[s.net.lins[c].slot]?).elim 0 (·.delay)) * Config.ms ≤ now s)
  | none => true

/-- The LIN go-to-sleep command (R404): identifier, classic checksum, data. -/
def goToSleep : BitVec 6 × Bool × List Byte := (0x3C, true, 0 :: List.replicate 7 0xFF)

/-- PREPARE_END (R400, R403 to R405). -/
def prepareEnd (n : Fin 16) (s : State) : State :=
  let x := s.net.nets[n]
  if x.st = .prepare && decide (x.stateAt + prepTime x ≤ now s) && !txNeed n s then
    match netKind n with
    | .can _ => enterNet n .transition s
    | .lin c =>
      if linSlotOver c s then
        enterNet n .transition (modNet (fun y =>
            if netUp n s && !s.net.vs5Low && busesDriven s then { y with linOut := y.linOut ++ [(c, goToSleep)] } else y)
          (modLin c (fun l => { l with slotAt := none, awaiting := false, slot := 0 }) s))
      else s
    | .eth _ => if x.tc10.isNone && netUp n s then modNets n (fun x => { x with tc10 := some (now s) }) s else s
  else s

/-- SLEEP_TRANSITION_END (R400, R402, R412). -/
def sleepTransitionEnd (n : Fin 16) (s : State) : State :=
  let x := s.net.nets[n]
  if x.st = .transition && decide (x.stateAt + tSLT ≤ now s) then
    let ms := (now s - x.wokeAt) / Config.ms
    let s := modNets n (fun x => { x with sleptAt := now s, partner := false, tc10 := none }) (enterNet n .asleep s)
    let s := match netKind n with | .eth p => if netUp n s then linkSleeps p s else s | _ => s
    let s := stickNet n 0b00000100 s
    let s := netNote 0x0C01 info n ms (if x.partner then 2 else 1) 0 s
    let s := if x.quiet then netNote 0x0C03 warning n x.lastCause ms 0 (stickNet n 0b01000000 s) else s
    netSettle n s
  else s

/-- TC10_SLEEP_ACCEPT (R405). -/
def tc10Accept (p : Fin 2) (s : State) : State :=
  let n := ethNet p
  if s.net.nets[n].st = .prepare && s.net.nets[n].tc10.isSome then
    enterNet n .transition (modNets n (fun x => { x with tc10 := none }) s)
  else s

/-- TC10_SLEEP_TIMEOUT (R405). -/
def tc10Timeout (p : Fin 2) (s : State) : State :=
  let n := ethNet p
  let x := s.net.nets[n]
  if x.st = .prepare && x.tc10.any (fun t => decide (t + tTSR ≤ now s)) then
    let s := netNote 0x0C04 info n 2 x.st.code x.needHosts.toNat s
    enterNet n .idle (stickNet n 0b00000010 (modNets n (fun x => { x with tc10 := none, idleAt := now s }) s))
  else s

/-- TC10_SLEEP_REQUEST of the partner (R405). -/
def tc10Request (p : Fin 2) (s : State) : State :=
  let n := ethNet p
  let x := s.net.nets[n]
  if netUp n s && s.net.eth[p].link == 2 && x.st != .asleep then
    if (x.st = .idle && decide (x.holdUntil ≤ now s)) || x.st = .prepare then
      enterNet n .transition (modNets n (fun x => { x with tc10 := none, partner := true }) s)
    else netNote 0x0C04 info n 1 x.st.code x.needHosts.toNat (stickNet n 0b00010000 s)
  else s

/-- The other Ethernet port wakes with a partner's wake (R408). -/
def forwardWake (n : Fin 16) (s : State) : State :=
  match netKind n with
  | .eth p =>
    let o := ethNet (Fin.ofNat 2 (1 - p.val))
    if s.net.nets[o].st = .asleep && netEnable s.net.nets[o] && netUp o s then wakeNet o 6 s else s
  | _ => s

/-- A wake detected on a net whose domain is on (R400, R409). -/
def netWoken (n : Fin 16) (cause : Nat) (s : State) : State :=
  let st := s.net.nets[n].st
  if st = .asleep || st = .transition then
    let s := wakeNet n cause s
    if cause = 1 then forwardWake n s else s
  else s

/-- Detector code and index of a net's wake (Table 13-4). -/
def netDetector (n : Fin 16) (selective : Bool) : Nat × Nat :=
  match netKind n with
  | .can c => (if selective then 2 else 1, c.val)
  | .lin c => (3, c.val)
  | .eth p => (4, p.val)

/-- The net's wake detection is armed: its net sleeps or goes to sleep, or its domain is not on (R402, R409). -/
def netListens (n : Fin 16) (s : State) : Bool :=
  !netUp n s || s.net.nets[n].st = .asleep || s.net.nets[n].st = .transition

/-- NET_WAKE_DETECT (R409): with detectors 01h and 02h both enabled for a channel, 01h is ignored. -/
def netWakeDetect (n : Fin 16) (selective : Bool) (s : State) : State :=
  let sel := selective && (match netKind n with | .can _ => true | _ => false)
  let d := netDetector n sel
  let ignored := d.1 = 1 && wakeEnabled 1 d.2 s && wakeEnabled 2 d.2 s
  let st := s.net.nets[n].st
  if ignored || !netListens n s then s
  else
    let cause := if sel then 2 else 1
    let up := netUp n s
    let s := if up then netWoken n cause s
      else if st = .disabled then s else modNets n (fun x => { x with latched := some (x.latched.getD cause) }) s
    detect d.1 d.2 s

/-- LIN_WAKE_WAIT_END (R407). -/
def linWakeWaitEnd (c : Fin 8) (s : State) : State :=
  let n := linNet c
  if s.net.nets[n].linWait.any (fun t => decide (t ≤ now s)) then
    netSettle n (modNets n (fun x => { x with linWait := none }) s)
  else s

/-- A host's need bits on every net are cleared (R398). -/
def clearNeed (h : Nat) (s : State) : State :=
  (List.range 16).foldl (fun s i =>
    let n : Fin 16 := Fin.ofNat 16 i
    if s.net.nets[n].needHosts.getLsbD h then
      netSettle n (modNets n (fun x => { x with needHosts := x.needHosts &&& ~~~(BitVec.ofNat 13 (2 ^ h)) }) s)
    else s) s

/-- NEED_LEASE_EXPIRY (R416). -/
def needLeaseExpiry (h : Fin 14) (s : State) : State :=
  if hlt : h.val < 13 then
    if (s.net.leases[h.val]'hlt).any (fun t => decide (t ≤ now s)) then
      clearNeed h.val (modNet (fun x => { x with leases := x.leases.set h.val none hlt }) s)
    else s
  else s

/-! ### Sleep and the power domains (R409, R414) -/

/-- The net's port counts as having reached sleep (R414). -/
def netSlept (n : Fin 16) (s : State) : Bool :=
  match s.net.nets[n].st with
  | .asleep => true
  | .disabled =>
    match netKind n with
    | .can c => fld s.net.cans[c].cfg 30 2 = 0
    | .lin c => !s.net.lins[c].cfg.getLsbD 31
    | .eth _ => false
  | _ => false

/-- The nets of a domain. -/
def domainNets (d : Fin 16) : List (Fin 16) := ((List.range 16).map (Fin.ofNat 16)).filter fun n => netDomain n = d

/-- Every net of the domain has reached sleep (Table 4-7, reason 3h). -/
def netsAsleep (d : Fin 16) (s : State) : Bool := (domainNets d).all (netSlept · s)

/-- A turn-down forced past reason 3h (R414): straight into SLEEP_TRANSITION. -/
def forceSleep (d : Fin 16) (host : Nat) (s : State) : State :=
  (domainNets d).foldl (fun s n =>
    if netSlept n s then s
    else
      let x := s.net.nets[n]
      let s := netNote 0x0C05 warning n d.val x.st.code host (stickNet n 0b00100000 s)
      let s := match netKind n with | .can c => modCan c (fun y => { y with bufs := [] }) s | _ => s
      if x.st = .disabled || x.st = .transition then s
      else enterNet n .transition (modNets n (fun x => { x with tc10 := none }) s)) s

/-- The domain of these nets has reached on: latched wakes and local need act (R409, R414). -/
def netsUp (d : Fin 16) (s : State) : State :=
  (domainNets d).foldl (fun s n =>
    let s := match s.net.nets[n].latched with
      | some c => netWoken n c (modNets n (fun x => { x with latched := none }) s)
      | none => s
    netSettle n s) s

/-! ### Opcodes of family 0Ch (R415, R416) -/

def netMask (w : Nat) : List (Fin 16) := ((List.range 16).map (Fin.ofNat 16)).filter fun n => w.testBit n.val

/-- The words 0C01h to 0C03h a DORM_CONFIG leaves: WRITE bits 6 to 9 count for CAN only (R416). -/
def dormWords (n : Fin 16) (w : Nat) (b : List Byte) (x : NetSt) : Word × Word × Word :=
  let take (i lo len : Nat) (img old : Word) : Word := if w.testBit i then setFld old lo len (fld img lo len) else old
  let i1 := wordAt b 4
  let i2 := wordAt b 8
  let i3 := wordAt b 12
  let c1 := take 5 0 6 i1 (take 4 6 8 i1 (take 3 14 8 i1 (take 2 22 8 i1 (take 1 30 1 i1 (take 0 31 1 i1 x.cfg1)))))
  if n.val < 6 then
    (c1, take 8 0 29 i2 (take 7 31 1 i2 (take 6 30 1 i2 x.cfg2)), take 9 0 29 i3 x.cfg3)
  else (c1, x.cfg2, x.cfg3)

def dormOk (x : NetSt) : Bool := 1 ≤ fld x.cfg1 22 8 && 1 ≤ fld x.cfg1 14 8 && 1 ≤ fld x.cfg1 0 6

/-- ENABLE as written moves a net in or out of DISABLED (R400, R406). -/
def followEnable (n : Fin 16) (was : Bool) (s : State) : State :=
  let x := s.net.nets[n]
  if netEnable x && (!was || x.st = .disabled) && x.st = .disabled then
    let s := modNets n (fun x => { x with idleAt := now s, wokeAt := now s, quiet := false }) s
    enterNet n (if localNeed n s then .need else .idle) s
  else if !netEnable x && x.st != .disabled then
    let s := if x.st = .asleep then wakeNet n 7 s else s
    enterNet n .disabled (modNets n (fun x => { x with tc10 := none, latched := none }) s)
  else s

def dormConfigOne (q : QPkt) (n : Fin 16) (s : State) : Nat × State :=
  let b := q.pkt.payload
  let w := numAt b 2 2
  let x := s.net.nets[n]
  let c := dormWords n w b x
  let y : NetSt := { x with cfg1 := c.1, cfg2 := c.2.1, cfg3 := c.2.2 }
  if dormOk y then
    let s := modNets n (fun _ => y) s
    let s := netNote 0x0C06 info n w c.1.toNat q.pkt.host.val s
    (0, followEnable n (netEnable x) s)
  else (0x90, s)

def dormStatus (o : Nat) : Half × Half := if o = 0x90 then (0x0C40, 0) else outcomeStatus o

/-- Outcome bytes in ascending unit order with the status R174 forms from them. -/
def listAns (single : Nat → Half × Half) (os : List Nat) : Ans :=
  let st := statusOf single os
  ⟨st.1, st.2, be 2 os.length ++ os.map (BitVec.ofNat 8)⟩

/-- DORM_CONFIG (R415, R416). -/
def opDormConfig : OpSpec :=
  { lenOk := fun b => b.length = 16
    resOk := fun b => onlyBits 2 3 b && onlyBits 8 0xDF b && onlyBits 12 0x1F b
    units := fun p _ => if numAt p.payload 0 2 = 0 then [] else [.chip]
    doms := fun _ => []
    act := .whole fun q _ s =>
      let r := (netMask (numAt q.pkt.payload 0 2)).foldl (fun (a : List Nat × State) n =>
        let o := dormConfigOne q n a.2
        (a.1 ++ [o.1], o.2)) ([], s)
      done (listAns dormStatus r.1) r.2 }

/-- DORM_NEED on one net (R398, R416). -/
def dormNeedOne (q : QPkt) (u : UnitRef) (s : State) : UnitRes × State :=
  let b := q.pkt.payload
  let h := q.pkt.host.val
  let op := (byteAt b 2).toNat
  let n : Option (Fin 16) := match u with
    | .can c => some (canNet c) | .lin c => some (linNet c) | .eth p => some (ethNet p) | _ => none
  match n with
  | some n =>
    if hlt : h < 13 then
      if 1 < op then (unitRes u 0, s)
      else if op = 0 then
        (unitRes u 0, netSettle n (modNets n (fun x =>
          { x with needHosts := x.needHosts &&& ~~~(BitVec.ofNat 13 (2 ^ h)) }) s))
      else
        let lease := (byteAt b 3).toNat * 100 * Config.ms
        let s := modNet (fun x => { x with leases := x.leases.set h (if lease = 0 then none else some (now s + lease)) hlt }) s
        (unitRes u 0, netSettle n (modNets n (fun x => { x with needHosts := x.needHosts ||| BitVec.ofNat 13 (2 ^ h) }) s))
    else (unitRes u 0, s)
  | none => (unitRes u 0, s)

/-- DORM_NEED (R398, R415, R416). -/
def opDormNeed : OpSpec :=
  { lenOk := fun b => b.length = 4
    units := fun p _ => (netMask (numAt p.payload 0 2)).map netUnit
    doms := fun _ => []
    act := .perUnit dormNeedOne fun q rs _ =>
      if 1 < (byteAt q.pkt.payload 2).toNat then .err 0x0C40 else outcomesAns outcomeStatus q rs }

/-- DORM_KEEP (R399, R416). -/
def opDormKeep : OpSpec :=
  chipOp 4 [] (fun b => onlyBits 0 3 b && zeroAt [1, 2, 3] b) fun q s =>
    let m := (byteAt q.pkt.payload 0).toNat
    let s := if m.testBit 0 then keepAliveFrom 14 s else s
    done .ok (if m.testBit 1 then keepAliveFrom 15 s else s)

/-- DORM_WUF (R410, R416). -/
def opDormWuf : OpSpec :=
  chipOp 20 [] (fun b => onlyBits 1 0xCF b && zeroAt [2, 3] b && onlyBits 4 0x1F b && onlyBits 8 0x1F b) fun q s =>
    let b := q.pkt.payload
    if h : (byteAt b 0).toNat < 6 then
      let c : Fin 6 := ⟨(byteAt b 0).toNat, h⟩
      let b1 := (byteAt b 1).toNat
      if 8 < b1 % 16 then refuse 0x0C40 s
      else
        let new : WakeFrame :=
          { ext := b1.testBit 6, dlc := b1 % 16, id := numAt b 4 4, mask := numAt b 8 4, data := slice b 12 8 }
        let s := if b1.testBit 7 then modNet (fun x => { x with wufs := x.wufs.set c new }) s else s
        let w := s.net.wufs[c]
        done (.ok (be 1 c.val ++ be 1 ((b1 / 128) * 128 + (if w.ext then 64 else 0) + w.dlc) ++ be 2 0 ++ be 4 w.id
          ++ be 4 w.mask ++ w.data)) s
    else refuse 0x0C40 s

end Sys2Proof.Machine
end

