-- ==== Sys2Proof/Machine/Checkers.lean ====
section
/-! DEFINITION. Block fault status and the two non-fatal fault classes (R511 to R515, R521, R525), as every checker
reports them. -/

namespace Sys2Proof.Machine

def modBlk (b : Fin 25) (f : BlkSt → BlkSt) (s : State) : State :=
  { s with flt := { s.flt with blocks := s.flt.blocks.set b (f s.flt.blocks[b]) } }

/-- Region of a block index (R512). -/
def blockRegion (b : Fin 25) : Fin 7 :=
  if b.val < 12 then Fin.ofNat 7 (b.val / 3) else if b.val < 16 then 4 else if b.val < 20 then 5 else 6

/-- Block 0 of a region (R512). -/
def regionBlock (r : Fin 7) : Fin 25 :=
  if r.val < 4 then Fin.ofNat 25 (3 * r.val) else if r.val = 4 then 12 else if r.val = 5 then 16 else 20

/-- Sticky bits of word 1000h; event 223 + r on a new one (R524). -/
def stickBlk (b : Fin 25) (m : BitVec 4) (s : State) : State :=
  raiseIf (fresh s.flt.blocks[b].sticky m) (223 + (blockRegion b).val) (modBlk b (fun x => { x with sticky := x.sticky ||| m }) s)

/-- Sticky bits of word 1001h and of word 1002h; event 229 on a new one (R524). -/
def stickFatal (m : BitVec 2) (s : State) : State :=
  raiseIf (fresh s.flt.sticky m) 229 { s with flt := { s.flt with sticky := s.flt.sticky ||| m } }
def stickInj (m : BitVec 2) (s : State) : State :=
  raiseIf (fresh s.flt.injSticky m) 229 { s with flt := { s.flt with injSticky := s.flt.injSticky ||| m } }

/-- The first-fault fields are set in the core cycle of the block's first fault: of the faults of that cycle the highest class, and
the lowest checker of that class (R515). -/
def firstFault (b : Fin 25) (cls : BitVec 2) (checker : BitVec 6) (s : State) : State :=
  modBlk b (fun x =>
    let before := decide (x.firstClass.toNat < cls.toNat) || (x.firstClass == cls && decide (checker.toNat < x.firstChecker.toNat))
    if x.firstClass == 0 || (x.firstAt = some (now s) && before) then
      { x with firstClass := cls, firstChecker := checker, firstAt := some (now s) }
    else x) s

/-- A record of a block's checker (R525). -/
def blockRecord (code : Half) (sev fc : BitVec 2) (b : Fin 25) (p2 p3 : Nat) (inj : Bool) (s : State) : State :=
  record code sev fc 11 (blockRegion b).val b.val p2 p3 s (if inj then 1 else 0)

/-- A corrected fault (Table 17-1). -/
def correctedFault (b : Fin 25) (checker : BitVec 6) (inj : Bool) (s : State) : State :=
  let s := modBlk b (fun x => { x with corrected := BitVec.ofNat 8 (min 255 (x.corrected.toNat + 1)) }) s
  let s := stickBlk b (if inj then 9 else 1) (firstFault b 1 checker s)
  blockRecord 0x1001 info 1 b checker.toNat s.flt.blocks[b].corrected.toNat inj s

/-- A contained fault; `stays` says that it degrades the block until it recovers (R514). -/
def containedFault (b : Fin 25) (checker : BitVec 6) (detail : Nat) (stays inj : Bool) (s : State) : State :=
  let s := modBlk b (fun x =>
    { x with degraded := if stays && !x.degraded.contains checker then x.degraded ++ [checker] else x.degraded }) s
  let s := stickBlk b (if inj then 10 else 2) (firstFault b 2 checker s)
  blockRecord 0x1002 error 2 b checker.toNat detail inj s

/-- A contained fault ends by itself: DEGRADED only (R514). -/
def recoverFault (b : Fin 25) (checker : BitVec 6) (s : State) : State :=
  modBlk b (fun x => { x with degraded := x.degraded.filter (· != checker) }) s

/-- An injection is armed (R520, R521). -/
def armed (j : Inject) : Bool := !j.armWait && j.armAt.isNone

/-- The injection ends: record 1006h (Table 17-9). -/
def injectEnd (j : Inject) (why : Nat) (s : State) : State :=
  note 0x1006 info 0 0 j.checker.toNat why j.fired { s with flt := { s.flt with inject := none } }

/-- The named check takes place: whether an armed injection makes it fire; a one-shot ends (R520). -/
def injTake (checker : BitVec 6) (b : Fin 25) (s : State) : Bool × State :=
  match s.flt.inject with
  | some j =>
    if armed j && j.checker == checker && j.block = b then
      let j := { j with fired := j.fired + 1 }
      if j.cont then (true, { s with flt := { s.flt with inject := some j } })
      else (true, injectEnd j 1 s)
    else (false, s)
  | none => (false, s)

/-- A block's contained fault of checker `c` is in force. -/
def inForce (b : Fin 25) (c : BitVec 6) (s : State) : Bool := s.flt.blocks[b].degraded.contains c

/-- NONCE and VNONCE as their replacement finds the source: a new value (R454, R494). -/
def newNonce (s : State) : State :=
  let r := random s
  { drew s with ks := { s.ks with nonce := BitVec.ofNat 32 r.toNat, nonceDue := false } }
def newVnonce (s : State) : State :=
  let r := random s
  { drew s with alm := { s.alm with vnonce := BitVec.ofNat 32 r.toNat, vnonceDue := false } }

/-- The source delivers again: what waits for a first random value takes it (R555). -/
def dueNonces (s : State) : State :=
  let s := if s.ks.nonceDue then newNonce s else s
  if s.alm.vnonceDue then newVnonce s else s

/-- Random numbers are asked for (R513, R514): the health test of checker 18h runs. While it fails, an injected failure
included, the command that needs them completes with FAULT_CONTAINED; the outcome of a test that follows a failure is a
free value. -/
def needRandom (s : State) : Bool × State :=
  let r := injTake 0x18 22 s
  if r.1 then
    let s := if inForce 22 0x18 r.2 then r.2 else containedFault 22 0x18 0 true true r.2
    (false, { s with flt := { s.flt with entropyBad := true } })
  else if s.flt.entropyBad then
    let s := drew r.2
    if (Config.freeWord r.2.clk.free).getLsbD 0 then
      let s := recoverFault 22 0x18 s
      (true, dueNonces { s with flt := { s.flt with entropyBad := false } })
    else (false, s)
  else (true, r.2)

end Sys2Proof.Machine
end

