-- ==== Sys2Proof/Machine/KeyTree.lean ====
section
/-! DEFINITION. The key tree (R448 to R451, Table 15-1), blobs (R457) and what a blob unwraps to. -/

namespace Sys2Proof.Machine

/-- ROOT as 16 bytes (R448). -/
def rootBytes : List Byte := be 16 Config.rootKey.toNat

/-- KP (Table 15-1). -/
def keyKP : List Byte := Crypto.cmac rootBytes [0x00, 0x50, 0x52, 0x4F, 0x56]

/-- RS(i, g) with diversifier `div` (Table 15-1). -/
def keyRS (i : Nat) (div : BitVec 64) (g : Word) : List Byte :=
  Crypto.cmac rootBytes ([0x01] ++ be 1 i ++ be 8 div.toNat ++ be 4 g.toNat)

/-- KEK(K) (Table 15-1). -/
def keyKEK (k : List Byte) : List Byte := Crypto.cmac k [0x02, 0x57, 0x52, 0x41, 0x50]

def rootstock (i : Fin 32) (s : State) : Rootstock := s.ks.roots[i]

/-- The current value of a rootstock (R450). -/
def rootValue (i : Fin 32) (s : State) : List Byte := keyRS i.val (rootstock i s).div (rootstock i s).gen

/-- The rootstock that holds a role other than general (R451). -/
def roleHolder (role : BitVec 2) (s : State) : Option (Fin 32) :=
  ((List.range 32).map (Fin.ofNat 32)).find? fun i => (rootstock i s).st != .unset && (rootstock i s).role == role

/-- A 64-byte blob opened under its own generation: the plaintext of Table 15-4; none when MAGIC, the reserved bytes,
the unwrap or the copies in bytes 17 to 21 fail (R458). -/
def openBlob (b : List Byte) (s : State) : Option (List Byte) :=
  let i : Fin 32 := Fin.ofNat 32 (byteAt b 1).toNat
  if byteAt b 0 == 0xB5 && (byteAt b 1).toNat < 32 && zeroAt' b then
    match Crypto.keyUnwrap (keyKEK (keyRS i.val (rootstock i s).div (wordAt b 4))) (slice b 8 56) with
    | some p => if byteAt p 17 == byteAt b 1 && slice p 18 4 == slice b 4 4 && allZero (slice p 32 16) then some p else none
    | none => none
  else none
where
  /-- Bytes 2 and 3 are reserved (Table 15-3). -/
  zeroAt' (b : List Byte) : Bool := byteAt b 2 == 0 && byteAt b 3 == 0

/-- A blob's rootstock is current: established, at the blob's generation. -/
def blobCurrent (b : List Byte) (s : State) : Bool :=
  let r := rootstock (Fin.ofNat 32 (byteAt b 1).toNat) s
  r.st = .established && r.gen == wordAt b 4

/-- What a token blob gives (R426, R435): serial, key, and whether its generation is current. -/
def tokenBlob (b : List Byte) (s : State) : Option (BitVec 20 × List Byte × Bool) :=
  let r := rootstock (Fin.ofNat 32 (byteAt b 1).toNat) s
  if r.st != .unset && r.role == 3 then
    match openBlob b s with
    | some p =>
      if byteAt p 16 == 2 && numAt p 22 3 = 0 && numAt p 25 3 < 2 ^ 20 && numAt p 28 4 = 0 then
        some (BitVec.ofNat 20 (numAt p 25 3), p.take 16, blobCurrent b s)
      else none
    | none => none
  else none

/-- The 64-byte wrapping of a plaintext under a rootstock, as a holder makes it (Table 15-3). -/
def makeBlob (i : Nat) (div : BitVec 64) (g : Word) (plain : List Byte) : List Byte :=
  [0xB5] ++ be 1 i ++ be 2 0 ++ be 4 g.toNat ++ Crypto.keyWrap (keyKEK (keyRS i div g)) plain

/-- A serial is revoked (R464). -/
def isRevoked (serial : Nat) (s : State) : Bool := s.ks.revoked.contains serial

/-! ### The shelf (R434 to R436) -/

def shelfAddr (n : Nat) : Nat := 0x200000 + 0x40 * n
def shelfBlob (n : Nat) (m : Memory) : List Byte := Mem.readN m (shelfAddr n) 64

/-- The lowest shelf slot that holds a token key of this serial, with its key and whether it is current. -/
def onShelf (serial : BitVec 20) (s : State) : Option (Nat × List Byte × Bool) :=
  (List.range 4096).findSome? fun n =>
    let b := shelfBlob n (nvView s)
    if byteAt b 0 == 0xB5 then
      match tokenBlob b s with
      | some (ser, k, cur) => if ser == serial then some (n, k, cur) else none
      | none => none
    else none

/-- The lowest free shelf slot: one that holds no blob. -/
def freeShelf (m : Memory) : Option Nat := (List.range 4096).find? fun n => allZero (shelfBlob n m)

/-- Write non-volatile bytes with D15 on. -/
def nvWrite (addr : Nat) (bs : List Byte) (s : State) : State := touch 15 { s with nv := Mem.write s.nv addr bs }

/-! ### The token key cache (R434) -/

def modAcc (f : AccSt → AccSt) (s : State) : State := { s with acc := f s.acc }

def dropCached (serial : BitVec 20) (s : State) : State :=
  modAcc (fun x => { x with cache := x.cache.filter (·.serial != serial) }) s

/-- The entry used least recently leaves a full cache. -/
def evict (l : List CacheKey) : List CacheKey :=
  if l.length < 16 then l
  else
    let oldest := l.foldl (fun m c => min m c.used) (l.headD ⟨0, [], 0⟩).used
    l.filter (·.used ≠ oldest)

/-- Add or renew a key of the cache; it is the one used last. -/
def cacheKey (serial : BitVec 20) (key : List Byte) (s : State) : State :=
  modAcc (fun x =>
    let rest := x.cache.filter (·.serial != serial)
    { x with cache := evict rest ++ [⟨serial, key, x.uses⟩], uses := x.uses + 1 }) s

def cached (serial : BitVec 20) (s : State) : Option (List Byte) := (s.acc.cache.find? (·.serial == serial)).map (·.key)

end Sys2Proof.Machine
end

