-- ==== Sys2Proof/Machine/Reflex.lean ====
section
/-! DEFINITION. The reflex table (chapter 11): writing and reading entries, evaluation, firing, timers and the
proximity gate. -/

namespace Sys2Proof.Machine

/-- The engine evaluates: D00 on and ready (R352, Table 11-5). -/
def reflexRuns (s : State) : Bool := domOn 0 s && ready s

def rfxClock (s : State) : Nat := s.clk.d00Clock

/-! ### Fields of Table 11-1 -/

def rfxProx (img : List Byte) : Bool := (byteAt img 0).getLsbD 6
def rfxNotify (img : List Byte) : Bool := (byteAt img 1).getLsbD 5
def rfxAct (img : List Byte) : Bool := (byteAt img 1).getLsbD 4
def qualType (img : List Byte) : Nat := (byteAt img 0).toNat / 16 % 4
def rfxOpcode (img : List Byte) : Half := halfAt img 20
def rfxPayLen (img : List Byte) : Nat := numAt img 22 2
def rfxDelay (img : List Byte) : Nat := numAt img 4 4 * 10 * Config.ms
def rfxRearm (img : List Byte) : Nat := (byteAt img 16).toNat * 10 * Config.ms
def rfxWait (img : List Byte) : Nat := (byteAt img 17).toNat * 10 * Config.ms

/-- The qualifier of R346 is met. -/
def qualMet (img : List Byte) (s : State) : Bool :=
  let i := (byteAt img 2).toNat
  let level := (byteAt img 3).getLsbD 0
  match qualType img with
  | 0 => true
  | 1 => let x := s.io.sw[Fin.ofNat 64 i]; x.valid && x.closed == level
  | 2 => let x := s.io.fi[Fin.ofNat 16 i]; x.valid && x.value == level
  | _ => false

/-- Trigger detail of the records of Table 11-6. -/
def occDetail : OccKind → Nat
  | .swEdge i _ => i
  | .fiChange i _ => i
  | .token ser _ => ser.toNat
  | .timer _ => 0
  | .frame _ _ _ id _ => id
  | .event e => e

/-! ### Firing (R347, R348, R351) -/

/-- The stored packet (R348). -/
def storedPacket (i : Fin 128) (img : List Byte) (s : State) : Packet :=
  { host := 11, replyWanted := false, auth := false, chain := false, member := s.boot.member.setWidth 4
    prio := BitVec.ofNat 2 ((byteAt img 1).toNat / 64), opcode := rfxOpcode img, tag := BitVec.ofNat 16 i.val
    hostSeq := 0, keySlot := 0xFF, time := none, payload := slice img 24 (rfxPayLen img), cmac := [] }

/-- Start the timer of entry NEXT_TIMER (R347 step 2). -/
def startTimer (i : Fin 128) (img : List Byte) (s : State) : State :=
  if (byteAt img 18).getLsbD 7 then
    let n : Fin 128 := Fin.ofNat 128 (byteAt img 18).toNat
    let e := s.rfx.entries[n]
    if entryEnabled e.image && trigType e.image = 4 then
      modRfx n (fun x => { x with timerAt := some (rfxClock s + rfxDelay e.image) }) s
    else stickRfx i 0b0100 (modRfx i (fun x => { x with lastStatus := stBadParam }) s)
  else s

/-- An entry fires on an occurrence (R347): its steps are taken in this core cycle, in the order of the firings. -/
def fire (i : Fin 128) (o : Occ) (s : State) : State :=
  { s with rfx := { s.rfx with fired := s.rfx.fired ++ [(i, s.rfx.entries[i].image, o)] } }

/-- Steps 2 to 4 of a firing (R347). -/
def firedRest (i : Fin 128) (img : List Byte) (o : Occ) (s : State) : State :=
  let s := startTimer i img s
  let s := if rfxNotify img then raiseEv 234 (modRfx i (fun x => { x with sticky := x.sticky ||| 0b1000 }) s) else s
  note 0x0901 info 16 i.val (trigType img) (occDetail o.kind) ((now s - o.at_) / Config.us) s

/-- A wait ends without firing (R351): why 1 far, 2 no verdict. -/
def deny (i : Fin 128) (why : Nat) (s : State) : State :=
  match s.rfx.entries[i].waiting with
  | none => s
  | some (o, from_, _) =>
    let s := stickRfx i 0b0010 (modRfx i (fun x => { x with waiting := none }) s)
    note 0x0903 warning 16 i.val why (occDetail o.kind) ((rfxClock s - from_) / Config.ms) s

/-- A verdict counts for an occurrence (R351, R440): of a token, only one that names it and that was measured no earlier
than the challenge frame that released it. -/
def verdictCounts (v : Verdict) (k : OccKind) (s : State) : Bool :=
  match k with
  | .token ser _ => v.serial == ser && s.acc.released.any (fun r => r.1 == ser && decide (r.2 ≤ v.measured))
  | _ => true

/-- A near verdict held at acceptance, no older than PROX_WAIT (R351, R440). -/
def nearHeld (k : OccKind) (wait : Nat) (s : State) : Bool :=
  s.acc.verdicts.any fun v => v.near && verdictCounts v k s && decide (zone s ≤ v.measured + wait)

/-- An enabled entry whose trigger matches meets an occurrence (R346, R347, R351). -/
def meet (o : Occ) (i : Fin 128) (s : State) : State :=
  let e := s.rfx.entries[i]
  if entryEnabled e.image && trigMatches i.val e.image o.kind then
    if decide (rfxClock s < e.holdUntil) || e.waiting.isSome then stickRfx i 0b0001 s
    else if qualMet e.image s then
      let s := modRfx i (fun x => { x with holdUntil := rfxClock s + rfxRearm e.image }) s
      if rfxProx e.image && !nearHeld o.kind (rfxWait e.image) s then
        modRfx i (fun x => { x with waiting := some (o, rfxClock s, rfxClock s + rfxWait e.image) }) s
      else fire i o s
    else s
  else s

/-- The earliest occurrence in zone time, and the others in order (R346). -/
def takeOcc : List Occ → Option (Occ × List Occ)
  | [] => none
  | o :: r =>
    match takeOcc r with
    | none => some (o, [])
    | some (b, rest) => if b.zone < o.zone then some (b, o :: rest) else some (o, r)

/-- REFLEX_EVALUATE: the engine takes the next occurrence (R346); the freed place lets the discarded ones be counted
(R352). -/
def reflexEvaluate (s : State) : State :=
  if reflexRuns s then
    match takeOcc s.rfx.occs with
    | none => s
    | some (o, rest) =>
      let s := { s with rfx := { s.rfx with occs := rest } }
      let s := if s.rfx.discarded = 0 then s
        else note 0x0905 warning 0 0 s.rfx.discarded 0 0 { s with rfx := { s.rfx with discarded := 0 } }
      (List.range 128).foldl (fun s i => meet o (Fin.ofNat 128 i) s) s
  else s

/-- REFLEX_TIMER_EXPIRY (R345, R352). -/
def reflexTimerExpiry (i : Fin 128) (s : State) : State :=
  match s.rfx.entries[i].timerAt with
  | some t =>
    if reflexRuns s && decide (t ≤ rfxClock s) then
      pushOcc (.timer i.val) (modRfx i (fun x => { x with timerAt := none }) s)
    else s
  | none => s

/-- PROX_WAIT_EXPIRY (R351, R352). -/
def proxWaitExpiry (i : Fin 128) (s : State) : State :=
  match s.rfx.entries[i].waiting with
  | some (_, _, t) => if reflexRuns s && decide (t ≤ rfxClock s) then deny i 2 s else s
  | none => s

/-- A verdict arrives: every entry waiting on it, in ascending order (R351). -/
def proxArrived (v : Verdict) (s : State) : State :=
  (List.range 128).foldl (fun s n =>
    let i : Fin 128 := Fin.ofNat 128 n
    match s.rfx.entries[i].waiting with
    | some (o, _, _) =>
      if verdictCounts v o.kind s then
        if v.near then fire i o (modRfx i (fun x => { x with waiting := none }) s) else deny i 1 s
      else s
    | none => s) s

/-! ### Opcodes (R355, R356) -/

/-- Reserved bits of the trigger parameter are 0 (R13, Table 11-2). -/
def trigReserved (b : List Byte) : Bool :=
  let z (lo hi : Nat) : Bool := allZero ((b.drop lo).take (hi + 1 - lo))
  match trigType b with
  | 0 => z 4 15
  | 1 | 2 => z 6 15
  | 3 => onlyBits 4 0x0F b && onlyBits 7 0x0F b && onlyBits 10 0x3F b && z 11 15
  | 4 => z 8 15
  | 5 => onlyBits 4 0x3F b && z 7 7 && onlyBits 8 0x1F b && onlyBits 12 0x1F b
  | 6 => z 5 15
  | _ => z 4 15

/-- Reserved bits of an entry image are 0. -/
def imageReserved (b : List Byte) : Bool :=
  onlyBits 1 0xF0 b && onlyBits 3 1 b && zeroAt [19] b && trigReserved b && qualType b != 3
    && (decide (40 < rfxPayLen b) || allZero (b.drop (24 + rfxPayLen b)))

/-- The trigger fields lie in Table 11-2 (R356). -/
def trigRange (b : List Byte) : Bool :=
  let edge := 1 ≤ (byteAt b 5).toNat && (byteAt b 5).toNat ≤ 3
  match trigType b with
  | 0 => true
  | 1 => (byteAt b 4).toNat < 64 && edge
  | 2 => (byteAt b 4).toNat < 16 && edge
  | 3 => true
  | 4 => 1 ≤ numAt b 4 4 && numAt b 4 4 ≤ 360000
  | 5 =>
    let p := (byteAt b 4).toNat % 16
    p < 6 || (8 ≤ p && !(byteAt b 4).getLsbD 5)
  | 6 => (byteAt b 4).toNat < 240 && (byteAt b 4).toNat ≠ 234 && byteAt b 16 != 0
  | _ => false

def rfxRange (b : List Byte) : Bool :=
  trigRange b && (!rfxProx b || byteAt b 17 != 0)
    && (qualType b = 0 || (byteAt b 2).toNat < (if qualType b = 1 then 64 else 16))

/-- The opcodes a reflex may inject (R349). -/
def rfxPermitted (op : Half) : Bool :=
  op == 0x0100 || op == 0x0200 || op == 0x0204 || op == 0x0500 || op == 0x0600 || op == 0x0800 || op == 0x0A05
    || op == 0x0D00 || op == 0x0D01

/-- Replace an entry: its timer, wait and hold-off are gone (R356). -/
def setEntry (i : Fin 128) (img : List Byte) (s : State) : State :=
  modRfx i (fun x => { x with image := img, timerAt := none, waiting := none, holdUntil := 0 }) s

/-- REFLEX_WRITE (R356). -/
def opReflexWrite : OpSpec :=
  chipOp 68 [0] (fun b => onlyBits 0 0x7F b && zeroAt [1, 2, 3] b && imageReserved (b.drop 4)) fun q s =>
    let b := q.pkt.payload
    let img := b.drop 4
    let i : Fin 128 := Fin.ofNat 128 (byteAt b 0).toNat
    if !rfxRange img then refuse 0x0940 s
    else if (rfxAct img && !rfxPermitted (rfxOpcode img)) || 40 < rfxPayLen img then refuse 0x0941 s
    else
      done .ok (note 0x0904 info 16 i.val q.pkt.host.val (trigType img) (rfxOpcode img).toNat (setEntry i img s))

/-- ENTRY_MASK: bit n is entry n, bit 0 the least significant bit of byte 15 (Table 11-4). -/
def entryMask (b : List Byte) (n : Nat) : Bool := (byteAt b (15 - n / 8)).getLsbD (n % 8)

def enableEntry (on : Bool) (i : Fin 128) (s : State) : State :=
  let img := s.rfx.entries[i].image
  let b0 := byteAt img 0
  if on then modRfx i (fun x => { x with image := (b0 ||| 0x80) :: img.drop 1 }) s
  else setEntry i ((b0 &&& 0x7F) :: img.drop 1) s

/-- REFLEX_ENABLE (R355, R356). -/
def opReflexEnable : OpSpec :=
  chipOp 20 [0] (fun b => onlyBits 16 1 b && zeroAt [17, 18, 19] b) fun q s =>
    let b := q.pkt.payload
    done .ok ((List.range 128).foldl (fun s n =>
      if entryMask b n then enableEntry (byteAt b 16 == 1) (Fin.ofNat 128 n) s else s) s)

/-- REFLEX_READ (R355). -/
def opReflexRead : OpSpec :=
  chipOp 4 [0] (fun b => onlyBits 0 0x7F b && zeroAt [1, 2, 3] b) fun q s =>
    done (.ok s.rfx.entries[Fin.ofNat 128 (byteAt q.pkt.payload 0).toNat].image) s

end Sys2Proof.Machine
end

