-- ==== Sys2Proof/Machine/Access.lean ====
section
/-! DEFINITION. Vehicle access (chapter 14): LF drivers, approach polling, the token exchange, the transponder, the
proximity verdicts, and the opcodes of family 0Dh. -/

namespace Sys2Proof.Machine

/-! ### Words, events and records -/

def modLf (n : Fin 6) (f : LfDrv → LfDrv) (s : State) : State := modAcc (fun x => { x with lf := x.lf.set n (f x.lf[n]) }) s

/-- Sticky bits of words 0D00h, 0D02h and 0D04h; events 198 + n, 205, 204 (R446). -/
def stickLf (n : Fin 6) (m : BitVec 4) (s : State) : State :=
  raiseIf (fresh s.acc.lf[n].sticky m) (198 + n.val) (modLf n (fun x => { x with sticky := x.sticky ||| m }) s)
def stickAcc (m : BitVec 8) (s : State) : State :=
  raiseIf (fresh s.acc.sticky m) 205 (modAcc (fun x => { x with sticky := x.sticky ||| m }) s)
def stickTp (m : BitVec 3) (s : State) : State :=
  raiseIf (fresh s.acc.stickyTp m) 204 (modAcc (fun x => { x with stickyTp := x.stickyTp ||| m }) s)

/-- A record of unit class 15 with the serial's low byte as its index (R447). -/
def accNote (code : Half) (sev : BitVec 2) (serial p1 p2 p3 : Nat) (s : State) : State :=
  note code sev 15 (serial % 256) p1 p2 p3 s

/-- Fields of words 0D01h and 0D03h. -/
def lfCur (x : LfDrv) : Nat := fld x.cfg 28 4
def pollSel (x : LfDrv) : Bool := x.cfg.getLsbD 27
def vehicleId (s : State) : Nat := fld s.acc.cfg 16 16
def pollPeriod (s : State) : Nat := fld s.acc.cfg 11 5 * 100 * Config.ms
def pollDays (s : State) : Nat := fld s.acc.cfg 5 6
def pollRetries (s : State) : Nat := fld s.acc.cfg 3 2
def pollEn (s : State) : Bool := s.acc.cfg.getLsbD 2

/-- The exchange timing of Table 14-5, in ns. -/
def tChallenge : Nat := 19 * Config.ms
def tOpen : Nat := 300 * Config.us
def tWindow : Nat := 16 * Config.ms
def tRPT : Nat := 1 * Config.ms
def tConfirm : Nat := 15 * Config.ms

/-- Drivers of a mask, ascending. -/
def lfList (m : BitVec 6) : List (Fin 6) := ((List.range 6).map (Fin.ofNat 6)).filter fun i => m.getLsbD i.val

/-! ### Approach polling (R424, R425) -/

/-- The pairs a poll takes: polled drivers in ascending index, two at a time. -/
def pairUp : List (Fin 6) → List (BitVec 6)
  | a :: b :: r => (BitVec.ofNat 6 (2 ^ a.val + 2 ^ b.val)) :: pairUp r
  | [a] => [BitVec.ofNat 6 (2 ^ a.val)]
  | [] => []

def pollPairs (s : State) : List (BitVec 6) :=
  pairUp (((List.range 6).map (Fin.ofNat 6)).filter fun i => pollSel s.acc.lf[i])

/-- One pair takes its frame of 6.0 ms, 0.3 ms and its window of 2 ms. -/
def tPair : Nat := 8300 * Config.us

/-- A poll is in progress. -/
def polling (s : State) : Bool :=
  s.acc.pollDue || s.acc.pollAt.any fun t => decide (now s < t + tPair * (pollPairs s).length)

/-- The listening window of pair `m` is open. -/
def pollWindow (m : BitVec 6) (s : State) : Bool :=
  s.acc.pollAt.any fun t => (List.range 3).any fun j =>
    (pollPairs s)[j]? == some m && decide (t + j * tPair + 6300 * Config.us ≤ now s) && decide (now s ≤ t + (j + 1) * tPair)

/-- The drivers take a frame: its peak current is a reading the spec leaves to the antenna (R421). -/
def lfFrame (m : BitVec 6) (s : State) : State :=
  (lfList m).foldl (fun s i =>
    let p := (Config.freeWord s.clk.free).toNat % 256
    modLf i (fun x => { x with peak := p, stopped := false }) (drew s)) s

/-- A poll whose domain is on begins. -/
def pollBegin (s : State) : State :=
  let s := touch 13 (modAcc (fun x => { x with pollAt := some (now s), pollDue := false, polls := x.polls + 1 }) s)
  (pollPairs s).foldl (fun s m => lfFrame m s) s

/-- APPROACH_POLL (R424): polls do not start during a challenge or confirmation. -/
def approachPoll (s : State) : State :=
  if pollEn s && !s.acc.stopped && s.acc.exch.isNone && !polling s
      && s.acc.lastPoll.all (fun t => decide (t + pollPeriod s ≤ aoTime s)) then
    let s := wakeInternal 13 (modAcc (fun x => { x with lastPoll := some (aoTime s), pollDue := true }) s)
    if domOn 13 s then pollBegin s else s
  else s

/-- BEACON_RECEIVED in the window of its pair (R424). -/
def beaconReceived (m : BitVec 6) (s : State) : State :=
  match lfList m with
  | i :: _ => if pollWindow m s then detect 6 i.val (stickLf i 0b1000 s) else s
  | [] => s

/-- Polling stops (R425). -/
def pollStop (byLimit : Bool) (s : State) : State :=
  let s := note 0x0D05 info 7 0 (pollDays s) s.acc.polls 0 (modAcc (fun x => { x with stopped := true }) s)
  if byLimit then stickAcc 0b00000001 s else s

def dayNs : Nat := 86400 * Config.sec

/-- POLL_DAY_LIMIT (R425). -/
def pollDayLimit (s : State) : State :=
  if !s.acc.stopped && decide (pollDays s * dayNs ≤ s.acc.park) then pollStop true s else s

/-! ### Keys and verdicts -/

/-- Where a token key is found (R428 step 4): its key, from the shelf or not; or UNKNOWN or ORPHANED. -/
inductive KeyFound where
  | key (k : List Byte) (shelf : Bool)
  | unknown
  | orphaned
  deriving DecidableEq, Repr

def findKey (serial : BitVec 20) (s : State) : KeyFound :=
  match cached serial s with
  | some k => .key k false
  | none =>
    match onShelf serial s with
    | some (_, k, true) => .key k true
    | some (_, _, false) => .orphaned
    | none => .unknown

/-- A check needs D14, and D15 for a key that is not in the cache. -/
def checkReady (serial : BitVec 20) (s : State) : Bool := cryptoReady s && ((cached serial s).isSome || domOn 15 s)

def checkWake (serial : BitVec 20) (s : State) : State :=
  let s := if cryptoReady s then s else wakeInternal 14 s
  if (cached serial s).isSome || domOn 15 s then s else wakeInternal 15 s

/-! ### The token exchange (R426 to R433) -/

/-- The slot a token with serial `ser` computes for seed `e` (R427). -/
def tokenSlot (ser : BitVec 20) (e : Nat) : Nat := ((ser.toNat / 2 ^ e) ^^^ (ser.toNat / 2 ^ (e + 10)) ^^^ e) % 8

/-- A seed none of the earlier attempts has used (R432): the drawn one, or the next unused after it. -/
def newSeed (used : List Nat) (draw : Nat) : Nat :=
  ((List.range 16).map fun i => (draw + i) % 16).find? (fun e => !used.contains e) |>.getD (draw % 16)

/-- A challenge frame goes out at `t` (R426, R432). -/
def challengeFrame (e : Exch) (t : Nat) (s : State) : State :=
  let r := random s
  let s := drew s
  let rd := be 8 (r.toNat % 2 ^ 64)
  let seed := newSeed e.seeds (r.toNat / 2 ^ 64 % 16)
  let e := { e with phase := 1, rd := rd, seed := seed, seeds := e.seeds ++ [seed], frameAt := t
                    frameZone := zone s + (t - now s), garbled := 0 }
  lfFrame e.drivers (modAcc (fun x => { x with exch := some e }) s)

/-- CHALLENGE starts on its drivers (R430, R444): D14 is woken for the checks. -/
def challengeStart (q : QPkt) (s : State) : State :=
  let b := q.pkt.payload
  let ready := needRandom s
  if !ready.1 then complete q (.err stContained) ready.2
  else
  let s := ready.2
  let e : Exch :=
    { q := q, drivers := BitVec.ofNat 6 (byteAt b 0).toNat, serial := BitVec.ofNat 20 (numAt b 2 3)
      mask := BitVec.ofNat 20 (numAt b 5 3), phase := 1, attempt := 0, rd := [], seed := 0, seeds := [], firstAt := now s
      frameAt := now s, frameZone := zone s, garbled := 0, garbledAll := 0, responses := 0, released := none, confAt := 0
      held := [], dead := false }
  wakeInternal 14 (challengeFrame e (now s) s)

/-- The drivers of an ended exchange are idle. -/
def lfIdle (s : State) : State :=
  modAcc (fun x => { x with lf := x.lf.map fun d => { d with stopped := false } }) s

/-- The exchange has ended without a release (R430, R442, R447). -/
def noToken (e : Exch) (s : State) : State :=
  let s := lfIdle (modAcc (fun x => { x with exch := none }) s)
  let s := stickAcc 0b00000100 s
  let s := note 0x0D03 info 15 0 (e.attempt + 1) e.responses (e.garbledAll ||| e.garbled).toNat s
  complete e.q (.err 0x0D41 (BitVec.ofNat 16 e.responses)) s

/-- PROX of the reply: 1 near, 2 far, by a verdict that counts (R440). -/
def proxCode (serial : BitVec 20) (from_ : Nat) (s : State) : Nat :=
  match s.acc.verdicts.find? (fun v => v.serial == serial && decide (from_ ≤ v.measured)) with
  | some v => if v.near then 1 else 2
  | none => 0

/-- The exchange has ended with a release: CHALLENGE completes with OK (R430, R442). -/
def exchangeDone (e : Exch) (r : Release) (s : State) : State :=
  let s := lfIdle (modAcc (fun x => { x with exch := none }) s)
  let data := be 3 r.serial.toNat ++ be 1 r.slot ++ be 1 (e.attempt + 1) ++ be 1 (min 255 e.responses)
    ++ be 1 (proxCode r.serial e.frameZone s) ++ [0]
  complete e.q (.ok data) s

def modExch (f : Exch → Exch) (s : State) : State := modAcc (fun x => { x with exch := x.exch.map f }) s

/-- Record 0D01h of a response (R433, R447). -/
def responseRecord (serial result slot : Nat) (e : Exch) (s : State) : State :=
  accNote 0x0D01 (if result ≤ 2 then info else warning) serial serial (result + slot * 256 + e.attempt * 4096)
    e.drivers.toNat s

/-- A slot gave GARBLED (R432, R433): one record a slot. -/
def garbled (slot : Nat) (e : Exch) (s : State) : State :=
  if e.garbled.getLsbD slot then s
  else
    responseRecord 0 6 slot e (stickAcc 0b00001000 (modExch (fun e =>
      { e with garbled := e.garbled ||| BitVec.ofNat 8 (2 ^ slot) }) s))

/-- The response stands as Table 14-2 lays it out, in the slot it names (R428 step 1). -/
def responseOk (slot : Nat) (b : List Byte) : Bool :=
  b.length = 17 && (crc16 (b.take 15)).toNat = numAt b 15 2 && (byteAt b 0).toNat / 32 = slot

/-- A release (R429): the session key, RELEASED_SEEN, record 0D02h, the TOKEN occurrence. -/
def release (e : Exch) (serial : BitVec 20) (slot : Nat) (key rt : List Byte) (s : State) : State :=
  let r : Release := ⟨serial, slot, Crypto.aes key (e.rd ++ rt), rt⟩
  let s := modExch (fun e => { e with released := some r }) s
  let s := modAcc (fun x => { x with released := (x.released.filter (·.1 != serial)) ++ [(serial, e.frameZone)] }) s
  let s := stickAcc 0b10000000 s
  let s := accNote 0x0D02 info serial.toNat serial.toNat slot ((now s - e.firstAt) / Config.us) s
  pushOcc (.token serial e.drivers) s

/-- Steps 3 to 5 of Table 14-3: the result and the key; `mac` is what the token sent, `msg` what it covers. -/
def tokenCheck (serial : BitVec 20) (msg mac : List Byte) (s : State) : Nat × List Byte × Bool :=
  if isRevoked serial.toNat s then (3, [], false)
  else match findKey serial s with
    | .unknown => (4, [], false)
    | .orphaned => (7, [], false)
    | .key k shelf => if (Crypto.cmac k msg).take mac.length == mac then (1, k, shelf) else (5, k, shelf)

/-- A response is checked in the order of Table 14-3 (R428, R431, R433). -/
def checkResponse (slot : Nat) (b : List Byte) (s : State) : State :=
  match s.acc.exch with
  | none => s
  | some e =>
    if !responseOk slot b then garbled slot e s
    else
      let serial : BitVec 20 := BitVec.ofNat 20 (numAt b 0 3)
      if (serial &&& e.mask) != (e.serial &&& e.mask) then s
      else
        let rt := slice b 3 8
        let msg := [0x10] ++ be 2 (vehicleId s) ++ e.rd ++ be 3 serial.toNat ++ be 1 slot ++ rt
        let r := tokenCheck serial msg (slice b 11 4) s
        let s := modExch (fun e => { e with responses := e.responses + 1 }) s
        let result := if r.1 = 1 && e.released.isSome then 2 else r.1
        let s := if r.1 = 1 || r.1 = 5 then (if r.2.2 then s else cacheKey serial r.2.1 s) else s
        let s := match result with
          | 3 => stickAcc 0b01000000 s
          | 4 | 7 => stickAcc 0b00100000 s
          | 5 => stickAcc 0b00010000 s
          | _ => s
        let s := responseRecord serial.toNat result slot e s
        if result = 1 then release e serial slot r.2.1 rt (cacheKey serial r.2.1 s) else s

/-- The responses that wait are checked, in the order they came (R428). -/
def drainResponses : Nat → State → State
  | 0, s => s
  | n + 1, s =>
    match s.acc.exch with
    | none => s
    | some e =>
      match e.held with
      | [] => s
      | (slot, b) :: rest =>
        let serial : BitVec 20 := BitVec.ofNat 20 (numAt b 0 3)
        if checkReady serial s then
          drainResponses n (checkResponse slot b (modExch (fun e => { e with held := rest }) (touch 14 s)))
        else checkWake serial s

/-- TOKEN_RESPONSE: a response arrives in its slot of the open window (R427, R428). -/
def tokenResponse (slot : Fin 8) (b : List Byte) (s : State) : State :=
  match s.acc.exch with
  | none => s
  | some e =>
    let open_ := e.frameAt + tChallenge + tOpen
    if e.phase == 1 && decide (open_ ≤ now s) && decide (now s ≤ open_ + tWindow) then
      drainResponses (e.held.length + 1) (modExch (fun e => { e with held := e.held ++ [(slot.val, b)] }) s)
    else s

/-- RESPONSE_WINDOW_END (R429, R432): the confirmation frame, a repeat, or the end. -/
def responseWindowEnd (s : State) : State :=
  match s.acc.exch with
  | none => s
  | some e =>
    let end_ := e.frameAt + tChallenge + tOpen + tWindow
    if e.phase == 1 && decide (end_ ≤ now s) && e.held.isEmpty then
      if e.released.isSome then lfFrame e.drivers (modExch (fun e => { e with phase := 3, confAt := now s }) s)
      else if e.garbled != 0 && decide (e.attempt < pollRetries s) then
        let r := needRandom s
        if r.1 then
          challengeFrame { e with attempt := e.attempt + 1, garbledAll := e.garbledAll ||| e.garbled } (now s + tRPT) r.2
        else complete e.q (.err stContained) (lfIdle (modAcc (fun x => { x with exch := none }) r.2))
      else noToken e s
    else s

/-- CONFIRMATION_SENT (R429, R430): the session key is discarded. -/
def confirmationSent (s : State) : State :=
  match s.acc.exch with
  | none => s
  | some e =>
    match e.released with
    | some r => if e.phase == 3 && decide (e.confAt + tConfirm ≤ now s) then exchangeDone e r s else s
    | none => s

/-- The driver is sending a frame. -/
def lfSending (n : Fin 6) (s : State) : Bool :=
  !s.acc.lf[n].stopped &&
  ((match s.acc.exch with
   | some e => e.drivers.getLsbD n.val &&
      ((e.phase == 1 && decide (e.frameAt ≤ now s) && decide (now s < e.frameAt + tChallenge))
        || (e.phase == 3 && decide (now s < e.confAt + tConfirm)))
   | none => false)
  || s.acc.pollAt.any fun t => (List.range 3).any fun j =>
      ((pollPairs s)[j]?).any (fun m => m.getLsbD n.val) && decide (t + j * tPair ≤ now s)
        && decide (now s < t + j * tPair + 6 * Config.ms))

/-- UHF_EN: high from 0.2 ms before each listening window until the window ends (R422). -/
def uhfEn (s : State) : Bool :=
  let in_ (open_ close : Nat) : Bool := decide (open_ ≤ now s + 200 * Config.us) && decide (now s < close)
  (s.acc.exch.any fun e => e.phase == 1 &&
      in_ (e.frameAt + tChallenge + tOpen) (e.frameAt + tChallenge + tOpen + tWindow))
    || s.acc.pollAt.any fun t => (List.range (pollPairs s).length).any fun j =>
      in_ (t + j * tPair + 6300 * Config.us) (t + (j + 1) * tPair)

/-- DSTATE of word 0D00h. -/
def lfState (n : Fin 6) (s : State) : Nat :=
  if lfSending n s then
    match s.acc.exch with
    | some e => if e.phase == 3 then 3 else 2
    | none => 1
  else 0

/-- LF_ANTENNA_FAULT (R421): a short stops the frame; an exchange whose drivers have all stopped ends. -/
def lfAntennaFault (n : Fin 6) (short : Bool) (peakMA : Nat) (s : State) : State :=
  if lfSending n s && decide (if short then lfCur s.acc.lf[n] * 100 + 500 ≤ peakMA else 2 * peakMA < lfCur s.acc.lf[n] * 100) then
    let s := modLf n (fun x => { x with peak := min 255 (peakMA / 10), stopped := x.stopped || short }) s
    let s := stickLf n (if short then 0b0010 else 0b0100) s
    let s := note 0x0D04 error 7 n.val (if short then 2 else 1) peakMA (lfCur s.acc.lf[n] * 100) s
    match s.acc.exch with
    | some e =>
      if short && (lfList e.drivers).all (fun i => s.acc.lf[i].stopped) then
        match e.released with
        | some r => exchangeDone e r s
        | none => noToken e s
      else s
    | none => s
  else s

/-! ### The transponder (R437, R438) -/

def tpStart (q : QPkt) (s : State) : State :=
  let ready := needRandom s
  if !ready.1 then complete q (.err stContained) ready.2
  else
  let s := ready.2
  let r := random s
  let s := wakeInternal 14 (drew s)
  modAcc (fun x => { x with tp := some ⟨q, be 8 (r.toNat % 2 ^ 64), now s, none, false⟩ }) s

/-- The uplink stands as R437 lays it out. -/
def uplinkOk (b : List Byte) : Bool := b.length = 11 && (crc16 (b.take 9)).toNat = numAt b 9 2 && (byteAt b 0).toNat / 16 = 3

/-- The verdict is written: 0 NONE, 1 VALID, 2 INVALID, 3 REVOKED (R438). -/
def tpFinish (t : TpEx) (verdict : Nat) (serial : BitVec 20) (s : State) : State :=
  let s := modAcc (fun x => { x with tp := none, verdict := BitVec.ofNat 2 verdict, tpSerial := serial }) s
  let s := stickTp (match verdict with | 1 => 0b001 | 0 => 0b100 | _ => 0b010) s
  let s := accNote 0x0D09 info serial.toNat serial.toNat verdict t.q.pkt.host.val s
  let code : Half := match verdict with | 1 => 0 | 2 => 0x0D45 | 3 => stRevoked | _ => 0x0D44
  complete t.q ⟨code, 0, be 3 serial.toNat ++ be 1 verdict⟩ s

/-- The answer of a closed window is judged once D14, and D15 for the shelf, are on. -/
def tpJudge (s : State) : State :=
  match s.acc.tp with
  | some t =>
    match t.answer with
    | some none => tpFinish t 0 s.acc.tpSerial s
    | some (some b) =>
      if !uplinkOk b then tpFinish t 2 s.acc.tpSerial s
      else
        let serial : BitVec 20 := BitVec.ofNat 20 (numAt b 0 3)
        if checkReady serial s then
          let msg := [0x30] ++ be 2 (vehicleId s) ++ t.rd ++ be 3 serial.toNat
          let r := tokenCheck serial msg (slice b 3 6) s
          tpFinish t (if r.1 = 1 then 1 else if r.1 = 3 then 3 else 2) serial (touch 14 s)
        else checkWake serial s
    | none => s
  | none => s

/-- TP_VERDICT: the window closes 60 ms after the field came on (Table 14-6). -/
def tpVerdict (answer : Option (List Byte)) (s : State) : State :=
  match s.acc.tp with
  | some t =>
    if t.answer.isNone && decide (t.startAt + 60 * Config.ms ≤ now s) then
      tpJudge (modAcc (fun x => { x with tp := some { t with answer := some answer } }) s)
    else s
  | none => s

/-! ### What waits for drivers and domains -/

/-- An exchange may start: none runs and no poll is in progress (R420, R424). -/
def exchFree (s : State) : Bool := s.acc.exch.isNone && !polling s

/-- A poll whose domain has come on begins. -/
def accPoll (s : State) : State := if s.acc.pollDue && domOn 13 s then pollBegin s else s
/-- Responses whose domains have come on are checked. -/
def accDrain (s : State) : State := s.acc.exch.elim s fun e => drainResponses e.held.length s
/-- An answer whose domains have come on is judged. -/
def accJudge (s : State) : State := if s.acc.tp.any (·.answer.isSome) then tpJudge s else s
/-- The first challenge that waits starts when it can. -/
def accStart (s : State) : State :=
  match s.acc.waits with
  | [] => s
  | q :: rest =>
    if exchFree s && domOn 13 s then challengeStart q (modAcc (fun x => { x with waits := rest }) s) else s

/-- A frame of the exchange is in progress. -/
def exchFrame (e : Exch) (s : State) : Bool :=
  (e.phase == 1 && decide (e.frameAt ≤ now s) && decide (now s < e.frameAt + tChallenge))
    || (e.phase == 3 && decide (now s < e.confAt + tConfirm))

/-- The transponder's downlink is in progress (Table 14-6). -/
def tpFrame (t : TpEx) (s : State) : Bool :=
  decide (t.startAt + 5 * Config.ms ≤ now s) && decide (now s < t.startAt + 29 * Config.ms)

/-- Exchanges a fatal fault has cut end after the frame in progress: no release, no confirmation, no answer (R554). -/
def accCut (s : State) : State :=
  let s := if s.acc.exch.any fun e => e.dead && !exchFrame e s then lfIdle (modAcc (fun x => { x with exch := none }) s) else s
  if s.acc.tp.any fun t => t.dead && !tpFrame t s then modAcc (fun x => { x with tp := none }) s else s

/-- What waits for drivers and domains goes on. -/
def accPump (s : State) : State := accStart (accJudge (accDrain (accPoll (accCut s))))

/-! ### Opcodes (R441 to R443) -/

def accRange : Half := 0x0D40

/-- CHALLENGE (R430, R442, R443). Byte 2 [7:4] lies above the 20 bits of SERIAL: a value there is taken as a serial above FFFFFh,
ACCESS_RANGE, and not as a reserved field (log entry 42). -/
def opChallenge : OpSpec :=
  { lenOk := fun b => b.length = 12
    resOk := fun b => onlyBits 0 0x3F b && zeroAt [1, 8, 9, 10, 11] b && onlyBits 5 0x0F b
    units := fun p _ =>
      let l := lfList (BitVec.ofNat 6 (byteAt p.payload 0).toNat)
      if l.isEmpty || 2 < l.length then [.chip] else l.map .lf
    doms := fun _ => [13]
    act := .whole fun q us s =>
      let b := q.pkt.payload
      let l := lfList (BitVec.ofNat 6 (byteAt b 0).toNat)
      if l.isEmpty || 2 < l.length || 15 < (byteAt b 2).toNat then refuse accRange s
      else if exchFree s && s.acc.waits.isEmpty then (none, challengeStart q s)
      else
        (none, us.foldl (fun s u => match u with | .lf n => stickLf n 0b0001 s | _ => s)
          (modAcc (fun x => { x with waits := x.waits ++ [q] }) s)) }

/-- TP_CHALLENGE (R437, R442): its unit's queue keeps a second one waiting. -/
def opTpChallenge : OpSpec :=
  { lenOk := fun b => b.length = 4, resOk := allZero, units := fun _ _ => [.tp], doms := fun _ => []
    act := .whole fun q _ s => (none, tpStart q s) }

/-- Masks of ACCESS_CONFIG's WRITE bits in the images of words 0D01h and 0D03h (R442). -/
def accFields1 : List (Nat × Nat × Nat) := [(0, 28, 4), (1, 27, 1)]
def accFields3 : List (Nat × Nat × Nat) := [(2, 16, 16), (3, 11, 5), (4, 5, 6), (5, 3, 2), (6, 2, 1)]

def takeFields (w : Nat) (img : Word) (fs : List (Nat × Nat × Nat)) (x : Word) : Word :=
  fs.foldl (fun x f => if w.testBit f.1 then setFld x f.2.1 f.2.2 (fld img f.2.1 f.2.2) else x) x

def accessOk (c1 c3 : Word) : Bool :=
  1 ≤ fld c1 28 4 && 1 ≤ fld c3 11 5 && fld c3 11 5 ≤ 20 && 1 ≤ fld c3 5 6

/-- ACCESS_CONFIG on one driver; the chip-wide fields are the same for each (R442, R443). -/
def accessConfigOne (q : QPkt) (u : UnitRef) (s : State) : UnitRes × State :=
  match u with
  | .lf n =>
    let b := q.pkt.payload
    let w := (byteAt b 1).toNat
    let c1 := takeFields w (wordAt b 4) accFields1 s.acc.lf[n].cfg
    let c3 := takeFields w (wordAt b 8) accFields3 s.acc.cfg
    if accessOk c1 c3 then (unitRes u 0, modAcc (fun x => { x with cfg := c3 }) (modLf n (fun x => { x with cfg := c1 }) s))
    else (unitRes u 0xA0, s)
  | _ => (unitRes u 0, s)

def accStatus (o : Nat) : Half × Half := if o = 0xA0 then (accRange, 0) else outcomeStatus o

def opAccessConfig : OpSpec :=
  { lenOk := fun b => b.length = 12
    resOk := fun b => onlyBits 0 0x3F b && onlyBits 1 0x7F b && zeroAt [2, 3] b && onlyBits 4 0xF8 b && zeroAt [5, 6, 7] b
      && onlyBits 11 0xFC b
    units := fun p _ => (lfList (BitVec.ofNat 6 (byteAt p.payload 0).toNat)).map .lf
    doms := fun _ => []
    act := .perUnit accessConfigOne fun q rs _ => outcomesAns accStatus q rs }

/-- What R435 checks of a blob for a serial: BLOB_INVALID, ORPHANED, REVOKED, in that order, else its key. -/
def enrolCheck (serial : Nat) (blob : List Byte) (s : State) : Half ⊕ List Byte :=
  match tokenBlob blob s with
  | none => .inl 0x0D43
  | some (ser, k, cur) =>
    if ser.toNat ≠ serial then .inl 0x0D43
    else if !cur then .inl stOrphaned
    else if isRevoked serial s then .inl stRevoked
    else .inr k

/-- TOKEN_ENROL (R435, R442). -/
def opTokenEnrol : OpSpec :=
  { chipOp 72 [14] (fun b => onlyBits 3 1 b && zeroAt [4, 5, 6, 7] b) (fun q s =>
      let b := q.pkt.payload
      let serial := numAt b 0 3
      let ser : BitVec 20 := BitVec.ofNat 20 serial
      if 2 ^ 20 ≤ serial then refuse accRange s
      else match enrolCheck serial (b.drop 8) s with
        | .inl c => refuse c s
        | .inr k =>
          if (byteAt b 3).getLsbD 0 then
            match ((onShelf ser s).map (·.1)).or (freeShelf (nvView s)) with
            | none => refuse 0x0D42 s
            | some n =>
              let s := nvQueue 5 (shelfAddr n) (b.drop 8) none s
              done (.ok (be 2 n)) (accNote 0x0D07 info serial serial n q.pkt.host.val s)
          else
            done (.ok (be 2 0xFFFF)) (accNote 0x0D07 info serial serial 0xFFFF q.pkt.host.val (cacheKey ser k s)))
    with inner := fun _ _ => [14, 15] }

/-- TOKEN_LOAD (R435, R442). -/
def opTokenLoad : OpSpec :=
  { chipOp 68 [14] (fun b => zeroAt [3] b) (fun q s =>
      let b := q.pkt.payload
      let serial := numAt b 0 3
      if 2 ^ 20 ≤ serial then refuse accRange s
      else match enrolCheck serial (b.drop 4) s with
        | .inl c => refuse c s
        | .inr k => done .ok (cacheKey (BitVec.ofNat 20 serial) k s))
    with inner := fun _ _ => [14] }

/-- The serial's shelf slot is erased, if it has one (R436). -/
def eraseShelf (ser : BitVec 20) (s : State) : State :=
  match onShelf ser s with
  | some (n, _, _) => nvQueue 5 (shelfAddr n) (List.replicate 64 0) none s
  | none => s

/-- TOKEN_REMOVE (R436). -/
def opTokenRemove : OpSpec :=
  { chipOp 4 [14] (fun b => zeroAt [3] b) (fun q s =>
      let serial := numAt q.pkt.payload 0 3
      if 2 ^ 20 ≤ serial then refuse accRange s
      else
        let ser : BitVec 20 := BitVec.ofNat 20 serial
        done .ok (accNote 0x0D08 warning serial serial q.pkt.host.val 2 (dropCached ser (eraseShelf ser s))))
    with inner := fun _ _ => [14, 15] }

/-- TOKEN_REVOKE (R436, R464): it completes with the commit of its update. -/
def opTokenRevoke : OpSpec :=
  { chipOp 4 [14] (fun b => zeroAt [3] b) (fun q s =>
      let serial := numAt q.pkt.payload 0 3
      if 2 ^ 20 ≤ serial then refuse accRange s
      else
        (none, wakeInternal 15 { s with ks := { s.ks with updates := s.ks.updates ++ [(.revoke (BitVec.ofNat 20 serial), q)] } }))
    with inner := fun _ _ => [14] }

/-- What a committed revocation does beside the bitmap (R436). -/
def revoked (ser : BitVec 20) (s : State) : State :=
  let s := dropCached ser (eraseShelf ser s)
  modAcc (fun x => { x with verdicts := x.verdicts.filter (·.serial != ser) }) s

/-- A verdict is held: it replaces the one of its serial, or the oldest of 8 (R439). -/
def holdVerdict (v : Verdict) (l : List Verdict) : List Verdict :=
  let r := l.filter (·.serial != v.serial)
  (if r.length < 8 then r else r.drop 1) ++ [v]

/-- PROX_VERDICT (R439, R442). -/
def opProxVerdict : OpSpec :=
  chipOp 16 [14] (fun b => zeroAt [14, 15] b) fun q s =>
    let b := q.pkt.payload
    let serial := numAt b 0 3
    let v := (byteAt b 3).toNat
    let m := numAt b 4 8
    if 2 ^ 20 ≤ serial || (v ≠ 1 && v ≠ 2) then refuse accRange s
    else if zone s + Config.ms < m || m + 10 * Config.sec < zone s then refuse 0x0D46 s
    else
      let x : Verdict := ⟨BitVec.ofNat 20 serial, v = 1, m⟩
      let s := modAcc (fun a => { a with verdicts := holdVerdict x a.verdicts }) s
      let s := accNote 0x0D0A info serial serial v (numAt b 12 2) (stickAcc 0b00000010 s)
      done .ok (proxArrived x s)

/-- ACCESS_POLL (R425, R442). -/
def opAccessPoll : OpSpec :=
  chipOp 4 [13] (fun b => zeroAt [1, 2, 3] b) fun q s =>
    match (byteAt q.pkt.payload 0).toNat with
    | 0 => done .ok (if s.acc.stopped then s else pollStop false s)
    | 1 => done .ok (pollResume 0 q.pkt.host.val s)
    | _ => refuse accRange s

end Sys2Proof.Machine
end

