-- ==== Sys2Proof/Machine/AlmStore.lean ====
section
/-! DEFINITION. The almanac's places in the non-volatile die (Table 16-1, Table 16-5): records and snapshots as bytes,
the slots of rings, vault and watch points, and what a flush writes where (R486, R489 to R492, R497, R498). -/

namespace Sys2Proof.Machine

/-! ### Records as bytes -/

/-- The 16-bit source field (R478). -/
def Rec.source (r : Rec) : Nat := r.member.toNat * 16384 + r.cls.toNat * 256 + r.idx.toNat

/-- Bytes 4 to 31 of a record (Table 16-3). -/
def Rec.body (r : Rec) : List Byte :=
  be 6 r.life.toNat ++ be 4 r.wall.toNat ++ be 2 r.code.toNat ++ be 2 r.source
    ++ be 1 (r.sev.toNat * 64 + r.fc.toNat * 16 + r.flags.toNat) ++ [r.supp]
    ++ be 4 r.p1.toNat ++ be 4 r.p2.toNat ++ be 4 r.p3.toNat

def Rec.bytes (r : Rec) : List Byte := be 4 r.seq.toNat ++ r.body

/-- The 256 bytes of a snapshot (R497). -/
def snapBytes (h : Rec) (ws : List Word) : List Byte := h.bytes ++ ws.flatMap fun w => be 4 w.toNat

def Staged.head : Staged → Rec
  | .record r => r
  | .snapshot _ h _ => h
def Staged.bytes : Staged → List Byte
  | .record r => r.bytes
  | .snapshot _ h ws => snapBytes h ws
/-- Entries of 32 bytes it takes in staging (R484). -/
def Staged.size : Staged → Nat
  | .record _ => 1
  | .snapshot _ _ _ => 8

/-- Entries in use. -/
def usedEntries (l : List Staged) : Nat := (l.map Staged.size).sum

/-! ### Sequence numbers (R479) -/

/-- `a` comes before `b`: their difference modulo 2^32 as a signed number. -/
def seqBefore (a b : Nat) : Bool := decide ((BitVec.ofNat 32 a - BitVec.ofNat 32 b).toInt < 0)

/-- The value after `w`; after FFFFFFFFh comes 1. -/
def nextSeq (w : Word) : Word := if w == 0xFFFFFFFF then 1 else w + 1

/-! ### Slots of the die -/

/-- The cells of [base, base + len). -/
def cellsIn (base len : Nat) (m : Memory) : Memory := m.filter fun c => decide (base ≤ c.1) && decide (c.1 < base + len)

/-- The numbers of the slots that hold any listed byte, ascending. -/
def touched (base stride : Nat) : Memory → List Nat
  | [] => []
  | c :: r =>
    let k := (c.1 - base) / stride
    match touched base stride r with
    | [] => [k]
    | j :: l => if j = k then j :: l else k :: j :: l

/-- The slots with a SEQ: slot number and its first 32 bytes. -/
def slotsIn (base stride len : Nat) (m : Memory) : List (Nat × List Byte) :=
  let cs := cellsIn base len m
  ((touched base stride cs).map fun k => (k, Mem.readN cs (base + stride * k) 32)).filter fun e => numAt e.2 0 4 ≠ 0

def ringBase (g : Nat) : Nat := 0x300000 + 0x8000 * g
def ringSlots (g : Nat) (m : Memory) : List (Nat × List Byte) := slotsIn (ringBase g) 32 0x8000 m
def vaultBase : Nat := 0xC00000
def vaultCap : Nat := 1703936
def watchBase (w : Nat) : Nat := 0x800000 + 0x40000 * w
def watchSlots (w : Nat) (m : Memory) : List (Nat × List Byte) := slotsIn (watchBase w) 256 0x40000 m

def seqOf (b : List Byte) : Nat := numAt b 0 4
def sevOf (b : List Byte) : Nat := (byteAt b 18).toNat / 64

/-- Ring of a unit class and index (Table 16-5). -/
def ringOf (cls idx : Nat) : Nat :=
  match cls with
  | 1 => idx
  | 2 => 96 + idx
  | 3 => 112 + idx
  | 4 => 116 + idx
  | 5 | 6 => 158
  | 7 | 15 => 154
  | 8 => 138 + idx
  | 9 => 144 + idx
  | 10 => 152 + idx
  | 11 => if idx < 6 then 132 + idx else 157
  | 12 => 156
  | 13 | 14 => 155
  | 17 => 159
  | _ => 157

/-- The entry with the lowest SEQ. -/
def lowestSeq : List (Nat × List Byte) → Option (Nat × List Byte)
  | [] => none
  | e :: r => match lowestSeq r with
    | none => some e
    | some f => if seqBefore (seqOf f.2) (seqOf e.2) then some f else some e

/-- The first slot number below `cap` that is not taken; the taken ones ascend. -/
def freeSlot (taken : List Nat) : Nat := taken.foldl (fun n k => if k = n then n + 1 else n) 0

/-! ### What a flush writes (R485, R486, R490 to R492, R498) -/

/-- A flush under way on paper: the die, the rings, the watch points, VAULT_FILL, and every write in order. -/
structure FlushAcc where
  m       : Memory
  rings   : Vector Ring 160
  watches : Vector Watch 16
  fill    : Nat
  writes  : List (Nat × List Byte)
  refused : Bool

/-- One write in place. -/
def FlushAcc.put (addr : Nat) (b : List Byte) (a : FlushAcc) : FlushAcc :=
  { a with m := Mem.write a.m addr b, writes := a.writes ++ [(addr, b)] }

/-- The slot of ring `g` that a record of severity `sev` takes; none when the full ring refuses it (R490). -/
def ringChoice (g : Nat) (sev : Nat) (m : Memory) : Option (Nat × Bool) :=
  let l := ringSlots g m
  if l.length < 1024 then some (freeSlot (l.map (·.1)), false)
  else
    let low := l.foldl (fun v e => min v (sevOf e.2)) 3
    if sev < low then none
    else (lowestSeq (l.filter fun e => sevOf e.2 = low)).map fun e => (e.1, true)

/-- A record goes to the ring of its source. -/
def flushRing (r : Rec) (a : FlushAcc) : FlushAcc :=
  let g : Fin 160 := Fin.ofNat 160 (ringOf r.cls.toNat r.idx.toNat)
  match ringChoice g.val r.sev.toNat a.m with
  | some (k, over_) =>
    let a := a.put (ringBase g.val + 32 * k) r.bytes
    if over_ then { a with rings := a.rings.set g { a.rings[g] with over_ := a.rings[g].over_ + 1 } } else a
  | none => { a with rings := a.rings.set g { a.rings[g] with refused := true }, refused := true }

/-- VAULT_EN and VAULT_MIN_SEV of word 0F05h. -/
def vaultEn (w : Word) : Bool := w.getLsbD 29
def vaultMinSev (w : Word) : Nat := fld w 30 2

/-- Eligible for the vault (R492); record 0F03h is written whatever VAULT_MIN_SEV (R493). -/
def vaultTakes (cfg : Word) (r : Rec) : Bool :=
  vaultEn cfg && (decide (vaultMinSev cfg ≤ r.sev.toNat) || r.code == 0x0F03)

def flushVault (cfg : Word) (r : Rec) (a : FlushAcc) : FlushAcc :=
  if vaultTakes cfg r && a.fill < vaultCap then
    { a.put (vaultBase + 32 * a.fill) r.bytes with fill := a.fill + 1 }
  else a

/-- A snapshot goes to its watch point; a full one overwrites the snapshot with the lowest SEQ (R498). -/
def flushSnap (w : Fin 16) (h : Rec) (ws : List Word) (a : FlushAcc) : FlushAcc :=
  let l := watchSlots w.val a.m
  let full := decide (1024 ≤ l.length)
  let k := if full then (lowestSeq l).elim 0 (·.1) else freeSlot (l.map (·.1))
  let a := a.put (watchBase w.val + 256 * k) (snapBytes h ws)
  if full then { a with watches := a.watches.set w { a.watches[w] with over_ := a.watches[w].over_ + 1 } } else a

def flushOne (cfg : Word) (x : Staged) (a : FlushAcc) : FlushAcc :=
  match x with
  | .record r => flushVault cfg r (flushRing r a)
  | .snapshot w h ws => flushSnap w h ws a

/-- What writing the staged items `l` does to the die, after the writes of the flushes' class that wait already. -/
def flushPlan (l : List Staged) (s : State) : FlushAcc :=
  l.foldl (fun a x => flushOne s.alm.cfg x a)
    { m := nvUpTo 3 s, rings := s.alm.rings, watches := s.alm.watches, fill := s.alm.fill, writes := [], refused := false }

/-- Snapshots a watch point holds, staged ones included. -/
def watchHeld (w : Fin 16) (s : State) : Nat :=
  min 1024 ((watchSlots w.val (nvUpTo 3 s)).length
    + (s.alm.staging.filter fun x => match x with | .snapshot v _ _ => v = w | _ => false).length)

end Sys2Proof.Machine
end

