-- ==== Sys2Proof/Machine/Prot.lean ====
section
/-! DEFINITION. Channel protection and diagnosis (chapter 06): thresholds, envelopes, the wire model, trips, the
restart decision, learning, diagnosis, and the commands of family 03h. Currents in uA unless a name says mA. -/

namespace Sys2Proof.Machine

/-! ### Thresholds (Tables 6-2, 6-3, 6-4, 6-9) -/

/-- Static latch threshold in mA (Table 6-2). -/
def staticMA (cls step : Nat) : Nat :=
  ([[12000, 18000, 24000, 30000, 40000, 50000, 65000, 80000], [4000, 6000, 8000, 10000, 14000, 18000, 24000, 32000],
    [800, 1200, 1600, 2400, 3200, 4500, 6000, 8000]].getD cls []).getD step 0

/-- ISCL in mA (Table 6-3). -/
def isclMA (cls : Nat) : Nat := [160000, 64000, 16000].getD cls 0

/-- Peak step in uA and the largest ENV_PEAK (Table 6-4). -/
def peakStep (cls : Nat) : Nat := [1000000, 250000, 62500].getD cls 0
def peakMax (cls : Nat) : Nat := if cls = 0 then 150 else 240

/-- tRTY in ns (Table 6-9). -/
def tRTY (code : Nat) : Nat :=
  ([5, 20, 100, 500, 1000, 2000, 5000, 10000, 20000, 50000, 100000, 200000, 500000, 1000000, 2000000, 5000000].getD code 0)
    * Config.us

/-- tCLN (R217). -/
def tCLN : Nat := 60 * Config.sec

def ocStep (c : OutSt) : Nat := fld c.cfg1 29 3
def tripLatch (c : OutSt) : Bool := c.cfg1.getLsbD 28
def retrySet (c : OutSt) : Nat := fld c.cfg1 24 4
def staticUA (n : Fin 96) (c : OutSt) : Nat := staticMA (outClass n) (ocStep c) * 1000

/-! ### Envelopes (R204 to R210) -/

/-- Largest k up to `hi` with k^h * 2^m at most d^h, by bisection. -/
def decayRoot (d h m : Nat) : Nat → Nat → Nat → Nat
  | 0, lo, _ => lo
  | fuel + 1, lo, hi =>
    let mid := (lo + hi + 1) / 2
    if lo = hi then lo
    else if mid ^ h * 2 ^ m ≤ d ^ h then decayRoot d h m fuel mid hi
    else decayRoot d h m fuel lo (mid - 1)

/-- d * 2^(-m/h), rounded down (R205). -/
def decayed (d h m : Nat) : Nat := decayRoot d h m 20 0 d

/-- The window of R209 that holds t us, and its end in us (Table 6-5). -/
def windowEnds : List Nat := [250, 500, 1000, 2000, 4000, 8000, 16000, 32000, 64000, 128000]
def windowOf (us : Nat) : Nat := (windowEnds.filter (· ≤ us)).length

/-- When the envelope ends, us after the start of RISING (R205, R210). -/
def envEnd (e : Env) : Nat :=
  if e.mode == 2 then
    ((List.range 10).filter fun w => e.codes.getD w 0 ≠ 0).foldl (fun m w => max m (windowEnds.getD w 0)) 0
  else e.hold * 10 + 6 * (e.half * 500)

/-- The envelope limit in half mA at t us (R205, R210); every peak step is a whole number of them. -/
def envHalfMA (n : Fin 96) (c : OutSt) (e : Env) (us : Nat) : Nat :=
  let st := 2 * staticMA (outClass n) (ocStep c)
  let step := peakStep (outClass n)
  if e.mode == 2 then
    let code := e.codes.getD (windowOf us) 0
    if code = 0 then st else code * step / 500
  else
    let peak := max (e.peak * step / 500) st
    let t := us / 10
    let hold := e.hold
    let half := e.half * 50
    if t < hold then peak
    else if t < hold + 6 * half then st + decayed (peak - st) half (t - hold)
    else st

/-- The largest whole number of mA within the envelope limit: a current in mA exceeds the limit when it exceeds this. -/
def envLimit (n : Fin 96) (c : OutSt) (e : Env) (us : Nat) : Nat := envHalfMA n c e us / 2

def sinceRiseUs (c : OutSt) (s : State) : Nat := (now s - c.riseAt) / Config.us

/-! ### The restart decision (R216, R217) -/

def hotSpotOk (r : Fin 7) (s : State) : Bool := decide (s.regs[r].hot < (fld s.regs[r].cfg2 24 8 : Int) * 240)

/-- The junction, of a gang each, is below 150 degC (R215, R216). -/
def tjCool (n : Fin 96) (s : State) : Bool :=
  decide (s.outs[n].tj < 150) && (match s.outs[n].partner with | some m => decide (s.outs[m].tj < 150) | none => true)

def cool (n : Fin 96) (s : State) : Bool :=
  let c := s.outs[n]
  tjCool n s && hotSpotOk (outRegion n) s && decide (c.theta * 2 < 2 ^ 32)
    && decide (c.coolFrom + tRTY (fld c.cfg1 20 4) ≤ now s)

/-- A unit that has tripped or latched takes the next slot of its block's ADC, once (R187, R304). -/
def askSlot (u : UnitRef) (s : State) : State :=
  let ask (b i : Nat) : State :=
    modSeq (Fin.ofNat 25 b) (fun q => { q with tripped := if q.tripped.contains i then q.tripped else q.tripped ++ [i] }) s
  match u with
  | .out n => ask (outBlock n) (n.val % 8)
  | .leg n => ask (12 + n.val / 8) (n.val % 8)
  | .vh g => ask (14 + g.val / 2) (8 + g.val % 2)
  | _ => s

/-- Release to NONE; with demand the cell restarts (R217). A granted release rejoins the PWM pattern (R220). -/
def releaseCell (n : Fin 96) (granted : Bool) (s : State) : State :=
  let s := cleanSync n s
  let s := modOut n (fun c => { c with prot := .none, clear := false }) s
  let s := if granted && 2 ≤ s.outs[n].mode.toNat then
      let c := s.outs[n]
      startPeriod n (periodStart c.mode (stagger c) n c.vals (zone s)) (zone s) s else s
  let c := s.outs[n]
  if demand c then
    let s := if granted || retrySet c = 15 then s else modOut n (fun c => { c with retry := c.retry - 1 }) s
    let s := outNote 0x0306 info n (s.outs[n].retry) ((now s - c.tripAt) / Config.ms) c.tripKind (stickProt n 0x200 s)
    gateCell n s
  else gateCell n s

/-- The restart decision for the primary `n` (R216); only while its domain is on (R219). -/
def decideCell (n : Fin 96) (s : State) : State :=
  let c := s.outs[n]
  if !domOn (outDomain n) s then s
  else match c.prot with
    | .none => s
    | .offPending =>
      if c.clear && cool n s then releaseCell n true s
      else if tripLatch c || c.retry = 0 then
        let s := askSlot (.out n) (modOut n (fun c => { c with prot := .latched }) s)
        let s := stickProt n (if !tripLatch c then 0xC00 else 0x400) s
        outNote 0x0307 error n c.tripKind (if tripLatch c then 1 else 2) (retrySet c) s
      else if cool n s then releaseCell n false s
      else s
    | .latched => if c.clear && cool n s then releaseCell n true s else s

/-! ### Trips (R198 to R203, R215, R218) -/

/-- Parameters of a trip's record (Table 6-21). -/
abbrev TripPars := Nat × Nat × Nat

/-- The bit of a trip kind in the flags of a record (R234): 1 over-current, 2 envelope, 3 thermal, 4 wire. -/
def tripFlag (kind : Nat) : BitVec 4 := BitVec.ofNat 4 (2 ^ (kind - 1))

/-- The first trip of a set in the order of R200, as its kind. -/
def firstTrip (m : BitVec 4) : Nat :=
  if m.getLsbD 0 then 1 else if m.getLsbD 1 then 2 else if m.getLsbD 2 then 3 else 4

/-- A core cycle of the model is one instant of its timebase (log entry 16): cell `p` has tripped in this one. -/
def trippedNow (p : Fin 96) (s : State) : Bool := s.outs[p].trips != 0 && s.outs[p].tripAt = now s

/-- The state and the envelope that this core cycle's trips of cell `n` meet (R200). -/
def tripState (n : Fin 96) (s : State) : CellState × Option Env :=
  let p := primary n s
  if trippedNow p s then (s.outs[p].tripFrom, s.outs[p].tripEnv) else (s.outs[n].st, s.outs[p].env)

/-- Rewrite the record of this core cycle's trips of cell `p`, whose first was of kind `old`. -/
def amendTrip (p : Fin 96) (old : Nat) (f : Rec → Rec) (s : State) : State :=
  let fix (r : Rec) : Rec :=
    if r.code == BitVec.ofNat 16 (0x300 + old) && r.cls == 1 && r.idx.toNat = p.val && r.life == s.clk.life then f r else r
  let a := s.alm
  { s with alm := { a with
      batch := a.batch.map fix, intake := a.intake.map fun c => { c with rec_ := fix c.rec_ }
      staging := a.staging.map fun x => match x with | .record r => .record (fix r) | y => y } }

/-- A further trip of a core cycle: the one record names the first in order and flags the others (R200, R234). -/
def tripAgain (p : Fin 96) (kind : Nat) (v : TripPars) (s : State) : State :=
  let m := s.outs[p].trips
  let m' := m ||| tripFlag kind
  let old := firstTrip m
  let first := firstTrip m'
  if m' == m then s
  else
    let s := amendTrip p old (fun r =>
      let r := { r with code := BitVec.ofNat 16 (0x300 + first), flags := m' &&& ~~~tripFlag first }
      if first = old then r
      else { r with p1 := BitVec.ofNat 32 v.1, p2 := BitVec.ofNat 32 v.2.1, p3 := BitVec.ofNat 32 v.2.2 }) s
    modOut p (fun c => { c with trips := m', tripKind := first }) s

/-- A trip of cell `n` with its sticky bit, kind and record (R199, R200). The gate discharges at the fast protection rate, which no
SLEW setting slows (R168). -/
def tripCell (n : Fin 96) (bit : BitVec 16) (kind : Nat) (v : TripPars) (s : State) : State :=
  let p := primary n s
  let met := tripState n s
  let s := askSlot (.out n) (stickProt p bit (cleanSync p s))
  if trippedNow p s then tripAgain p kind v s
  else
    let s := outNote (BitVec.ofNat 16 (0x300 + kind)) error n v.1 v.2.1 v.2.2 s
    let s := match s.outs[n].st with
      | .rising | .on | .falling => modPair p (fun c => { c with slewAct := 0 }) (fall p s)
      | _ => s
    let s := modOut p (fun c =>
      { c with prot := if c.prot == .latched then .latched else .offPending, tripAt := now s, tripKind := kind
               trips := tripFlag kind, tripFrom := met.1, tripEnv := met.2, coolFrom := now s
               cleanNs := 0, tok := .none, env := none, fastTok := false }) s
    let s := decideCell p s
    protectionWake (outRegion n).val (outDomain n) (cellPosition (.out n)) (if kind = 3 then 2 else if kind = 4 then 3 else 1) s

/-- The cell is powered: its domain holds its gate (Table 4-3). -/
def cellPowered (n : Fin 96) (s : State) : Bool := (domState (outDomain n) s).answer != .off

def lastMA (c : OutSt) : Nat := (c.rb.current / 1000).toNat

def overCurrentTrip (n : Fin 96) (mA : Nat) (s : State) : State :=
  let p := primary n s
  let c := s.outs[p]
  let thr := staticMA (outClass n) (ocStep c)
  let met := tripState n s
  if cellPowered n s && decide (thr < mA) && ((met.1.gate && met.2.isNone) || met.1 == .demag) then
    tripCell n 0x0001 1 (thr, lastMA s.outs[n], if s.outs[n].limiting then 1 else 0) s
  else s

def envelopeTrip (n : Fin 96) (mA : Nat) (s : State) : State :=
  let p := primary n s
  let c := s.outs[p]
  let met := tripState n s
  match met.2 with
  | some e =>
    let lim := envLimit n c e (sinceRiseUs c s)
    if cellPowered n s && met.1.gate && decide (lim < mA) then
      tripCell n 0x0002 2 (lim, sinceRiseUs c s, (envMode c).toNat) s
    else s
  | none => s

/-- SHORT_CIRCUIT_LIMIT (R202): the gate driver holds the current at ISCL until a comparator trips the cell; engaged in the core
cycle of that trip, it stands in its record (R200). -/
def shortCircuitLimit (n : Fin 96) (mA : Nat) (s : State) : State :=
  if cellPowered n s && (tripState n s).1.gate && decide (isclMA (outClass n) ≤ mA) then
    let p := primary n s
    let s := stickProt n 0x8000 (modOut n (fun c => { c with limiting := true }) s)
    if trippedNow p s then amendTrip p 1 (fun r => { r with p3 := r.p3 ||| 1 }) s else s
  else s

/-- THERMAL_TRIP (R215): a conducting cell trips; a cell that is OFF or waiting is only held back, and its request goes. -/
def thermalTrip (n : Fin 96) (tj : Int) (s : State) : State :=
  if cellPowered n s && decide (175 ≤ tj) then
    let s := setTj n tj s
    let c := s.outs[n]
    if conducting c || (trippedNow (primary n s) s && (tripState n s).1 != .off && (tripState n s).1 != .waitToken) then
      tripCell n 0x0004 3 ((tj + 64).toNat, twos 32 (s.regs[outRegion n].hot / 24), lastMA c) s
    else settle n s
  else s

/-- JUNCTION_COOLED (R215): a cell held back asks for its token in this core cycle. -/
def junctionCooled (n : Fin 96) (tj : Int) (s : State) : State :=
  if decide (tj < 150) && cellPowered n s then
    settle n (setTj n tj s)
  else s

/-- ENVELOPE_END (R205, R206, R210, R239): of a gang the envelope is the primary's (R218). -/
def envelopeEnd (n : Fin 96) (s : State) : State :=
  let n := primary n s
  let c := s.outs[n]
  match c.env with
  | some e =>
    if gateOn c && decide (envEnd e * Config.us ≤ now s - c.riseAt) then
      modPair n (fun c => { c with env := none, tok := .none }) s
    else s
  | none => s

/-! ### The wire model (R213, R214) -/

/-- The block ADC of an OUT cell has failed (R187, R513). -/
def outAdcFailed (n : Fin 96) (s : State) : Bool := (s.flt.blocks[Fin.ofNat 25 (outBlock n)]).degraded.contains 1

def pairCurrent (n : Fin 96) (s : State) : Int :=
  s.outs[n].rb.current + (match s.outs[n].partner with | some m => s.outs[m].rb.current | none => 0)

/-- The current the wire model integrates, in mA (R213). -/
def wireCurrent (n : Fin 96) (watchHigh : Bool) (s : State) : Nat :=
  let c := s.outs[n]
  let iw := fld c.cfg2 8 8 * 200
  let latest := (pairCurrent n s / 1000).toNat
  if c.st == .off || c.st == .waitToken then 0
  else if outAdcFailed n s || !c.rb.gotI || 1000 * Config.us < now s - c.rb.timeI then
    if watchHigh then staticMA (outClass n) (ocStep c) else min latest (11 * iw / 10)
  else latest

/-- One step of theta (R213). -/
def thetaStep (c : OutSt) (i : Nat) : Nat :=
  let iw := fld c.cfg2 8 8 * 200
  let r := min (i * i * 2 ^ 32 / (iw * iw)) (2 ^ 48 - 1)
  let r := if c.mode == 2 then r * c.pwm.act.on_ / 1024 else r
  let t : Int := (c.theta : Int) + Int.tdiv ((r : Int) - c.theta) (10000 * (fld c.cfg2 0 8 : Int))
  min t.toNat (2 ^ 48 - 1)

def wireWarn (c : OutSt) : Bool := 8 * 2 ^ 32 ≤ 10 * c.theta
def wireHeat (c : OutSt) : Nat := min 0xFFFF (c.theta * 1000 / 2 ^ 32)

/-- WIRE_MODEL_STEP (R213): for a gang at the primary. Heat that reaches 1.0 trips the cell whatever its state; while it stays there the
cell has tripped already (log entry 16). -/
def wireModelStep (n : Fin 96) (watchHigh : Bool) (s : State) : State :=
  let c := s.outs[n]
  if isSecondary n s || !domOn (outDomain n) s then s
  else if fld c.cfg2 8 8 = 0 then modOut n (fun c => { c with theta := 0 }) s
  else
    let i := wireCurrent n watchHigh s
    let th := thetaStep c i
    let was := wireWarn c
    let s := modOut n (fun c => { c with theta := th }) s
    let s := if wireWarn s.outs[n] && !was then
        outNote 0x0305 warning n (wireHeat s.outs[n]) i 0 (stickProt n 0x0010 s) else s
    if 2 ^ 32 ≤ th && (decide (c.theta < 2 ^ 32) || c.prot == .none) then
      tripCell n 0x0008 4 (wireHeat s.outs[n], i, fld c.cfg2 0 16) s
    else s

/-! ### Learning (R208 to R212) -/

def learnArea (n : Fin 96) : Nat := 0x240000 + 0x40 * n.val

/-- The codes of the cell's learned entry, if a slot is valid (R211). -/
def learnedCodes (n : Fin 96) (m : Memory) : Option (List Nat) :=
  (newestSlot (learnArea n) 1 n.val 10 m).map fun r => (slice r.2 14 10).map (·.toNat)

/-- In ENV_MODE 10b without a learned entry LEARN_MISSING sets and record 030Fh is written (R212). -/
def learnMissing (n : Fin 96) (s : State) : State :=
  if envMode s.outs[n] == 2 && s.outs[n].learned.isNone then outNote 0x030F warning n 2 0 0 (stickProt n 0x2000 s) else s

/-- Load the learned entry (R212). -/
def loadLearned (n : Fin 96) (s : State) : State :=
  let l := learnedCodes n (nvView s)
  learnMissing n (modOut n (fun c => { c with learned := l }) s)

/-- The code of a window from the highest of its peaks in mA (R209). -/
def windowCode (n : Fin 96) (c : OutSt) (peakMA : Nat) : Nat :=
  let step := peakStep (outClass n)
  let v := peakMA * 1250
  let code := min ((v + step - 1) / step) (peakMax (outClass n))
  if code * step ≤ staticUA n c then 0 else code

/-- LEARN_SPAN_END (R208, R209): a counted turn-on; the eighth stores the entry. -/
def learnSpanEnd (n : Fin 96) (peaksMA : List Nat) (s : State) : State :=
  let c := s.outs[n]
  if c.learnRun && gateOn c && envMode c == 3 && decide (128 * Config.ms ≤ now s - c.riseAt) then
    let peaks := (List.range 10).map fun i => max (c.peaks.getD i 0) (peaksMA.getD i 0)
    let k := c.learn + 1
    let s := modOut n (fun c => { c with learnRun := false, learn := k, peaks := peaks }) s
    if k < 8 then s
    else
      let codes := peaks.map (windowCode n c)
      let body := be 6 s.clk.life.toNat ++ be 1 1 ++ be 1 n.val ++ be 1 (outClass n + 4 * ocStep c) ++ be 1 0
        ++ codes.map (BitVec.ofNat 8) ++ be 4 0
      let e := slotEntry (learnArea n) 1 n.val 10 body (nvView s)
      let s := nvQueue 5 e.1 e.2 none s
      let s := modOut n (fun c => { c with cfg1 := setFld c.cfg1 18 2 2, learned := some codes }) s
      let g (a k : Nat) : Nat := ofBe ((List.range k).map fun i => BitVec.ofNat 8 (codes.getD (a + i) 0))
      outNote 0x030E info n (g 0 4) (g 4 4) (g 8 2) (stickProt n 0x4000 s)
  else s

/-! ### Diagnosis (R225 to R228) -/

def tOLF : Nat := 1 * Config.ms
def tOFS : Nat := 1 * Config.ms

/-- Follow one condition over readings: since when it holds and does not hold; the live bit it gives (R225, R226). -/
def band (hold : Bool) (tin tout : Option Nat) (live : Bool) (t : Nat) : Option Nat × Option Nat × Bool :=
  if hold then
    let a := tin.getD t
    (some a, none, live || decide (a + tOLF ≤ t))
  else
    let b := tout.getD t
    (none, some b, live && !decide (b + tOLF ≤ t))

/-- Open-load threshold in uA (Table 6-13). -/
def openThreshold (cls code : Nat) : Nat := if cls = 2 then 1000 + code * 250 else (code + 1) * 10000

/-- Set one of the live bits of R225 and R226 and its counts. -/
def setDiag (k : Fin 4) (r : Option Nat × Option Nat × Bool) (c : OutSt) : OutSt :=
  let c := { c with diagIn := c.diagIn.set k r.1, diagOut := c.diagOut.set k r.2.1 }
  match k.val with
  | 0 => { c with openOn := r.2.2 }
  | 1 => { c with openOff := r.2.2 }
  | 2 => { c with shortSup := r.2.2 }
  | _ => { c with leakSup := r.2.2 }

/-- Readings are evaluated for OPEN_ON (R225): ON, enabled, no envelope, 3 tRISE after reaching ON, in PWM in an on-phase. -/
def onEval (n : Fin 96) (s : State) : Bool :=
  let c := s.outs[n]
  let p := s.outs[primary n s]
  c.st == .on && p.cfg1.getLsbD 16 && c.env.isNone
    && decide (c.stateAt + 3 * tRise (outClass n) c.slewAct ≤ now s) && (decide (p.mode.toNat ≤ 1) || c.rb.onPhase)

/-- A fresh current reading of cell `n` (R225). The time between two on-phases does not count. -/
def diagnoseOn (n : Fin 96) (s : State) : State :=
  let c := s.outs[n]
  let before := diagBits c
  let thr := openThreshold (outClass n) (fld s.outs[primary n s].cfg1 8 8)
  if onEval n s then
    let gap := if c.diagAt < c.riseAt then now s - c.diagAt else 0
    let r := band (decide (c.rb.current < (thr : Int))) (c.diagIn[0].map (· + gap)) (c.diagOut[0].map (· + gap)) c.openOn (now s)
    let s := modOut n (fun c => { setDiag 0 r c with diagAt := now s }) s
    let s := if r.2.2 && !c.openOn then
        outNote 0x0309 warning n thr (twos 32 c.rb.current) c.rb.range (stickProt n 0x0020 s) else s
    diagCleared n before s
  else s

/-- Readings are evaluated for the bands of Table 6-14 (R226): OFF for tOFS, and not in the off-phases of fast PWM. -/
def offEval (n : Fin 96) (s : State) : Bool :=
  let c := s.outs[n]
  let p := primary n s
  c.st == .off && decide (c.stateAt + tOFS ≤ now s) && !(s.outs[p].mode == 2 && !inhibited p s)

/-- A fresh voltage reading of cell `n` (R226); `vs` is the region supply in mV. -/
def diagnoseOff (n : Fin 96) (vs : Int) (s : State) : State :=
  let c := s.outs[n]
  let before := diagBits c
  let offDiag := s.outs[primary n s].cfg1.getLsbD 17
  let v := c.rb.vout
  let short := decide (vs - 1000 < v)
  let leak := decide (4000 < v) && !short
  let open_ := offDiag && decide (1500 ≤ v) && decide (v ≤ 4000) && !short
  if offEval n s then
    let upd (k : Fin 4) (hold live : Bool) : Option Nat × Option Nat × Bool := band hold c.diagIn[k] c.diagOut[k] live (now s)
    let r1 := upd 1 open_ c.openOff
    let r2 := upd 2 short c.shortSup
    let r3 := upd 3 leak c.leakSup
    let s := modOut n (fun c => setDiag 3 r3 (setDiag 2 r2 (setDiag 1 r1 c))) s
    let s := if r1.2.2 && !c.openOff then
        outNote 0x030A warning n (twos 32 v) (twos 32 vs) 0 (stickProt n 0x0040 s) else s
    let s := if r2.2.2 && !c.shortSup then
        outNote 0x030B warning n (twos 32 v) (twos 32 vs) 0 (stickProt n 0x0100 s) else s
    let s := if r3.2.2 && !c.leakSup then
        outNote 0x030C warning n (twos 32 v) (twos 32 vs) (if offDiag then 1 else 0) (stickProt n 0x0080 s) else s
    diagCleared n before s
  else s

/-! ### Readings of the block ADC (R187, R188) -/

/-- Full scale in uA of range 0 high, 1 low, 2 LED fine (Table 5-1). -/
def fullScale (cls range : Nat) : Nat :=
  (([[100000, 10000], [40000, 4000], [10000, 1000, 128]].getD cls []).getD range 0) * 1000

def lastRange (cls : Nat) : Nat := if cls = 2 then 2 else 1

/-- The range a reading uses next under RANGE automatic, and the count of readings below 80 % of the lower range (R188). -/
def autoRange (cls range below : Nat) (i : Nat) : Nat × Nat :=
  if fullScale cls range ≤ i then (range - 1, 0)
  else if range < lastRange cls && i * 10 < fullScale cls (range + 1) * 8 then
    if 1 ≤ below then (range + 1, 0) else (range, below + 1)
  else (range, 0)

/-- What a 12-bit conversion in a range of full scale `fs` gives, rounded down to its step (R163, log entry 8). -/
def converted (fs : Nat) (uA : Int) : Int := uA * 4096 / fs * fs / 4096

/-- A cell in PWM is converted in an on-phase, 3 tRISE after the rising edge (R187). -/
def pwmCell (n : Fin 96) (s : State) : Bool := decide (2 ≤ s.outs[primary n s].mode.toNat)
def inOnPhase (n : Fin 96) (s : State) : Bool :=
  let c := s.outs[n]
  c.st == .on && s.outs[primary n s].pwm.onPhase && decide (c.riseAt + 3 * tRise (outClass n) c.slewAct ≤ now s)

/-- A junction that has fallen below 150 degC lets its cell ask for its token (R215). -/
def readTj (n : Fin 96) (tj : Int) (s : State) : State :=
  let was := s.outs[n].hotHold
  let s := setTj n tj s
  if was && !s.outs[n].hotHold then settle n s else s

/-- A current conversion of cell `n` (R187 to R189). -/
def cellCurrent (n : Fin 96) (uA tj : Int) (s : State) : State :=
  let c := s.outs[n]
  let cls := outClass n
  let range := if rangeOf c = 0 then c.rb.next else rangeOf c - 1
  let fs := fullScale cls range
  let over_ := decide ((fs : Int) ≤ uA)
  let i := if over_ then (fs : Int) else converted fs uA
  let next := if rangeOf c = 0 then autoRange cls range c.rb.below i.toNat else (range, 0)
  let s := modOut n (fun c =>
    { c with rb := { c.rb with current := i, range := range, next := next.1, gotI := true, onPhase := pwmCell n s, over_ := over_
                               timeI := now s, below := next.2 } }) s
  diagnoseOn n (readTj n tj s)

/-- A voltage conversion of cell `n`. -/
def cellVoltage (n : Fin 96) (mV tj vs : Int) (s : State) : State :=
  let s := modOut n (fun c => { c with rb := { c.rb with vout := mV, gotV := true, timeV := now s } }) s
  diagnoseOff n vs (readTj n tj s)

/-! ### Family 03h (R220 to R224) -/

/-- Every field PROT_CONFIG selects is in range for the class (R223). -/
def protRange (cls w : Nat) (c1 c2 : Word) : Bool :=
  (!w.testBit 4 || fld c1 18 2 ≠ 3) && (!w.testBit 7 || cls ≠ 2 || fld c1 8 8 ≤ 252)
    && (!w.testBit 8 || fld c1 0 8 ≤ peakMax cls) && (!w.testBit 10 || 1 ≤ fld c2 16 8)
    && (!w.testBit 12 || 1 ≤ fld c2 0 8)

/-- The bits of words 0301h and 0302h that WRITE selects (Table 6-12). -/
def protMask1 (w : Nat) : Word :=
  [(0, 29, 3), (1, 28, 1), (2, 24, 4), (3, 20, 4), (4, 18, 2), (5, 17, 1), (6, 16, 1), (7, 8, 8), (8, 0, 8)].foldl
    (fun m f => if w.testBit f.1 then m ||| at_ f.2.1 f.2.2 (2 ^ f.2.2 - 1) else m) 0
def protMask2 (w : Nat) : Word :=
  [(9, 24, 8), (10, 16, 8), (11, 8, 8), (12, 0, 8)].foldl
    (fun m f => if w.testBit f.1 then m ||| at_ f.2.1 f.2.2 (2 ^ f.2.2 - 1) else m) 0

def protConfigCell (b : List Byte) (n : Fin 96) (s : State) : Nat × State :=
  let w := numAt b 12 2
  let c1 := wordAt b 16
  let c2 := wordAt b 20
  if isSecondary n s then (0x13, s)
  else if !protRange (outClass n) w c1 c2 then (0x20, s)
  else
    let s := modOut n (fun c =>
      let c := { c with cfg1 := merge c.cfg1 c1 (protMask1 w), cfg2 := merge c.cfg2 c2 (protMask2 w) }
      if w.testBit 2 then { c with retry := retrySet c } else c) s
    let s := if w.testBit 4 && envMode s.outs[n] == 2 then loadLearned n s else s
    (0x00, outNote 0x0310 info n w s.outs[n].cfg1.toNat s.outs[n].cfg2.toNat s)

def opProtConfig : OpSpec :=
  { lenOk := fun b => b.length = 24, resOk := fun b => zeroAt [14, 15] b && onlyBits 12 0x1F b,
    units := fun p _ => outMask p.payload, doms := fun _ => [],
    act := .perUnit (onOut fun q n s => protConfigCell q.pkt.payload n s) (fun q rs _ => outcomesAns outcomeStatus q rs) }

/-- PROT as word 0300h shows it (Table 6-16). -/
def protCode (c : OutSt) : Nat :=
  match c.prot with
  | .none => 0
  | .offPending => 1
  | .latched => if c.clear then 3 else 2

/-- LATCH_CLEAR on one cell (R220). -/
def latchClearCell (q : QPkt) (n : Fin 96) (s : State) : Nat × State :=
  let off := byteAt q.pkt.payload 12 == 1
  if isSecondary n s then (0x13, s)
  else
    let c := s.outs[n]
    let s := modOut n (fun c => { c with retry := retrySet c }) s
    let s := outNote 0x0308 info n q.pkt.host.val (if off then 1 else 0) (protCode c) (stickProt n 0x1000 s)
    let s := if off then command n 0 false c.vals q.pkt.host s else s
    if c.prot == .none then (0x21, s)
    else
      let s := modOut n (fun c => { c with clear := true, clearFor := q.pkt.host }) s
      let s := decideCell n s
      if s.outs[n].prot == .none || cool n s then (0x00, s) else (0x22, stickOut n 0b1000000 s)

def opLatchClear : OpSpec :=
  { lenOk := fun b => b.length = 16, resOk := zeroAt [13, 14, 15], parOk := fun b => decide ((byteAt b 12).toNat ≤ 1),
    units := fun p _ => outMask p.payload, doms := fun _ => [],
    act := .perUnit (onOut latchClearCell) (fun q rs _ => outcomesAns outcomeStatus q rs) }

/-- ENVELOPE_LEARN on one cell (R208, R212, R224). -/
def envelopeLearnCell (op : Nat) (n : Fin 96) (s : State) : Nat × State :=
  let c := s.outs[n]
  if isSecondary n s then (0x13, s)
  else if op = 0 then
    if fld c.cfg1 0 8 = 0 then (0x23, s)
    else (0x00, modOut n (fun c =>
      { c with cfg1 := setFld c.cfg1 18 2 3, learn := 0, learnRun := false, peaks := [],
               envBefore := if envMode c == 3 then c.envBefore else envMode c }) s)
  else if op = 1 then
    if envMode c == 3 then
      (0x00, learnMissing n (modOut n (fun c => { c with cfg1 := setFld c.cfg1 18 2 c.envBefore.toNat, learnRun := false }) s))
    else (0x00, s)
  else if (learnedCodes n (nvView s)).isNone then (0x00, s)
  else
    let s := nvQueue 5 (learnArea n) (be 64 0) none s
    (0x00, learnMissing n (modOut n (fun c => { c with learned := none }) s))

def opEnvelopeLearn : OpSpec :=
  { lenOk := fun b => b.length = 16, resOk := zeroAt [13, 14, 15], parOk := fun b => decide ((byteAt b 12).toNat ≤ 2),
    units := fun p _ => outMask p.payload, doms := fun _ => [],
    act := .perUnit (onOut fun q n s => envelopeLearnCell (byteAt q.pkt.payload 12).toNat n s)
      (fun q rs _ => outcomesAns outcomeStatus q rs) }

/-- CLEAN_PERIOD_RELOAD of a cell (R217). -/
def cleanReload (n : Fin 96) (s : State) : State :=
  let s := cleanSync n s
  if tCLN ≤ s.outs[n].cleanNs then modOut n (fun c => { c with retry := retrySet c, cleanNs := 0 }) s else s

end Sys2Proof.Machine
end

