-- ==== Sys2Proof/Machine/Bridge.lean ====
section
/-! DEFINITION. Motor bridges (chapter 08): the state machine of Table 8-4, ripple counting, moves, anti-pinch,
learning, and the commands of family 05h. Positions in counts, currents in mA, times in ns unless a name says us. -/

namespace Sys2Proof.Machine

/-! ### Access, words and notes -/

def brIdx (k : Fin 8) : Fin 120 := Fin.ofNat 120 (96 + k.val)

/-- A record of a bridge: unit class 2, index of leg A (R289). -/
def brNote (code : Half) (sev : BitVec 2) (k : Fin 8) (p1 p2 p3 : Nat) (s : State) : State :=
  note code sev 2 (2 * k.val) p1 p2 p3 s

/-! ### Fields (Tables 8-5 and 8-13) -/

def ocStepMA (heavy : Bool) (step : Nat) : Nat :=
  if heavy then [10000, 15000, 20000, 25000, 30000, 40000, 50000, 60000].getD step 0
  else [3000, 4000, 6000, 8000, 10000, 12000, 16000, 20000].getD step 0
def heavyLeg (n : Fin 16) : Bool := n.val < 4
def legISCL (n : Fin 16) : Nat := if heavyLeg n then 150000 else 48000

def startSpan (b : BrSt) : Nat := fld b.cfg1 20 6 * 10 * Config.ms
def brakeMax (b : BrSt) : Nat := fld b.cfg1 8 6 * 10 * Config.ms
def runLimitNs (b : BrSt) : Nat := fld b.cfg1 0 8 * 250 * Config.ms
def pinchDI (b : BrSt) : Nat := fld b.cfg2 24 8
def pinchDT (b : BrSt) : Nat := fld b.cfg2 18 6
def pinchAbs (b : BrSt) : Nat := fld b.cfg2 10 8
def stallT (b : BrSt) : Nat := fld b.cfg2 5 5 * 10 * Config.ms
def pinchEn (b : BrSt) : Bool := b.cfg2.getLsbD 4
/-- CLOSE_DIR, TRAVEL and SEAL_ZONE of the move in progress (R286). -/
def closeFwd (b : BrSt) : Bool := !b.act1.getLsbD 14
def travel (b : BrSt) : Nat := fld b.act3 16 16
def sealCounts (b : BrSt) : Nat := 4 * fld b.act3 8 8
def reverseCnt (b : BrSt) : Nat := 8 * fld b.cfg3 0 8

def closing (b : BrSt) : Bool := b.fwd == closeFwd b
/-- Counts from the closed and from the open end (R274). -/
def distClosed (b : BrSt) : Int := if closeFwd b then (travel b : Int) - b.pos else b.pos
def distOpen (b : BrSt) : Int := if closeFwd b then b.pos else (travel b : Int) - b.pos
def closedEnd (b : BrSt) : Int := if closeFwd b then (travel b : Int) else 0
def openEnd (b : BrSt) : Int := if closeFwd b then 0 else (travel b : Int)
def isEnd (b : BrSt) (t : Int) : Bool := travel b != 0 && (t == closedEnd b || t == openEnd b)

/-! ### Demand, rest, legs (R264, R265) -/

def BrSt.atRest (b : BrSt) : Bool := b.st == .coast || b.st == .brake || b.st == .tripped
/-- The bridge is in motion: neither at rest nor waiting at rest for its token. -/
def BrSt.inMotion (b : BrSt) : Bool := !b.atRest && b.st != .waitToken

def moveDemand (c : BrCmd) (pos : Int) : Bool := c.mode = 2 || c.mode = 3 || (c.mode = 4 && c.target ≠ pos)
def BrSt.demand (b : BrSt) : Bool := moveDemand b.cmd b.pos
/-- The direction a move drives in: true FORWARD. -/
def moveFwd (c : BrCmd) (pos : Int) : Bool := c.mode = 2 || (c.mode = 4 && decide (pos < c.target))

def brInhibited (k : Fin 8) (s : State) : Bool :=
  prunedAt (brIdx k) s || s.brs[k].uvOff || s.brs[k].st == .tripped

/-- Leg modes of Table 8-2: 0 HIZ, 1 HIGH, 2 LOW, 3 PWM, for leg A and leg B. -/
def legModes (b : BrSt) : Nat × Nat :=
  let drive (fwd : Bool) (duty : Nat) : Nat × Nat :=
    let h := if duty = 1024 then 1 else 3
    if fwd then (h, 2) else (2, h)
  match b.st with
  | .coast | .tripped => (0, 0)
  | .brake | .stopping => (2, 2)
  | .waitToken => if b.fromCoast then (0, 0) else (2, 2)
  | .start | .run => drive b.fwd b.cmd.duty
  | .reversing => if (b.rev.bind (·.driveAt)).isSome then drive b.fwd 1024 else (2, 2)

/-- tRPQ (R266): the motor is still. -/
def tRPQ : Nat := 20 * Config.ms
def brStill (b : BrSt) (now : Nat) : Bool := decide (max (b.lastPulse.getD 0) b.driveAt + tRPQ ≤ now)

/-! ### Position lost (R272) -/

def posLost (k : Fin 8) (cause : Nat) (s : State) : State :=
  let b := s.brs[k]
  if b.posValid then
    let s := stickBr k 0x100 (modBr k (fun b => { b with posValid := false }) s)
    brNote 0x0506 warning k cause (twos 32 b.pos) 0 s
  else s

/-! ### The mirror (R193, R283) -/

/-- Bytes 13 to 27 of a bridge's entry (Table 8-7). -/
def brMirror (b : BrSt) : List Byte :=
  be 1 b.cmd.mode ++ be 1 ((if b.posValid then 1 else 0) + (if b.cmd.home then 2 else 0)) ++ be 1 0
    ++ be 2 b.cmd.duty ++ be 2 0 ++ be 4 (twos 32 b.cmd.target) ++ be 4 (twos 32 b.pos)

def brMirrorStore (k : Fin 8) (s : State) : State :=
  let b := s.brs[k]
  mirrorStore (.leg (legA k)) b.mirLife b.lastHost (brMirror b)
    (modBr k (fun b => { b with mirPend := false, mirAt := some (now s) }) s)

def brMirrorChange (k : Fin 8) (s : State) : State :=
  let b := s.brs[k]
  match mirrorDo (.leg (legA k)) b.mirAt (brMirror b) s with
  | .nothing => modBr k (fun b => { b with mirPend := false }) s
  | .write => brMirrorStore k s
  | .pend => wakeInternal 15 (modBr k (fun b => { b with mirPend := true }) s)

def brMirrorNow (k : Fin 8) (s : State) : State :=
  if s.brs[k].mirPend then
    if mirrored (.leg (legA k)) s = some (brMirror s.brs[k]) then
      modBr k (fun b => { b with mirPend := false, mirAt := some (now s) }) s
    else brMirrorStore k s
  else s

/-- Set the commanded move, attributed to `host` (R193). -/
def brSetCmd (k : Fin 8) (c : BrCmd) (host : Fin 16) (s : State) : State :=
  if s.brs[k].cmd = c then s
  else brMirrorChange k (modBr k (fun b => { b with cmd := c, lastHost := host, mirLife := s.clk.life }) s)

/-! ### Starting and stopping (R266 to R268, R280) -/

/-- A closing run that may count begins (R278). -/
def learnBegin (b : BrSt) (vs : Nat) : Option (List LearnBin) :=
  if b.learning && closing b && b.posValid && travel b != 0 && decide (distOpen b * 32 ≤ (travel b : Int))
      && ((12000 ≤ vs && vs ≤ 15000) || (24000 ≤ vs && vs ≤ 30000)) then
    some (List.replicate 32 ⟨0, 0, 0, 0⟩)
  else none

/-- Enter START with the token held: a move starts (R273). A grant in time has taken the instant of a scheduled start away (R268). -/
def brStart (k : Fin 8) (s : State) : State :=
  let vs := s.regs[(4 : Fin 7)].vs
  let late : Bool := match s.brs[k].tokDue with | some t => decide (t < zone s) | none => false
  let s := modBr k (fun b =>
    { b with st := .start, fwd := moveFwd b.cmd b.pos, act1 := b.cfg1, act3 := b.cfg3, periods := [],
             lastPulse := none, driveAt := now s, stateAt := now s, stopEnd := 0, rev := none,
             moveAt := if b.ranNs = 0 then now s else b.moveAt, tokDue := none, staged := false }) s
  let s := modBr k (fun b => { b with learnRun := learnBegin b vs }) s
  let s := bif late then stickBr k 0x1000 s else s
  let b := s.brs[k]
  brNote 0x0501 info k (b.cmd.mode + 256 * b.lastHost.val) (twos 32 b.cmd.target) (twos 32 b.pos) s

/-- Enter STOPPING for the end `cause` of record 0502h; pruning keeps the run time (R273). -/
def brStop (k : Fin 8) (cause : Nat) (s : State) : State :=
  modBr k (fun b =>
    { b with st := .stopping, stateAt := now s, tok := .none, stopEnd := cause, learnRun := none,
             ranNs := if cause = 7 then b.ranNs + (now s - b.driveAt) else 0 }) s

/-- What the state of a bridge follows from its demand and inhibits (Table 8-4). -/
def brGate (k : Fin 8) (s : State) : State :=
  let b := s.brs[k]
  match b.st with
  | .coast | .brake =>
    if b.demand && !brInhibited k s then
      match b.tok with
      | .held _ => brStart k s
      | _ => modBr k (fun b =>
          { b with st := .waitToken, fromCoast := b.st == .coast, stateAt := now s, tokDue := none, staged := false
                   tok := if b.tok == .none then .waiting (now s) false else b.tok }) s
    else s
  | .waitToken =>
    if !b.demand || brInhibited k s then
      modBr k (fun b =>
        { b with st := if b.cmd.mode = 0 then .coast else if b.cmd.mode = 1 then .brake
                       else if b.fromCoast then .coast else .brake,
                 stateAt := now s, tok := .none, tokDue := none, staged := false }) s
    else match b.tok with
      | .held _ => brStart k s
      | _ => s
  | .start | .run => if prunedAt (brIdx k) s then brStop k 7 s else s
  | _ => s

/-- Record 0502h of a move that has ended (Table 8-15). -/
def moveEnd (k : Fin 8) (cause : Nat) (s : State) : State :=
  let b := s.brs[k]
  brNote 0x0502 info k cause (twos 32 b.pos) ((now s - b.moveAt) / Config.ms) s

/-- A command sets the state of the bridge (R267). -/
def brApply (k : Fin 8) (c : BrCmd) (host : Fin 16) (s : State) : State :=
  let b := s.brs[k]
  let coastMoving := c.mode = 0 && !brStill b (now s)
  match b.st with
  | .reversing => modBr k (fun b => { b with deferred := some (c, host), tokDue := none }) s
  | .start | .run =>
    let s := modBr k (fun b => { b with tokDue := none }) s
    if c.mode = 0 then
      let s := brSetCmd k c host (posLost k 1 s)
      let s := moveEnd k 5 s
      brMirrorChange k (modBr k (fun b =>
        { b with st := .coast, stateAt := now s, tok := .none, ranNs := 0, learnRun := none }) s)
    else if moveDemand c b.pos && moveFwd c b.pos == b.fwd then brSetCmd k c host s
    else brStop k 5 (brSetCmd k c host s)
  | .stopping =>
    brSetCmd k c host (modBr k (fun b => { b with deferred := none, ranNs := 0, tokDue := none })
      (if coastMoving then posLost k 1 s else s))
  | .tripped => brSetCmd k c host s
  | .waitToken => brGate k (brSetCmd k c host (modBr k (fun b => { b with ranNs := 0 }) s))
  | .coast | .brake =>
    let s := if b.st == .brake && coastMoving then posLost k 1 s else s
    let s := modBr k (fun b =>
      { b with st := if c.mode = 0 then .coast else if c.mode = 1 then .brake else b.st, ranNs := 0 }) s
    brGate k (brSetCmd k c host s)

/-- The bridge comes to rest from STOPPING (Table 8-4): records, the deferred command, the mirror (R283). -/
def brRest (k : Fin 8) (s : State) : State :=
  let b := s.brs[k]
  let s := modBr k (fun b =>
    { b with st := if b.cmd.mode = 0 then .coast else .brake, stateAt := now s, stopEnd := 0, rev := none,
             deferred := none }) s
  let s := match b.rev with
    | some r => brNote 0x0505 info k (twos 32 b.pos) ((r.driveAt.getD r.detectAt - r.detectAt) / Config.us) r.counted s
    | none => s
  let s := if b.stopEnd = 0 then s else moveEnd k b.stopEnd s
  let s := brMirrorChange k s
  match b.deferred with
  | some (c, h) => brApply k c h s
  | none => brGate k s

/-- A move ends by itself: STOPPING, commanded BRAKE by host ID 13 (R273); the end of a reversal sets PINCH (R276, log entry 19). -/
def brSelfEnd (k : Fin 8) (cause : Nat) (s : State) : State :=
  let s := brStop k cause (brSetCmd k ⟨1, 0, 0, false⟩ 13 s)
  if cause = 6 then stickBr k 0x008 s else s

/-! ### Ripples (R271) -/

/-- The counts a pulse after the gap `p` gives, given the counted periods: none rejects it; with how many are
inserted, and whether the gap is beyond repair. -/
def rippleRule (periods : List Nat) (p : Nat) : Option (Nat × Bool) :=
  if periods.length < 8 then some (0, false)
  else
    let sum := periods.sum
    if 80 * p < 4 * sum then none
    else if 7 * sum < 32 * p then
      let n := (16 * p + sum) / (2 * sum) - 1
      if n ≤ 2 then some (n, false) else some (0, true)
    else some (0, false)

/-- One sample into the bin of a learning run (R278). -/
def binAt (b : BrSt) : Nat := min 31 (((distClosed b).toNat * 32) / travel b)
def modBin (b : BrSt) (f : LearnBin → LearnBin) : Option (List LearnBin) :=
  b.learnRun.map fun l => l.set (binAt b) (f (l.getD (binAt b) ⟨0, 0, 0, 0⟩))

/-- The profile area of a bridge and its slots (R279). -/
def profileArea (k : Fin 8) : Nat := 0x242000 + 0x200 * k.val
def profileSlot (k : Fin 8) (slotB : Bool) (m : Memory) : Option (List Byte) :=
  let e := Mem.readN m (profileArea k + if slotB then 0x100 else 0) 256
  if crc32 (e.take 252) == wordAt e 252 && byteAt e 10 == 2 && (byteAt e 11).toNat = 2 * k.val then some e else none

/-- The profile whose TRAVEL is `t`: the newer valid slot that matches (R279). -/
def profileFor (k : Fin 8) (t : Nat) (m : Memory) : Option (List Nat × List Nat) :=
  let ok (e : List Byte) : Bool := numAt e 16 4 = t
  let a := (profileSlot k false m).filter ok
  let b := (profileSlot k true m).filter ok
  let e := match a, b with
    | some x, some y => some (if seqNewer (wordAt y 0) (wordAt x 0) then y else x)
    | some x, none => some x
    | none, y => y
  e.map fun e => ((List.range 32).map fun i => numAt e (20 + 2 * i) 2, (List.range 32).map fun i => numAt e (84 + 2 * i) 2)

/-- Load the profile (R279). -/
def loadProfile (k : Fin 8) (s : State) : State :=
  modBr k (fun b => { b with profile := profileFor k (fld b.cfg3 16 16) (nvView s) }) s

/-- The write of a learned profile: slot address and bytes (Table 8-6, R192). -/
def profileWrite (k : Fin 8) (b : BrSt) (ci ct : List Nat) (s : State) : Nat × List Byte :=
  let pa := profileSlot k false (nvView s)
  let pb := profileSlot k true (nvView s)
  let newB := match pa, pb with
    | some x, some y => seqNewer (wordAt y 0) (wordAt x 0)
    | none, some _ => true
    | _, _ => false
  let seq := match pa, pb with
    | none, none => 1
    | some x, none => (wordAt x 0 + 1).toNat
    | none, some y => (wordAt y 0 + 1).toNat
    | some x, some y => ((if newB then wordAt y 0 else wordAt x 0) + 1).toNat
  let toB := !newB && pa.isSome
  let e := be 4 seq ++ be 6 s.clk.life.toNat ++ be 1 2 ++ be 1 (2 * k.val) ++ be 1 (if closeFwd b then 0 else 1)
    ++ be 3 0 ++ be 4 (travel b) ++ (ci.map (be 2 ·)).flatten ++ (ct.map (be 2 ·)).flatten ++ be 104 0
  (profileArea k + (if toB then 0x100 else 0), e ++ be 4 (crc32 e).toNat)

/-- Mean of a bin; a bin without a sample has a free value (the spec states none, log entry 3). -/
def binMean (sum n i : Nat) (free : Nat) : Nat :=
  if n = 0 then (Config.freeWord (free + i)).toNat % 65536 else min 0xFFFF (sum / n)

/-- The closing run has reached the seal zone: it counts; the fourth stores the profile (R278). -/
def learnCount (k : Fin 8) (s : State) : State :=
  let b := s.brs[k]
  match b.learnRun with
  | none => s
  | some l =>
    let run := (List.range 32).map fun i =>
      let x := l.getD i ⟨0, 0, 0, 0⟩
      (binMean x.curSum x.curN i s.clk.free, binMean x.perSum x.perN (32 + i) s.clk.free)
    let s := { s with clk := { s.clk with free := s.clk.free + 64 } }
    let runs := b.learnt ++ [run]
    let s := modBr k (fun b => { b with learnRun := none, learnt := runs }) s
    if runs.length < 4 then s
    else
      let top (f : Nat × Nat → Nat) : List Nat :=
        (List.range 32).map fun i => runs.foldl (fun m r => max m (f (r.getD i (0, 0)))) 0
      let ci := top (·.1)
      let ct := top (·.2)
      let w := profileWrite k b ci ct s
      let s := nvQueue 5 w.1 w.2 none s
      let s := modBr k (fun b => { b with learning := false, learnt := [], profile := some (ci, ct) }) s
      brNote 0x0507 info k (travel b) runs.length 0 (stickBr k 0x400 s)

/-- One counted ripple of period `p` us, none for the first pulse of a drive: POSITION, learning, and the ends it brings (R271, R273, R276, R278). -/
def countRipple (k : Fin 8) (pUs : Option Nat) (s : State) : State :=
  let s := modBr k (fun b =>
    { b with pos := if b.fwd then b.pos + 1 else b.pos - 1,
             rev := b.rev.map fun r => if r.driveAt.isSome then { r with counted := r.counted + 1 } else r }) s
  let b := s.brs[k]
  match b.st with
  | .start | .run =>
    let s := if b.learnRun.isSome then
        let s := modBr k (fun b =>
          { b with learnRun := modBin b fun x => { x with perSum := x.perSum + pUs.getD 0, perN := x.perN + pUs.toList.length } }) s
        if distClosed b ≤ (sealCounts b : Int) then learnCount k s else s
      else s
    if b.cmd.mode = 4 && b.pos = b.cmd.target && !isEnd b b.cmd.target then
      brSelfEnd k 1 (stickBr k 0x010 s)
    else s
  | .reversing =>
    match b.rev with
    | some r => if r.driveAt.isSome && reverseCnt b ≤ r.counted then brSelfEnd k 6 s else s
    | none => s
  | _ => s

/-- The detector counts in these states (R271). -/
def rippleCounts (b : BrSt) : Bool :=
  b.st == .start || b.st == .run || b.st == .stopping || b.st == .reversing

/-- RIPPLE_PULSE: a pulse at this instant (R271). -/
def ripplePulse (k : Fin 8) (s : State) : State :=
  let b := s.brs[k]
  if rippleCounts b then
    match b.lastPulse with
    | none => countRipple k none (modBr k (fun b => { b with lastPulse := some (now s) }) s)
    | some t =>
      let p := now s - t
      match rippleRule b.periods p with
      | none => s
      | some (n, broken) =>
        let each := p / (n + 1)
        let s := modBr k (fun b =>
          { b with lastPulse := some (now s), periods := (List.replicate (n + 1) each ++ b.periods).take 8 }) s
        let s := if broken then posLost k 5 s else s
        let s := if n = 0 then s else stickBr k 0x200 s
        (List.range (n + 1)).foldl (fun s _ => if rippleCounts s.brs[k] then countRipple k (some (each / Config.us)) s else s) s
  else s

/-- Last counted period in us, FFFFh when none in tRPQ (Table 8-11). -/
def periodUs (b : BrSt) (now : Nat) : Nat :=
  match b.periods, b.lastPulse with
  | p :: _, some t => if t + tRPQ ≤ now then 0xFFFF else min 0xFFFF (p / Config.us)
  | _, _ => 0xFFFF

/-! ### Anti-pinch (R275, R276) -/

/-- Begin a reversal: both legs LOW, record 0504h. -/
def reverse (k : Fin 8) (criterion filteredMA : Nat) (s : State) : State :=
  let b := s.brs[k]
  let pause := if b.periods.length < 8 then 6 * Config.ms else min (6 * Config.ms) (4 * b.periods.sum / 8)
  let s := modBr k (fun b =>
    { b with st := .reversing, stateAt := now s, learnRun := none, rev := some ⟨now s, pause, none, 0⟩, ranNs := 0 }) s
  brNote 0x0504 warning k criterion (twos 32 b.pos) filteredMA s

/-- Anti-pinch is evaluating (PINCH_ARMED). -/
def pinchArmed (b : BrSt) : Bool :=
  pinchEn b && b.st == .run && closing b
    && !(b.posValid && travel b != 0 && decide (distClosed b < (sealCounts b : Int)))

/-- The criterion of R275 that the current and the last period meet; 0 none. -/
def pinchHit (b : BrSt) (i : Nat) : Nat :=
  match (if b.posValid && !b.learning && travel b != 0 then b.profile else none) with
  | some (ci, ct) =>
    let bin := binAt b
    if pinchDI b ≠ 0 ∧ ci.getD bin 0 + 50 * pinchDI b < i then 1
    else if pinchDT b ≠ 0 ∧ (ct.getD bin 0 * (64 + pinchDT b)) / 64 < (b.periods.headD 0) / Config.us then 2
    else 0
  | none => if pinchAbs b ≠ 0 ∧ 100 * pinchAbs b < i then 4 else 0

/-- ANTI_PINCH_CHECK (R275); the filtered current also feeds a learning run (R278), and stands for the stall criterion. -/
def antiPinchCheck (k : Fin 8) (i : Nat) (s : State) : State :=
  let vs := s.regs[(4 : Fin 7)].vs
  let s := modBr k (fun b =>
    { b with filtered := i, learnRun :=
        if (b.st == .start || b.st == .run) && b.learnRun.isSome then
          if (12000 ≤ vs && vs ≤ 15000) || (24000 ≤ vs && vs ≤ 30000) then
            modBin b fun x => { x with curSum := x.curSum + i, curN := x.curN + 1 }
          else none
        else b.learnRun }) s
  let b := s.brs[k]
  if pinchArmed b then
    let s := if b.posValid && b.profile.isNone then stickBr k 0x800 s else s
    let c := pinchHit b i
    if c = 0 then s else reverse k c i s
  else s

/-- REVERSAL_DRIVE_START (R276): after the braking pause the bridge drives away from the closed end. -/
def reversalDriveStart (k : Fin 8) (s : State) : State :=
  let b := s.brs[k]
  match b.st, b.rev with
  | .reversing, some r =>
    if r.driveAt.isNone && (decide (r.detectAt + 6 * Config.ms ≤ now s)
        || decide (max r.detectAt (b.lastPulse.getD 0) + r.pause ≤ now s)) then
      modBr k (fun b =>
        { b with fwd := !closeFwd b, driveAt := now s, lastPulse := none, periods := [],
                 rev := some { r with driveAt := some (now s) } }) s
    else s
  | _, _ => s

/-! ### Ends by time (R266, R273, R274) -/

/-- BRIDGE_START_END: the start span has elapsed. -/
def bridgeStartEnd (k : Fin 8) (s : State) : State :=
  let b := s.brs[k]
  if b.st == .start && decide (b.stateAt + startSpan b ≤ now s) then
    modBr k (fun b => { b with st := .run, stateAt := now s, tok := .none }) s
  else s

/-- MOTOR_STILL: no ripple for tRPQ in STOPPING. -/
def motorStill (k : Fin 8) (s : State) : State :=
  let b := s.brs[k]
  if b.st == .stopping && brStill b (now s) then brRest k s else s

/-- BRAKE_LIMIT: BRAKE_MAX has elapsed in STOPPING. -/
def brakeLimit (k : Fin 8) (s : State) : State :=
  let b := s.brs[k]
  if b.st == .stopping && decide (b.stateAt + brakeMax b ≤ now s) then brRest k s else s

/-- RUN_LIMIT. -/
def runLimit (k : Fin 8) (s : State) : State :=
  let b := s.brs[k]
  if (b.st == .start || b.st == .run) && decide (runLimitNs b ≤ b.ranNs + (now s - b.driveAt)) then
    brSelfEnd k 4 (stickBr k 0x080 s)
  else s

/-- Where a stall is an end stop, that end (R274). -/
def stallEnd (b : BrSt) : Option Int :=
  if travel b = 0 then none
  else if closing b then
    if b.posValid && decide (distClosed b ≤ (sealCounts b : Int)) then some (closedEnd b) else none
  else if (b.posValid && decide (distOpen b * 32 ≤ (travel b : Int))) || (b.cmd.home && b.st == .run) then some (openEnd b)
  else none

/-- BRIDGE_STALL: no counted ripple for STALL_T in RUN, or in the drive of a reversal (R273, R274, R276). -/
def bridgeStall (k : Fin 8) (s : State) : State :=
  let b := s.brs[k]
  let quiet := decide (max (b.lastPulse.getD 0) (if b.st == .run then b.stateAt else b.driveAt) + stallT b ≤ now s)
  let driving := b.st == .run || (b.st == .reversing && (b.rev.bind (·.driveAt)).isSome)
  if driving && quiet then
    let endKind := if b.st == .reversing then 6 else 0
    match stallEnd b with
    | some e =>
      let s := modBr k (fun b => { b with pos := e, posValid := true }) s
      brSelfEnd k (if endKind = 0 then 2 else endKind) (stickBr k 0x020 s)
    | none =>
      if b.st == .run && closing b && pinchEn b then reverse k 3 b.filtered s
      else brSelfEnd k (if endKind = 0 then 3 else endKind) (stickBr k 0x040 s)
  else s

/-! ### Protection (R266, R269, R270, R280) -/

/-- The over-current threshold in force at a leg, in mA (R269, R276). -/
def legThreshold (n : Fin 16) (b : BrSt) (now : Nat) : Nat :=
  let step := match b.st, b.rev.bind (·.driveAt) with
    | .start, _ => fld b.cfg1 26 3
    | .reversing, some t => if now < t + startSpan b then fld b.cfg1 26 3 else fld b.cfg1 29 3
    | _, _ => fld b.cfg1 29 3
  ocStepMA (heavyLeg n) step

/-- A leg trip: both legs HIZ, TRIPPED, commanded COAST by host ID 13 (R270). -/
def legTripNow (n : Fin 16) (kind : Nat) (thr mA : Nat) (s : State) : State :=
  let k := legBridge n
  let s := stickLeg n (if kind = 2 then 2 else 1) s
  let s := note 0x0503 error 2 n.val kind thr mA s
  let s := if s.brs[k].inMotion then posLost k 3 s else s
  let s := modBr k (fun b =>
    { b with st := .tripped, stateAt := now s, tok := .none, tokDue := none, staged := false, rev := none,
             deferred := none, stopEnd := 0, ranNs := 0, learnRun := none, clear := false }) s
  let s := brSetCmd k ⟨0, 0, 0, false⟩ 13 (stickBr k 0x004 s)
  protectionWake 4 10 (cellPosition (.leg n)) kind s

/-- LEG_TRIP (R269, R270): an over-current above the threshold in force on a leg that conducts, or a junction at
175 degC. `shortLimit`: the short-circuit limit has engaged. -/
def legTrip (n : Fin 16) (kind : TripKind) (mA : Nat) (tj : Int) (shortLimit : Bool) (s : State) : State :=
  let b := s.brs[legBridge n]
  let modes := legModes b
  let conducts := (if n.val % 2 = 0 then modes.1 else modes.2) ≠ 0
  let thr := legThreshold n b (now s)
  if (domState 10 s).answer == .off || b.st == .tripped then s
  else
    let s := modLeg n (fun l => { l with tj := tj }) s
    let s := if shortLimit && conducts && legISCL n ≤ mA then stickLeg n 4 s else s
    match kind with
    | .overCurrent => if conducts && decide (thr < mA) then legTripNow n 1 thr mA s else s
    | .thermal => if decide (175 ≤ tj) then legTripNow n 2 thr mA s else s
    | .wire => s

/-- The bridge's part of an undervoltage-off (R266, R280): COAST is a rest state, which the mirror records (R283). It ends a reversal,
whose original move is abandoned and whose deferred command applies (R267, R276). -/
def brUndervoltage (k : Fin 8) (s : State) : State :=
  let b := s.brs[k]
  let s := if b.inMotion then posLost k 2 s else s
  let s := modBr k (fun b => { b with uvOff := true, ranNs := if b.st == .start || b.st == .run then
      b.ranNs + (now s - b.driveAt) else b.ranNs }) s
  match b.st with
  | .tripped | .coast => modBr k (fun b => { b with tok := .none, staged := false, tokDue := none }) s
  | st =>
    let s := modBr k (fun b =>
      { b with st := .coast, stateAt := now s, tok := .none, tokDue := none, staged := false, rev := none,
               deferred := none, stopEnd := 0, learnRun := none }) s
    let s := if st == .reversing then brSetCmd k ⟨1, 0, 0, false⟩ 13 s else s
    match b.deferred with
    | some (c, h) => brSetCmd k c h s
    | none => brMirrorChange k s

/-- The bridge is released by its region (R255, R280): a GOTO that has lost its position ends. -/
def brRelease (k : Fin 8) (s : State) : State :=
  let b := s.brs[k]
  if b.uvOff then
    let s := modBr k (fun b => { b with uvOff := false }) s
    if b.cmd.mode = 4 && !b.posValid then stickBr k 0x100 (brSetCmd k ⟨1, 0, 0, false⟩ 13 s)
    else brGate k s
  else brGate k s

/-- Both legs lie below 150 degC. -/
def legsCool (k : Fin 8) (s : State) : Bool := decide (s.legs[legA k].tj < 150) && decide (s.legs[legB k].tj < 150)

/-- BRIDGE_CLEAR_RELEASE (R266). -/
def bridgeClearRelease (k : Fin 8) (s : State) : State :=
  let b := s.brs[k]
  if b.st == .tripped && b.clear && legsCool k s then
    brSetCmd k ⟨0, 0, 0, false⟩ b.clearFor (modBr k (fun b => { b with st := .coast, stateAt := now s, clear := false }) s)
  else s

/-! ### Family 05h (R284 to R287) -/

/-- Bridges of a one-byte mask, addressed at leg A (R284). -/
def brMask (m : Byte) : List UnitRef :=
  ((List.range 8).filter m.getLsbD).map fun k => .leg (Fin.ofNat 16 (2 * k))

/-- Single-bridge statuses (Table 8-14). -/
def brStatus (o : Nat) : Half × Half :=
  match o with
  | 0x40 => (0x0540, 0)
  | 0x41 => (0x0541, 0)
  | 0x42 => (0x0542, 0)
  | 0x43 => (0x0543, 0)
  | o => outcomeStatus o

def onBr (f : QPkt → Fin 8 → State → Nat × State) (q : QPkt) (u : UnitRef) (s : State) : UnitRes × State :=
  match u with
  | .leg n => let r := f q (legBridge n) s; (unitRes u r.1, r.2)
  | _ => (unitRes u 0, s)

def brOutcomes (q : QPkt) (rs : List UnitRes) (_ : State) : Ans := outcomesAns brStatus q rs

/-- MODE, DUTY and TARGET are in range (Table 8-9). -/
def brFields (b : BrSt) (c : BrCmd) : Bool :=
  let t := fld b.cfg3 16 16
  c.mode ≤ 4 && (if 2 ≤ c.mode then 64 ≤ c.duty && c.duty ≤ 1024 else c.duty = 0)
    && (c.mode ≠ 4 || t = 0 || (decide (0 ≤ c.target) && decide (c.target ≤ (t : Int))))

/-- HOME stands only in the opening direction with TRAVEL not 0 (R274, R285). -/
def brHomeOk (b : BrSt) (c : BrCmd) : Bool :=
  !c.home || c.mode < 2 ||
    (fld b.cfg3 16 16 ≠ 0 && ((c.mode = 4 && c.target = b.pos) || moveFwd c b.pos == b.cfg1.getLsbD 14))

/-- A command that applies only after STOPPING (R267). -/
def brDefers (b : BrSt) (c : BrCmd) : Bool :=
  match b.st with
  | .reversing => true
  | .stopping => moveDemand c b.pos
  | .start | .run => moveDemand c b.pos && moveFwd c b.pos != b.fwd
  | _ => false

/-- A move refused at its instant gives back the token request of its staging (R268). -/
def unstageBr (k : Fin 8) (s : State) : State :=
  if s.brs[k].staged then brGate k (modBr k (fun b => { b with tok := .none, tokDue := none, staged := false }) s) else s

/-- A scheduled move whose token is still to come at T: TOKEN_DELAYED sets when it comes (R268). -/
def brDue (q : QPkt) (k : Fin 8) (s : State) : State :=
  match q.effect with
  | some t =>
    if q.staged && !s.brs[k].tok.isHeld && !s.brs[k].atRest && s.brs[k].tokDue.isNone && s.brs[k].st != .start && s.brs[k].st != .run
        && !brInhibited k s then
      modBr k (fun b => { b with tokDue := some (max t (zone s)), staged := false }) s
    else modBr k (fun b => { b with staged := false }) s
  | none => s

/-- BR_MOVE on one bridge (R285). -/
def brMove (q : QPkt) (k : Fin 8) (s : State) : Nat × State :=
  let p := q.pkt.payload
  let c : BrCmd := ⟨(byteAt p 1).toNat, numAt p 2 2, (wordAt p 4).toInt, (byteAt p 8).getLsbD 0⟩
  let b := s.brs[k]
  if b.st == .tripped && moveDemand c b.pos then (0x10, unstageBr k s)
  else if !brFields b c then (0x41, unstageBr k s)
  else if c.mode = 4 && !b.posValid then (0x40, unstageBr k s)
  else if !brHomeOk b c then (0x41, unstageBr k s)
  else
    let d := brDefers b c
    let s := brApply k c q.pkt.host s
    let s := if moveDemand c b.pos then brDue q k s else unstageBr k s
    if d then (0x01, stickBr k 0x002 s)
    else if moveDemand c b.pos && brInhibited k s then (0x02, s)
    else (0x00, s)

def opBrMove : OpSpec :=
  { lenOk := fun b => b.length = 12, resOk := fun b => zeroAt [9, 10, 11] b && onlyBits 8 1 b,
    units := fun p _ => brMask (byteAt p.payload 0), doms := fun _ => [], act := .perUnit (onBr brMove) brOutcomes }

/-- The bits of words 0501h to 0503h that WRITE selects (Table 8-10). -/
def maskOf (w : Nat) (fs : List (Nat × Nat × Nat)) : Word :=
  fs.foldl (fun m f => if w.testBit f.1 then m ||| at_ f.2.1 f.2.2 (2 ^ f.2.2 - 1) else m) 0

def brMasks (w : Nat) : Word × Word × Word :=
  (maskOf w [(0, 29, 3), (1, 26, 3), (2, 20, 6), (3, 16, 4), (4, 15, 1), (5, 14, 1), (6, 8, 6), (7, 0, 8)],
   maskOf w [(8, 24, 8), (9, 18, 6), (10, 10, 8), (11, 5, 5), (12, 4, 1)],
   maskOf w [(13, 16, 16), (14, 8, 8), (15, 0, 8)])

def brConfigOk (w : Nat) (c1 c2 c3 : Word) : Bool :=
  (!w.testBit 2 || (1 ≤ fld c1 20 6 && fld c1 20 6 ≤ 50)) && (!w.testBit 6 || 1 ≤ fld c1 8 6)
    && (!w.testBit 7 || 1 ≤ fld c1 0 8) && (!w.testBit 11 || 1 ≤ fld c2 5 5) && (!w.testBit 15 || 1 ≤ fld c3 0 8)

/-- BR_CONFIG on one bridge (R286). A leg already above a new step trips by its next LEG_TRIP. -/
def brConfig (q : QPkt) (k : Fin 8) (s : State) : Nat × State :=
  let p := q.pkt.payload
  let w := numAt p 2 2
  let m := brMasks w
  if brConfigOk w (wordAt p 4) (wordAt p 8) (wordAt p 12) then
    let s := modBr k (fun b =>
      { b with cfg1 := merge b.cfg1 (wordAt p 4) m.1, cfg2 := merge b.cfg2 (wordAt p 8) m.2.1,
               cfg3 := merge b.cfg3 (wordAt p 12) m.2.2 }) s
    (0x00, if w.testBit 13 then loadProfile k s else s)
  else (0x41, s)

def opBrConfig : OpSpec :=
  { lenOk := fun b => b.length = 16, resOk := fun b => zeroAt [1] b && onlyBits 11 0xF0 b,
    units := fun p _ => brMask (byteAt p.payload 0), doms := fun _ => [], act := .perUnit (onBr brConfig) brOutcomes }

/-- One entry of BR_READ (Table 8-11). -/
def brEntry (k : Fin 8) (s : State) : List Byte :=
  let b := s.brs[k]
  be 4 (twos 32 b.current) ++ be 4 (twos 32 b.pos) ++ be 2 (periodUs b (now s)) ++ be 2 (twos 16 (b.va / 10))
    ++ be 2 (twos 16 (b.vb / 10)) ++ be 1 ((if b.valid then 1 else 0) + (if b.posValid then 2 else 0)) ++ be 1 0
    ++ be 4 (match b.timeI, b.timeA, b.timeB with
      | some i, some a, some c => ageUs true (min i (min a c)) s
      | _, _, _ => 0xFFFFFFFF)

def opBrRead : OpSpec :=
  { lenOk := fun b => b.length = 4, resOk := zeroAt [2, 3],
    units := fun p _ =>
      let f := (byteAt p.payload 0).toNat
      let c := (byteAt p.payload 1).toNat
      if 1 ≤ c && f + c ≤ 8 then (List.range c).map fun i => UnitRef.leg (Fin.ofNat 16 (2 * (f + i))) else [],
    doms := fun _ => [],
    act := .whole fun q us s =>
      done (.ok (q.pkt.payload ++ (q.units.map fun u => match u with
        | .leg n => if us.contains u then brEntry (legBridge n) s else deadEntry 16
        | _ => []).flatten)) s }

/-- BR_CLEAR on one bridge (R270, R287). -/
def brClear (q : QPkt) (k : Fin 8) (s : State) : Nat × State :=
  if s.brs[k].st == .tripped then
    let tjOf (n : Fin 16) : Nat := ((s.legs[n].tj + 64).toNat)
    let s := brNote 0x0508 info k q.pkt.host.val (tjOf (legA k)) (tjOf (legB k))
      (modBr k (fun b => { b with clear := true, clearFor := q.pkt.host }) s)
    if legsCool k s then (0x00, bridgeClearRelease k s) else (0x22, s)
  else (0x21, s)

def opBrClear : OpSpec :=
  { lenOk := fun b => b.length = 4, resOk := zeroAt [1, 2, 3], units := fun p _ => brMask (byteAt p.payload 0),
    doms := fun _ => [], act := .perUnit (onBr brClear) brOutcomes }

/-- BR_POSITION (R287): the reply data is the outcome. -/
def opBrPosition : OpSpec :=
  { lenOk := fun b => b.length = 8, resOk := fun b => zeroAt [2, 3] b && onlyBits 1 1 b,
    units := fun p _ => if (byteAt p.payload 0).toNat < 8 then [.leg (Fin.ofNat 16 (2 * (byteAt p.payload 0).toNat))] else [],
    doms := fun _ => [],
    act := .perUnit (onBr fun q k s =>
        if s.brs[k].atRest then
          (0x00, brGate k (modBr k (fun b => { b with pos := (wordAt q.pkt.payload 4).toInt,
                                                      posValid := (byteAt q.pkt.payload 1).getLsbD 0 }) s))
        else (0x43, s))
      (fun _ rs _ => match rs with
        | [r] => let st := brStatus r.outcome; ⟨st.1, st.2, [BitVec.ofNat 8 r.outcome]⟩
        | _ => .ok) }

/-- BR_LEARN on one bridge (R278). -/
def brLearn (q : QPkt) (k : Fin 8) (s : State) : Nat × State :=
  let b := s.brs[k]
  match (byteAt q.pkt.payload 1).toNat with
  | 0 =>
    if fld b.cfg3 16 16 ≠ 0 && b.posValid then
      (0x00, modBr k (fun b => { b with learning := true, learnt := [], learnRun := none }) s)
    else (0x42, s)
  | 1 => (0x00, modBr k (fun b => { b with learning := false, learnt := [], learnRun := none }) s)
  | 2 => (0x00, nvQueue 5 (profileArea k) (be 512 0) none (modBr k (fun b => { b with profile := none }) s))
  | _ => (0x41, s)

def opBrLearn : OpSpec :=
  { lenOk := fun b => b.length = 4, resOk := zeroAt [2, 3], units := fun p _ => brMask (byteAt p.payload 0),
    doms := fun _ => [], act := .perUnit (onBr brLearn) brOutcomes }

/-- A leg's current conversion (R264): the motor current returns through a low-side switch, and is measured there. -/
def legCurrent (n : Fin 16) (mA tj : Int) (s : State) : State :=
  let k := legBridge n
  let m := legModes s.brs[k]
  let low := (if n.val % 2 = 0 then m.1 else m.2) = 0 || (if n.val % 2 = 0 then m.1 else m.2) = 2
  let s := modLeg n (fun l => { l with tj := tj }) s
  if low then modBr k (fun b => { b with current := mA, timeI := some (now s) }) s else s

/-- A leg's voltage conversion. -/
def legVoltage (n : Fin 16) (mV tj : Int) (s : State) : State :=
  let s := modLeg n (fun l => { l with tj := tj }) s
  modBr (legBridge n) (fun b =>
    if n.val % 2 = 0 then { b with va := mV, timeA := some (now s) } else { b with vb := mV, timeB := some (now s) }) s

end Sys2Proof.Machine
end

