-- ==== Sys2Proof/Machine/Valve.lean ====
section
/-! DEFINITION. Valve groups (chapter 09): headers, valve states of Table 9-3, closure detection, header protection, and
the commands of family 06h. Voltages in mV, currents in mA. -/

namespace Sys2Proof.Machine

/-! ### Access, words and notes -/

def groupValves (g : Fin 4) : List (Fin 16) := (List.range 4).map fun i => Fin.ofNat 16 (4 * g.val + i)
def vlIdx (n : Fin 16) : Fin 120 := Fin.ofNat 120 (104 + n.val)

/-- Records of a valve (unit class 4) and of a header (unit class 3) (R314). -/
def vlNote (code : Half) (sev : BitVec 2) (n : Fin 16) (p1 p2 p3 : Nat) (s : State) : State :=
  note code sev 4 n.val p1 p2 p3 s
def vhNote (code : Half) (sev : BitVec 2) (g : Fin 4) (p1 p2 p3 : Nat) (s : State) : State :=
  note code sev 3 g.val p1 p2 p3 s

/-! ### Fields of words 0602h and 0603h -/

def closeDet (w : Word) : Bool := w.getLsbD 31
def closeWinNs (w : Word) : Nat := fld w 25 6 * Config.ms
def kinkMin (w : Word) : Nat := fld w 18 7
def closeMaxUs (w : Word) : Nat := fld w 10 8 * 250
def offDiag (w : Word) : Bool := w.getLsbD 9

def hdrThreshold (h : VhSt) : Nat := (2 + fld h.cfg 28 4) * 1000
/-- TRIP_MODE, RETRY_SET and RETRY_DELAY in force (R311). -/
def hdrLatch (h : VhSt) : Bool := h.act.getLsbD 27
def hdrRetrySet (h : VhSt) : Nat := fld h.act 23 4
def hdrRetryDelay (h : VhSt) : Nat := tRTY (fld h.act 19 4)

/-- tHDR (R293) and tVTK (R294). -/
def tHDR : Nat := 100 * Config.us
def tVTK : Nat := 2 * Config.ms

/-! ### Headers (R291) -/

def holdsHeader (v : VlSt) : Bool := v.st == .hdrRise || v.st == .on || v.st == .clamp || v.st == .window
def headerDemand (g : Fin 4) (s : State) : Bool := (groupValves g).any fun n => holdsHeader s.vls[n]
def hdrInhibit (g : Fin 4) (s : State) : Bool := s.vhs[g].prot != .none

/-- The header turns on or off: its configuration is taken over (R311). -/
def vhTurn (g : Fin 4) (st : HdState) (s : State) : State :=
  modVh g (fun h => { h with st := st, stateAt := now s, limiting := false, act := h.cfg }) s

/-- The header follows the demand of its group; undervoltage keeps every header of region 4 off (R305). -/
def vhGate (g : Fin 4) (s : State) : State :=
  let want := headerDemand g s && !hdrInhibit g s && !s.regs[(4 : Fin 7)].uv
  match s.vhs[g].st with
  | .off => if want then vhTurn g .rising s else s
  | .rising | .on => if want then s else vhTurn g .falling s
  | .falling => s

/-! ### Valve states (R292, R293) -/

def vlInhibited (n : Fin 16) (s : State) : Bool :=
  let v := s.vls[n]
  prunedAt (vlIdx n) s || v.uvOff || v.marked || v.st == .tripped || hdrInhibit (vlGroup n) s

/-- The result of a closure window (R297, R298): 1 measured, 2 no kink, 3 not measured with its cause. -/
def windowResult (n : Fin 16) (result cause : Nat) (closeUs : Nat) (s : State) : State :=
  let v := s.vls[n]
  if v.ended || !closeDet v.act then s
  else
    let s := modVl n (fun v => { v with ended := true, result := BitVec.ofNat 2 result, cause := BitVec.ofNat 3 cause,
                                        closeTime := if result = 1 then closeUs else v.closeTime }) s
    let v := s.vls[n]
    let s := vlNote 0x0602 info n v.closeTime v.clampTime (8 * result + cause) s
    let slow := result = 1 && closeMaxUs v.act ≠ 0 && closeMaxUs v.act < closeUs
    let s := if slow then vlNote 0x0603 warning n closeUs (closeMaxUs v.act) 0 s else s
    stickVl n ((if slow then 0x200 else 0) ||| (if result = 2 then 0x100 else 0) ||| (if result = 3 then 0x080 else 0)) s

/-- Gate on (R293). -/
def vlOn (n : Fin 16) (s : State) : State :=
  modVl n (fun v => { v with st := .on, onAt := now s, act := v.cfg, openCoil := false,
                             diagIn := Vector.replicate 2 none, diagOut := Vector.replicate 2 none }) s

/-- Turn-off from ON: CLAMP, and a closure window opens (R293, R295). -/
def vlTurnOff (n : Fin 16) (s : State) : State :=
  modVl n (fun v => { v with st := .clamp, offAt := now s, samples := [], k0 := 0, ended := false, act := v.cfg,
                             tok := .none, drainHigh := false,
                             diagIn := Vector.replicate 2 none, diagOut := Vector.replicate 2 none }) s

/-- A valve with its token turns on, or waits for its header (R293, R294). A grant in time has taken the instant of a scheduled turn-on
away. -/
def vlGranted (n : Fin 16) (s : State) : State :=
  let v := s.vls[n]
  let late : Bool := match v.tokDue with | some t => decide (t < zone s) | none => false
  let s := modVl n (fun v => { v with tokDue := none, staged := false }) s
  let s := bif late then stickVl n 0x002 s else s
  if s.vhs[vlGroup n].st == .on then vlOn n s
  else vhGate (vlGroup n) (modVl n (fun v => { v with st := .hdrRise }) s)

/-- What the state of a valve follows from demand and inhibits (Table 9-3). -/
def vlGate (n : Fin 16) (s : State) : State :=
  let v := s.vls[n]
  let want := v.mode && !vlInhibited n s
  let s' := match v.st with
    | .on => if want then s else vlTurnOff n s
    | .waitToken | .hdrRise =>
      if want then (match v.st, v.tok with
        | .waitToken, .held _ => vlGranted n s
        | _, _ => s)
      else modVl n (fun v => { v with st := .off, tok := .none, tokDue := none, staged := false }) s
    | .clamp | .window => if want then vlOn n (windowResult n 3 1 0 s) else s
    | .off =>
      if want then match v.tok with
        | .held _ => vlGranted n s
        | t => modVl n (fun v => { v with st := .waitToken, tokDue := none, staged := false
                                          tok := if t == .none then .waiting (now s) false else t }) s
      else s
    | .tripped => s
  vhGate (vlGroup n) s'

/-- What one step of the 8-bit samples from -2 V to +50 V stands for is 1625/8 mV; a sample rounds down (R295, log entry 21). -/
def drainCode (vd : Int) : Nat := min 255 ((vd + 2000) * 8 / 1625).toNat
/-- The sample lies below 5 V. -/
def belowClamp (code : Nat) : Bool := code * 1625 < 7000 * 8

/-- The clamp has ended, at sample `k` where closure is detected (R293, R296). A valve marked latched whose window has closed in CLAMP
reaches TRIPPED here too (log entry 21). -/
def vlClampEnd (n : Fin 16) (k : Nat) (s : State) : State :=
  let v := s.vls[n]
  if v.st == .clamp then
    let s := if closeDet v.act && !v.ended then modVl n (fun v => { v with clampTime := k * 10, k0 := k }) s else s
    if v.marked then vhGate (vlGroup n) (modVl n (fun v => { v with st := .tripped }) (windowResult n 3 5 0 s))
    else if domState 10 s == .toOff then vlGate n (modVl n (fun v => { v with st := .off }) (windowResult n 3 4 0 s))
    else if closeDet v.act && !v.ended then modVl n (fun v => { v with st := .window }) s
    else vlGate n (modVl n (fun v => { v with st := .off }) s)
  else if v.st == .off && v.marked then modVl n (fun v => { v with st := .tripped }) s
  else s

/-- Sum of the 8 samples up to sample `k` (1 the first); fewer stand when there are fewer (R296). -/
def sampleSum (samples : List Nat) (k : Nat) : Int := (((samples.drop (samples.length - k)).take 8).sum : Nat)
def sampleCount (k : Nat) : Nat := min 8 k
/-- The distance of a[j] and a[k] in steps of the samples as a fraction: the difference of their sums crosswise, and both counts. -/
def slope (l : List Nat) (j k : Nat) : Nat × Nat :=
  let a := sampleSum l k * sampleCount j - sampleSum l j * sampleCount k
  (a.natAbs, sampleCount j * sampleCount k)

/-- The kink condition of R296 at sample k. -/
def kinkAt (l : List Nat) (k : Nat) (w : Word) : Bool :=
  let s1 := slope l (k - 20) (k - 10)
  let s2 := slope l (k - 10) k
  decide (kinkMin w * 80 * s1.2 ≤ s1.1 * 1625) && decide (4 * s2.1 * s1.2 ≤ s1.1 * s2.2)

/-- CLOSE_WIN has elapsed (R293, R296). -/
def vlWindowOver (n : Fin 16) (s : State) : State :=
  match s.vls[n].st with
  | .clamp => vlGate n (modVl n (fun v => { v with st := .off }) (windowResult n 3 3 0 s))
  | .window => vlGate n (modVl n (fun v => { v with st := .off }) (windowResult n 2 0 0 s))
  | _ => s

/-- CLOSURE_SAMPLE (R295, R296): one 10 us sample of the drain over the header output, while D10 is on. -/
def closureSample (n : Fin 16) (vd : Int) (s : State) : State :=
  let v := s.vls[n]
  if domOn 10 s && closeDet v.act && (v.st == .clamp || v.st == .window) then
    let l := drainCode vd :: v.samples
    let k := l.length
    let s := modVl n (fun v => { v with samples := l }) s
    let s := match v.st with
      | .clamp => if belowClamp (drainCode vd) then vlClampEnd n k s else s
      | _ =>
        if v.k0 + 20 ≤ k && kinkAt l k v.act then
          vlGate n (modVl n (fun v => { v with st := .off }) (windowResult n 1 0 ((k - 10) * 10) s))
        else s
    if closeWinNs v.act ≤ k * 10 * Config.us then vlWindowOver n s else s
  else s

/-- CLOSURE_WINDOW_END (R293). -/
def closureWindowEnd (n : Fin 16) (s : State) : State :=
  let v := s.vls[n]
  if closeDet v.act && decide (v.offAt + closeWinNs v.act ≤ now s) then vlWindowOver n s else s

/-- CLAMP_END (R293): the drain lies below the header output plus 5 V. Where closure is detected the sample to come is the first below
5 V (R296). -/
def clampEnd (n : Fin 16) (drain header : Int) (s : State) : State :=
  if drain < header + 5000 then vlClampEnd n (s.vls[n].samples.length + 1) s else s

/-- The header goes off under the valves of its group (R293, R301): windows end NOT_MEASURED, cause 2. -/
def headerGone (g : Fin 4) (cause : Nat) (s : State) : State :=
  (groupValves g).foldl (fun s n =>
    match s.vls[n].st with
    | .clamp => windowResult n 3 cause 0 s
    | .window => modVl n (fun v => { v with st := .off }) (windowResult n 3 cause 0 s)
    | _ => s) s

/-- HEADER_RISE_DONE (R293): above 90 % of VS4, or tHDR elapsed. -/
def headerRiseDone (g : Fin 4) (s : State) : State :=
  if s.vhs[g].st == .rising then
    let s := modVh g (fun h => { h with st := .on, stateAt := now s }) s
    (groupValves g).foldl (fun s n => if s.vls[n].st == .hdrRise then vlOn n s else s) s
  else s

/-- HEADER_OFF (R291): a falling header is off; waiting valves make it rise again. -/
def headerOff (g : Fin 4) (s : State) : State :=
  if s.vhs[g].st == .falling then vhGate g (modVh g (fun h => { h with st := .off, stateAt := now s }) s) else s

/-- VALVE_TOKEN_RETURN (R294). -/
def valveTokenReturn (n : Fin 16) (s : State) : State :=
  let v := s.vls[n]
  if v.st == .on && decide (v.onAt + tVTK ≤ now s) then modVl n (fun v => { v with tok := .none }) s else s

/-! ### Protection (R300 to R302) -/

/-- Header demand from the commanded modes of its valves (R300). -/
def commandedOn (g : Fin 4) (s : State) : Bool := (groupValves g).any fun n => s.vls[n].mode
def demandMask (g : Fin 4) (s : State) : Nat :=
  (List.range 4).foldl (fun m i => if s.vls[Fin.ofNat 16 (4 * g.val + i)].mode then m + 2 ^ i else m) 0

def vhCool (g : Fin 4) (s : State) : Bool :=
  let h := s.vhs[g]
  decide (h.tj < 150) && hotSpotOk 4 s && decide (h.coolFrom + hdrRetryDelay h ≤ now s)

/-- The clean on-period of a header gathers (R300). -/
def vhCleanSync (g : Fin 4) (s : State) : State :=
  let run := commandedOn g s && s.vhs[g].prot == .none && domOn 10 s
  modVh g (fun h => { h with cleanNs := if run then h.cleanNs + (now s - h.cleanAt) else h.cleanNs, cleanAt := now s }) s

/-- A header is released: RESTARTED with demand, and its valves ask for tokens (R300, R301). -/
def releaseHeader (g : Fin 4) (granted : Bool) (s : State) : State :=
  let s := vhCleanSync g s
  let s := modVh g (fun h => { h with prot := .none, clear := false }) s
  let s := if commandedOn g s then
      let s := if granted || hdrRetrySet s.vhs[g] = 15 then s else modVh g (fun h => { h with retry := h.retry - 1 }) s
      let h := s.vhs[g]
      vhNote 0x0606 info g h.retry ((now s - h.tripAt) / Config.ms) (demandMask g s) (stickVh g 0x10 s)
    else s
  (groupValves g).foldl (fun s n => vlGate n s) s

/-- The restart decision of a header (R216, R300), while D10 is on (R219). -/
def decideHeader (g : Fin 4) (s : State) : State :=
  let h := s.vhs[g]
  if !domOn 10 s then s
  else match h.prot with
    | .none => s
    | .offPending =>
      if h.clear && vhCool g s then releaseHeader g true s
      else if hdrLatch h || h.retry = 0 then
        let s := askSlot (.vh g) (modVh g (fun h => { h with prot := .latched }) s)
        let s := stickVh g (if hdrLatch h then 0x01 else 0x21) s
        vhNote 0x0605 error g h.tripKind (if hdrLatch h then 1 else 2) (hdrRetrySet h) s
      else if vhCool g s then releaseHeader g false s
      else s
    | .latched => if h.clear && vhCool g s then releaseHeader g true s else s

/-- A header trips (R300, R301). -/
def headerTripNow (g : Fin 4) (kind mA : Nat) (s : State) : State :=
  let s := vhCleanSync g s
  let s := stickVh g (if kind = 2 then 0x04 else 0x02) s
  let s := vhNote 0x0604 error g kind (hdrThreshold s.vhs[g]) mA s
  let s := modVh g (fun h =>
    { h with prot := if h.prot == .latched then .latched else .offPending, tripAt := now s, tripKind := kind,
             coolFrom := now s, cleanNs := 0, limiting := false }) s
  let s := (groupValves g).foldl (fun s n =>
    match s.vls[n].st with
    | .hdrRise => stickVl n 0x020 (modVl n (fun v => { v with st := .off, tok := .none, tokDue := none }) s)
    | .on => stickVl n 0x020 (vlTurnOff n s)
    | .waitToken => modVl n (fun v => { v with st := .off, tok := .none, tokDue := none, staged := false }) s
    | _ => s) s
  let s := askSlot (.vh g) (vhGate g (headerGone g 2 s))
  protectionWake 4 10 (cellPosition (.vh g)) kind (decideHeader g s)

/-- HEADER_TRIP (R300): over-current above the threshold, or a junction at 175 degC, of a header whose gate is on. -/
def headerTrip (g : Fin 4) (kind : TripKind) (mA : Nat) (tj : Int) (shortLimit : Bool) (s : State) : State :=
  let h := s.vhs[g]
  let gateOn := h.st == .rising || h.st == .on
  if (domState 10 s).answer == .off || !gateOn then s
  else
    let s := modVh g (fun h => { h with tj := tj }) s
    let s := if shortLimit && 32000 ≤ mA then stickVh g 0x08 (modVh g (fun h => { h with limiting := true }) s) else s
    match kind with
    | .overCurrent => if hdrThreshold h < mA then headerTripNow g 1 mA s else s
    | .thermal => if 175 ≤ tj then headerTripNow g 2 mA s else s
    | .wire => s

/-- VALVE_THERMAL_TRIP (R302): a conducting valve at 175 degC turns off and is latched. -/
def valveThermalTrip (n : Fin 16) (tj : Int) (s : State) : State :=
  let v := s.vls[n]
  if 175 ≤ tj && (v.st == .on || v.st == .clamp) && (domState 10 s).answer != .off then
    let s := modVl n (fun v => { v with tj := tj }) s
    let s := if v.st == .on then vlTurnOff n s else s
    let s := vhGate (vlGroup n) (modVl n (fun v => { v with marked := true, clear := false }) s)
    let s := vlNote 0x0607 error n (tj + 64).toNat 0 0 (stickVl n 0x010 s)
    protectionWake 4 10 (cellPosition (.vl n)) 2 s
  else s

/-- A cleared valve leaves TRIPPED (R293, R302). -/
def valveRelease (n : Fin 16) (s : State) : State :=
  let v := s.vls[n]
  if v.st == .tripped && v.clear && v.tj < 150 then
    vlGate n (modVl n (fun v => { v with st := .off, marked := false, clear := false }) s)
  else s

/-- VALVE_CLEAR_RELEASE (R293). -/
def valveClearRelease (n : Fin 16) (tj : Int) (s : State) : State :=
  valveRelease n (modVl n (fun v => { v with tj := tj }) s)

/-- CLEAN_PERIOD_RELOAD of a header (R300). -/
def cleanReloadHeader (g : Fin 4) (s : State) : State :=
  let s := vhCleanSync g s
  if tCLN ≤ s.vhs[g].cleanNs then modVh g (fun h => { h with retry := hdrRetrySet h, cleanNs := 0 }) s else s

/-- Undervoltage-off of one valve of region 4 (R305). -/
def vlUndervoltage (n : Fin 16) (s : State) : State := vlGate n (modVl n (fun v => { v with uvOff := true }) s)

/-- Undervoltage-off of region 4 turns the headers off, and open windows end (R305); released, the headers follow their valves. -/
def headersUndervoltage (s : State) : State :=
  (List.range 4).foldl (fun s g =>
    let g : Fin 4 := Fin.ofNat 4 g
    vhGate g (headerGone g 2 s)) s

/-- The valve is released by its region (R255, R305). -/
def vlRelease (n : Fin 16) (s : State) : State := vlGate n (modVl n (fun v => { v with uvOff := false }) s)

/-! ### Diagnosis and readings (R303, R304) -/

/-- A fresh drain reading of a valve. -/
def valveReading (n : Fin 16) (mV tj : Int) (s : State) : State :=
  let s := modVl n (fun v => { v with volt := mV, tj := tj, timeV := some (now s) }) s
  let v := s.vls[n]
  let upd (k : Fin 2) (eval hold live : Bool) : Option Nat × Option Nat × Bool :=
    if eval then band hold v.diagIn[k] v.diagOut[k] live (now s) else (none, none, false)
  let r0 := upd 0 (v.st == .off && offDiag v.act && s.vhs[vlGroup n].st == .on) (decide (mV < 2000)) v.openCoil
  let r1 := upd 1 (v.st == .on) (decide (2000 < mV)) v.drainHigh
  let s := modVl n (fun v => { v with openCoil := r0.2.2, drainHigh := r1.2.2, diagIn := #v[r0.1, r1.1],
                                      diagOut := #v[r0.2.1, r1.2.1] }) s
  let hv := s.vhs[vlGroup n].volt
  let s := if r0.2.2 && !v.openCoil then vlNote 0x0609 warning n 1 (twos 32 mV) (twos 32 hv) (stickVl n 0x004 s) else s
  if r1.2.2 && !v.drainHigh then vlNote 0x0609 warning n 2 (twos 32 mV) (twos 32 hv) (stickVl n 0x008 s) else s

/-- A header's current and output conversions. -/
def headerCurrent (g : Fin 4) (mA tj : Int) (s : State) : State :=
  modVh g (fun h => { h with current := mA, tj := tj, timeI := some (now s) }) s
def headerVoltage (g : Fin 4) (mV tj : Int) (s : State) : State :=
  modVh g (fun h => { h with volt := mV, tj := tj, timeV := some (now s) }) s

/-! ### The mirror (R193, R308) -/

def vlMirror (v : VlSt) : List Byte := be 1 (if v.mode then 1 else 0) ++ be 14 0

def vlMirrorStore (n : Fin 16) (s : State) : State :=
  let v := s.vls[n]
  mirrorStore (.vl n) v.mirLife v.lastHost (vlMirror v)
    (modVl n (fun v => { v with mirPend := false, mirAt := some (now s) }) s)

def vlMirrorChange (n : Fin 16) (s : State) : State :=
  let v := s.vls[n]
  match mirrorDo (.vl n) v.mirAt (vlMirror v) s with
  | .nothing => modVl n (fun v => { v with mirPend := false }) s
  | .write => vlMirrorStore n s
  | .pend => wakeInternal 15 (modVl n (fun v => { v with mirPend := true }) s)

def vlMirrorNow (n : Fin 16) (s : State) : State :=
  if s.vls[n].mirPend then
    if mirrored (.vl n) s = some (vlMirror s.vls[n]) then
      modVl n (fun v => { v with mirPend := false, mirAt := some (now s) }) s
    else vlMirrorStore n s
  else s

/-- Set the commanded mode of a valve, attributed to `host` (R193, Table 9-11). -/
def vlCommand (n : Fin 16) (on : Bool) (host : Fin 16) (s : State) : State :=
  let v := s.vls[n]
  let s := vhCleanSync (vlGroup n) s
  let s := if v.mode == on then s else
      let s := vlMirrorChange n (modVl n (fun v => { v with mode := on, lastHost := host, mirLife := s.clk.life }) s)
      vlNote 0x0601 info n ((if on then 1 else 0) + 256 * host.val) 0 0 s
  vlGate n s

/-! ### Family 06h (R309 to R311) -/

/-- Valves of a 2-byte mask, ascending. -/
def vlMask (w : Nat) : List UnitRef := ((List.range 16).filter w.testBit).map fun n => .vl (Fin.ofNat 16 n)
def hdrMask (w : Nat) : List UnitRef := ((List.range 4).filter w.testBit).map fun n => .vh (Fin.ofNat 4 n)

/-- Single-unit statuses (R311, R313). -/
def vlStatus (o : Nat) : Half × Half :=
  match o with
  | 0x50 => (stConflict, 0)
  | 0x51 => (0x0641, 0)
  | 0x52 => (0x0642, 0)
  | o => outcomeStatus o

def vlOutcomes (q : QPkt) (rs : List UnitRes) (_ : State) : Ans := outcomesAns vlStatus q rs

/-- Turning valve `n` on conflicts with its pair (R299). -/
def exclConflict (q : QPkt) (n : Fin 16) (s : State) : Bool :=
  match s.vls[n].partner with
  | some m => s.vls[m].mode || (s.vls[n].guard_ && (s.vls[m].st == .clamp || s.vls[m].st == .window))
      || decide (UnitRef.vl m ∈ q.units)
  | none => false

/-- A turn-on refused at its instant gives back the token request of its staging (R294). -/
def unstageVl (n : Fin 16) (s : State) : State :=
  if s.vls[n].staged then vlGate n (modVl n (fun v => { v with tok := .none, tokDue := none, staged := false }) s) else s

/-- A scheduled turn-on whose token is still to come at T: TOKEN_DELAYED sets when it comes (R294). -/
def vlDue (q : QPkt) (n : Fin 16) (s : State) : State :=
  match q.effect with
  | some t =>
    modVl n (fun v => { v with staged := false
                               tokDue := if q.staged && v.st == .waitToken && !v.tok.isHeld && v.tokDue.isNone then
                                   some (max t (zone s)) else v.tokDue }) s
  | none => s

/-- VALVE_SET on one valve (R299, R311). -/
def valveSet (q : QPkt) (n : Fin 16) (s : State) : Nat × State :=
  let m := (byteAt q.pkt.payload 2).toNat
  let v := s.vls[n]
  let h := s.vhs[vlGroup n]
  if 1 < m then (0x51, unstageVl n s)
  else if m = 1 && (v.st == .tripped || v.marked || h.prot == .latched) then (0x10, unstageVl n s)
  else if m = 1 && exclConflict q n s then
    (0x50, vlNote 0x0608 info n (v.partner.elim 0 (·.val)) q.pkt.host.val (if v.guard_ then 1 else 0) (stickVl n 0x040 (unstageVl n s)))
  else
    let s := vlDue q n (vlCommand n (m = 1) q.pkt.host s)
    if m = 1 && (h.prot == .offPending || prunedAt (vlIdx n) s || v.uvOff) then (0x02, s) else (0x00, s)

def onVl (f : QPkt → Fin 16 → State → Nat × State) (g : QPkt → Fin 4 → State → Nat × State) (q : QPkt) (u : UnitRef)
    (s : State) : UnitRes × State :=
  match u with
  | .vl n => let r := f q n s; (unitRes u r.1, r.2)
  | .vh n => let r := g q n s; (unitRes u r.1, r.2)
  | _ => (unitRes u 0, s)

def noHeader : QPkt → Fin 4 → State → Nat × State := fun _ _ s => (0, s)
def noValve : QPkt → Fin 16 → State → Nat × State := fun _ _ s => (0, s)

def opValveSet : OpSpec :=
  { lenOk := fun b => b.length = 4, resOk := zeroAt [3], units := fun p _ => vlMask (numAt p.payload 0 2),
    doms := fun _ => [], act := .perUnit (onVl valveSet noHeader) vlOutcomes }

/-- VALVE_CONFIG on one valve (R311, Table 9-10). -/
def valveConfig (q : QPkt) (n : Fin 16) (s : State) : Nat × State :=
  let w := (byteAt q.pkt.payload 2).toNat
  let c := wordAt q.pkt.payload 4
  if (w.testBit 1 && fld c 25 6 = 0) || (w.testBit 2 && fld c 18 7 = 0) then (0x51, s)
  else (0x00, modVl n (fun v =>
    { v with cfg := merge v.cfg c (maskOf w [(0, 31, 1), (1, 25, 6), (2, 18, 7), (3, 10, 8), (4, 9, 1)]) }) s)

def opValveConfig : OpSpec :=
  { lenOk := fun b => b.length = 8, resOk := fun b => zeroAt [3] b && onlyBits 2 0x1F b && onlyBits 7 0xF8 b,
    units := fun p _ => vlMask (numAt p.payload 0 2), doms := fun _ => [],
    act := .perUnit (onVl valveConfig noHeader) vlOutcomes }

/-- HEADER_CONFIG on one header (R311). -/
def headerConfig (q : QPkt) (g : Fin 4) (s : State) : Nat × State :=
  let w := (byteAt q.pkt.payload 1).toNat
  let c := wordAt q.pkt.payload 4
  if w.testBit 0 && fld c 28 4 = 15 then (0x51, s)
  else (0x00, modVh g (fun h =>
    let h := { h with cfg := merge h.cfg c (maskOf w [(0, 28, 4), (1, 27, 1), (2, 23, 4), (3, 19, 4)]) }
    if w.testBit 2 then { h with retry := fld h.cfg 23 4 } else h) s)

def opHeaderConfig : OpSpec :=
  { lenOk := fun b => b.length = 8,
    resOk := fun b => zeroAt [2, 3, 6, 7] b && onlyBits 0 0x0F b && onlyBits 1 0x0F b && onlyBits 5 0xF8 b,
    units := fun p _ => hdrMask (byteAt p.payload 0).toNat, doms := fun _ => [],
    act := .perUnit (onVl noValve headerConfig) vlOutcomes }

/-- One entry of VALVE_READ (Table 9-8). -/
def valveEntry (u : UnitRef) (s : State) : List Byte :=
  match u with
  | .vl n =>
    let v := s.vls[n]
    be 4 0 ++ be 2 (twos 16 (v.volt / 10)) ++ be 1 (if v.timeV.isSome then 1 else 0) ++ be 1 0
      ++ be 4 (v.timeV.elim 0xFFFFFFFF (ageUs true · s))
  | .vh g =>
    let h := s.vhs[g]
    be 4 (twos 32 h.current) ++ be 2 (twos 16 (h.volt / 10)) ++ be 1 (if h.timeI.isSome || h.timeV.isSome then 1 else 0)
      ++ be 1 0 ++ be 4 (match h.timeI, h.timeV with
        | some i, some v => ageUs true (min i v) s
        | _, _ => 0xFFFFFFFF)
  | _ => []

def opValveRead : OpSpec :=
  { lenOk := fun b => b.length = 4, resOk := zeroAt [3],
    units := fun p _ =>
      let k := (byteAt p.payload 0).toNat
      let f := (byteAt p.payload 1).toNat
      let c := (byteAt p.payload 2).toNat
      if k = 0 && 1 ≤ c && f + c ≤ 16 then (List.range c).map fun i => UnitRef.vl (Fin.ofNat 16 (f + i))
      else if k = 1 && 1 ≤ c && f + c ≤ 4 then (List.range c).map fun i => UnitRef.vh (Fin.ofNat 4 (f + i))
      else [],
    doms := fun _ => [],
    act := .whole fun q us s => done (.ok (q.pkt.payload ++ (q.units.map fun u => if us.contains u then valveEntry u s else deadEntry 8).flatten)) s }

/-- VALVE_CLEAR on a valve (R302) and on a header (R300, R220). -/
def valveClear (q : QPkt) (n : Fin 16) (s : State) : Nat × State :=
  let v := s.vls[n]
  if v.st == .tripped || v.marked then
    let s := vlNote 0x060A info n q.pkt.host.val 0 0 (modVl n (fun v => { v with clear := true }) s)
    let s := valveRelease n s
    if s.vls[n].st == .tripped || s.vls[n].marked then (0x22, s) else (0x00, s)
  else (0x21, s)

def headerClear (q : QPkt) (g : Fin 4) (s : State) : Nat × State :=
  let s := modVh g (fun h => { h with retry := hdrRetrySet h }) s
  if s.vhs[g].prot == .none then (0x21, s)
  else
    let s := vhNote 0x060A info g q.pkt.host.val 0 0 (modVh g (fun h => { h with clear := true }) s)
    let s := decideHeader g s
    if s.vhs[g].prot == .none then (0x00, s) else (0x22, s)

def opValveClear : OpSpec :=
  { lenOk := fun b => b.length = 4, resOk := fun b => zeroAt [3] b && onlyBits 2 0x0F b,
    units := fun p _ => vlMask (numAt p.payload 0 2) ++ hdrMask (byteAt p.payload 2).toNat, doms := fun _ => [],
    act := .perUnit (onVl valveClear headerClear) vlOutcomes }

/-- VALVE_EXCL (R299, R311): one decision over both valves. -/
def valveExcl (q : QPkt) (s : State) : Ans × State :=
  let a := (byteAt q.pkt.payload 0).toNat
  let b := (byteAt q.pkt.payload 1).toNat
  if h : a < 16 ∧ b < 16 ∧ a ≠ b then
    let an : Fin 16 := ⟨a, h.1⟩
    let bn : Fin 16 := ⟨b, h.2.1⟩
    let g := (byteAt q.pkt.payload 2).getLsbD 1
    if (byteAt q.pkt.payload 2).getLsbD 0 then
      if s.vls[an].partner.isSome || s.vls[bn].partner.isSome || (s.vls[an].mode && s.vls[bn].mode) then (.err 0x0642, s)
      else (.ok, modVl bn (fun v => { v with partner := some an, guard_ := g })
        (modVl an (fun v => { v with partner := some bn, guard_ := g }) s))
    else if s.vls[an].partner == some bn then
      (.ok, modVl bn (fun v => { v with partner := none, guard_ := false })
        (modVl an (fun v => { v with partner := none, guard_ := false }) s))
    else (.ok, s)
  else (.err 0x0641, s)

/-- VALVE_EXCL executes from the queues of its two valves; an index above 15 is answered from the chip queue. -/
def opValveExcl : OpSpec :=
  { lenOk := fun b => b.length = 4, resOk := fun b => zeroAt [3] b && onlyBits 2 3 b,
    units := fun p _ =>
      let a := (byteAt p.payload 0).toNat
      let b := (byteAt p.payload 1).toNat
      if a < 16 && b < 16 then
        if a = b then [.vl (Fin.ofNat 16 a)] else [.vl (Fin.ofNat 16 (min a b)), .vl (Fin.ofNat 16 (max a b))]
      else [.chip],
    doms := fun _ => [10],
    act := .whole fun q us s => if us.length = q.units.length then let r := valveExcl q s; done r.1 r.2 else done .ok s }

end Sys2Proof.Machine
end

