-- ==== Sys2Proof/Machine/Regions.lean ====
section
/-! DEFINITION. Regions (chapter 07): governed units, inrush tokens, supply stages, undervoltage, heat, budgets, pruning
and restoration, and the commands of family 04h. -/

namespace Sys2Proof.Machine

/-- Sticky bits of word 0400h; event 223 + r on a new one (R261). -/
def stickRegion (r : Fin 7) (m : BitVec 8) (s : State) : State :=
  raiseIf (fresh s.regs[r].sticky m) (223 + r.val) (modReg r (fun x => { x with sticky := x.sticky ||| m }) s)

/-- A record of a region: unit class 11 (R262). -/
def regNote (code : Half) (sev : BitVec 2) (r : Fin 7) (p1 p2 p3 : Nat) (s : State) : State :=
  note code sev 11 r.val p1 p2 p3 s

/-- The domains of a region (Table 1-3). -/
def regionDomains (r : Fin 7) : List (Fin 16) :=
  if r.val < 5 then [Fin.ofNat 16 (6 + r.val)] else if r.val = 5 then [11, 12, 13] else [0, 1, 2, 3, 4, 5, 14, 15]
/-- The region domain is on. -/
def regionOn (r : Fin 7) (s : State) : Bool := (regionDomains r).any fun d => domOn d s

/-! ### Governed units (Table 7-1) -/

def idxRegion (i : Fin 120) : Fin 7 := if i.val < 96 then Fin.ofNat 7 (i.val / 24) else 4

/-- The governed indices of a region, ascending. -/
def regionUnits (r : Fin 7) : List (Fin 120) :=
  if r.val < 4 then (List.range 24).map fun k => Fin.ofNat 120 (24 * r.val + k)
  else if r.val = 4 then (List.range 24).map fun k => Fin.ofNat 120 (96 + k)
  else []

def asOut (i : Fin 120) : Fin 96 := Fin.ofNat 96 i.val
def asBr (i : Fin 120) : Fin 8 := Fin.ofNat 8 (i.val - 96)
def asVl (i : Fin 120) : Fin 16 := Fin.ofNat 16 (i.val - 104)
def isOutIdx (i : Fin 120) : Bool := i.val < 96
def isBrIdx (i : Fin 120) : Bool := 96 ≤ i.val && i.val < 104

/-- A gang is governed as one unit, at its primary (R236). -/
def governed (i : Fin 120) (s : State) : Bool := !(isOutIdx i && isSecondary (asOut i) s)

/-- The unit an index of word 0404h names, as commands address it (R258). -/
def idxUnit (i : Fin 120) : UnitRef :=
  if isOutIdx i then .out (asOut i) else if isBrIdx i then .leg (legA (asBr i)) else .vl (asVl i)

def tokOf (i : Fin 120) (s : State) : Tok :=
  if isOutIdx i then s.outs[asOut i].tok else if isBrIdx i then s.brs[asBr i].tok else s.vls[asVl i].tok

def setTok (i : Fin 120) (t : Tok) (s : State) : State :=
  if isOutIdx i then modOut (asOut i) (fun c => { c with tok := t }) s
  else if isBrIdx i then modBr (asBr i) (fun b => { b with tok := t }) s
  else modVl (asVl i) (fun v => { v with tok := t }) s

/-- Grant the request. In time, the instant that the token was due at is met (R182, R184, R241). -/
def grantTok (i : Fin 120) (units : Nat) (s : State) : State :=
  let left (due : Option Nat) : Option Nat := due.filter fun t => decide (t < zone s)
  if isOutIdx i then modOut (asOut i) (fun c => { c with tok := .held units, tokDue := left c.tokDue }) s
  else if isBrIdx i then modBr (asBr i) (fun b => { b with tok := .held units, tokDue := left b.tokDue }) s
  else modVl (asVl i) (fun v => { v with tok := .held units, tokDue := left v.tokDue }) s

/-- The unit's state follows its demand and inhibits. -/
def settleIdx (i : Fin 120) (s : State) : State :=
  if isOutIdx i then settle (asOut i) s else if isBrIdx i then brGate (asBr i) s else vlGate (asVl i) s

/-- Token weight (Table 7-1, R294). -/
def weight (i : Fin 120) (s : State) : Nat :=
  if isOutIdx i then
    let w := classWeight (outClass (asOut i))
    if s.outs[asOut i].partner.isSome then 2 * w else w
  else if isBrIdx i then (if i.val < 98 then 4 else 2)
  else
    let h := s.vhs[vlGroup (asVl i)]
    if h.st == .on || (h.st == .rising && h.stateAt = now s) then 1 else 2

/-- The unit is turned on (conducts or drives). -/
def idxConducting (i : Fin 120) (s : State) : Bool :=
  if isOutIdx i then conducting s.outs[asOut i]
  else if isBrIdx i then s.brs[asBr i].inMotion || s.brs[asBr i].st == .brake
  else s.vls[asVl i].st == .on || s.vls[asVl i].st == .clamp

def idxUvOff (i : Fin 120) (s : State) : Bool :=
  if isOutIdx i then s.outs[asOut i].uvOff else if isBrIdx i then s.brs[asBr i].uvOff else s.vls[asVl i].uvOff

/-! ### Inrush tokens (R237 to R241) -/

def tTKA : Nat := 20 * Config.ms

def isWaiting (i : Fin 120) (s : State) : Bool := match tokOf i s with | .waiting _ _ => true | _ => false
def heldUnits (i : Fin 120) (s : State) : Nat := match tokOf i s with | .held u => u | _ => 0
def tokensUsed (r : Fin 7) (s : State) : Nat := ((regionUnits r).map (heldUnits · s)).sum
def waitingUnits (r : Fin 7) (s : State) : List (Fin 120) := (regionUnits r).filter (isWaiting · s)

/-- Request `a` stands before request `b` (R238). -/
def tokBefore (s : State) (a b : Fin 120) : Bool :=
  match tokOf a s, tokOf b s with
  | .waiting ta aa, .waiting tb ab =>
    if aa != ab then aa
    else if s.prune[a].cls != s.prune[b].cls then decide (s.prune[a].cls.toNat < s.prune[b].cls.toNat)
    else if ta ≠ tb then decide (ta < tb)
    else decide (a.val < b.val)
  | _, _ => false

def firstWaiting (s : State) : List (Fin 120) → Option (Fin 120)
  | [] => none
  | a :: r => match firstWaiting s r with
    | none => some a
    | some b => some (if tokBefore s b a then b else a)

/-- One pass of R238; `fuel` bounds it by the number of units. -/
def grantPass (r : Fin 7) : Nat → State → State
  | 0, s => s
  | fuel + 1, s =>
    match firstWaiting s (waitingUnits r s) with
    | none => s
    | some i =>
      let b := tokenBudget r s
      let w := min (weight i s) b
      if b < tokensUsed r s + w then s
      else
        let s := match tokOf i s with
          | .waiting t true => note 0x0409 info 11 r.val i.val ((now s - t) / Config.us) 0 s
          | _ => s
        grantPass r fuel (settleIdx i (grantTok i w s))

/-- TOKEN_GRANT (R238, R240): while the region domain is on. -/
def tokenGrant (r : Fin 7) (s : State) : State := if regionOn r s then grantPass r 24 s else s

/-- TOKEN_AGED (R238): requests that have waited tTKA. -/
def tokenAged (r : Fin 7) (s : State) : State :=
  (regionUnits r).foldl (fun s i =>
    match tokOf i s with
    | .waiting t false => if t + tTKA ≤ now s then stickRegion r 0x04 (setTok i (.waiting t true) s) else s
    | _ => s) s

/-! ### Stages and pruning (R243, R249, R252 to R257) -/

/-- The highest level set, of three (R243, R249). -/
def highest (l : BitVec 3) : Nat := if l.getLsbD 2 then 3 else if l.getLsbD 1 then 2 else if l.getLsbD 0 then 1 else 0

def supplyStage (r : Fin 7) (s : State) : Nat := highest s.regs[r].level
def thermStage (r : Fin 7) (s : State) : Nat := highest s.regs[r].therm
def pruneStage (r : Fin 7) (s : State) : Nat :=
  max (max (supplyStage r s) (thermStage r s)) (max s.regs[r].budget s.modb.stage)

/-- A stage prunes a class (R254). -/
def prunes (stage : Nat) (cls : BitVec 2) : Bool := cls != 0 && decide (4 ≤ cls.toNat + stage)

/-- CAUSE (R254): the first of supply, thermal, budget whose stage prunes the class. -/
def pruneCause (r : Fin 7) (cls : BitVec 2) (s : State) : BitVec 2 :=
  if prunes (supplyStage r s) cls then 1 else if prunes (thermStage r s) cls then 2
  else if prunes (max s.regs[r].budget s.modb.stage) cls then 3 else 0

def modPrune (i : Fin 120) (f : PruneSt → PruneSt) (s : State) : State := { s with prune := s.prune.set i (f s.prune[i]) }

/-- PRUNED_SEEN; event 223 + r on a new one (R261). -/
def stickPruned (i : Fin 120) (s : State) : State :=
  raiseIf (!s.prune[i].seen) (223 + (idxRegion i).val) (modPrune i (fun p => { p with seen := true }) s)

/-- The pruning pass on one unit (R254), counting units pruned and units put on the restore list. -/
def pruneUnit (r : Fin 7) (i : Fin 120) (acc : State × Nat × Nat) : State × Nat × Nat :=
  let s := acc.1
  let p := s.prune[i]
  if !governed i s then acc
  else if prunes (pruneStage r s) p.cls then
    let s := modPrune i (fun p => { p with cause := pruneCause r p.cls s }) s
    if p.pruned && i ∉ s.regs[r].restore then (s, acc.2)
    else
      let s := modPrune i (fun p => { p with pruned := true }) s
      let s := modReg r (fun x => { x with restore := x.restore.filter (· ≠ i) }) s
      (settleIdx i (stickPruned i s), if p.pruned then acc.2 else (acc.2.1 + 1, acc.2.2))
  else if p.pruned && i ∉ s.regs[r].restore then
    (modReg r (fun x => { x with restore := x.restore ++ [i] }) s, acc.2.1, acc.2.2 + 1)
  else acc

/-- The pruning pass of a region whose domain is on (R254, R257). -/
def pruning (r : Fin 7) (s : State) : State × Nat × Nat :=
  if r.val < 5 && regionOn r s then (regionUnits r).foldl (fun a i => pruneUnit r i a) (s, 0, 0) else (s, 0, 0)

def applyPruning (r : Fin 7) (s : State) : State := (pruning r s).1

/-- tRSG (R255). -/
def tRSG : Nat := 100 * Config.us

/-- The unit that the restore list gives next: class, then index (R255). -/
def nextRestore (r : Fin 7) (s : State) : Option (Fin 120) :=
  s.regs[r].restore.foldl (fun best i =>
    match best with
    | none => some i
    | some b =>
      let ci := s.prune[i].cls.toNat
      let cb := s.prune[b].cls.toNat
      some (if ci < cb ∨ (ci = cb ∧ i.val < b.val) then i else b)) none

/-- A unit leaves the restore list: no longer pruned or undervoltage-off; with demand it asks for its token. -/
def releaseUnit (i : Fin 120) (s : State) : State :=
  let s := modPrune i (fun p => { p with pruned := false, cause := 0 }) s
  if isOutIdx i then settle (asOut i) (modPair (asOut i) (fun c => { c with uvOff := false }) s)
  else if isBrIdx i then brRelease (asBr i) s
  else vlRelease (asVl i) s

/-- RESTORE_RELEASE (R255, R257): one unit, at most one every tRSG. -/
def restoreRelease (r : Fin 7) (s : State) : State :=
  match nextRestore r s with
  | none => s
  | some i =>
    let x := s.regs[r]
    if regionOn r s && !x.uv && (match x.releaseAt with | some t => decide (t + tRSG ≤ now s) | none => true) then
      releaseUnit i (modReg r (fun x => { x with restore := x.restore.filter (· ≠ i), releaseAt := some (now s) }) s)
    else s

/-- A stage of the region has fallen: the pruning pass, then record 0407h (R255, Table 7-13). -/
def stageFell (r : Fin 7) (kind new : Nat) (s : State) : State :=
  let p := pruning r s
  regNote 0x0407 info r kind new p.2.2 p.1

/-! ### Supply (R242 to R245) -/

/-- PRUNE1 to PRUNE3 of a region in mV. -/
def pruneMV (w : Word) (n : Fin 3) : Nat := fld w (23 - 9 * n.val) 9 * 100

/-- tSRC (R243). -/
def tSRC : Nat := 10 * Config.ms

/-- PRUNE_FILTER (R243). -/
def pruneFilter (w : Word) : Nat := 20 * 2 ^ fld w 2 3 * Config.us

/-- A sample of a region supply; the time below 4.0 V runs until undervoltage-off has been restored (R242, Table 7-13). -/
def setVs (r : Fin 7) (mV : Nat) (s : State) : State :=
  modReg r (fun x => { x with vs := mV, lowAt := if mV < 4000 then some (x.lowAt.getD (now s)) else if x.uv then x.lowAt else none }) s

/-- SUPPLY_LEVEL_SET (R243): every sample for `heldUS` lies below PRUNEn, which takes PRUNE_FILTER. -/
def supplyLevelSet (r : Fin 7) (n : Fin 3) (mV heldUS : Nat) (s : State) : State :=
  let s := setVs r mV s
  if mV < pruneMV s.regs[r].cfg1 n && pruneFilter s.regs[r].cfg1 ≤ heldUS * Config.us then
    let old := supplyStage r s
    let s := modReg r (fun x => { x with level := x.level ||| BitVec.ofNat 3 (2 ^ (n.val + 1) - 1) }) s
    if old < supplyStage r s then
      let p := pruning r (stickRegion r 0x40 s)
      regNote 0x0401 warning r (supplyStage r s) mV p.2.1 p.1
    else s
  else s

/-- SUPPLY_LEVEL_CLEAR (R243): every sample for `heldUS` lies at or above PRUNEn + 0.5 V, which takes tSRC. -/
def supplyLevelClear (r : Fin 7) (n : Fin 3) (mV heldUS : Nat) (s : State) : State :=
  let s := setVs r mV s
  if pruneMV s.regs[r].cfg1 n + 500 ≤ mV && tSRC ≤ heldUS * Config.us then
    let old := supplyStage r s
    let s := modReg r (fun x => { x with level := x.level &&& ~~~ BitVec.ofNat 3 (2 ^ n.val) }) s
    if supplyStage r s < old then stageFell r 1 (supplyStage r s) s else s
  else s

/-- Undervoltage-off of one unit (R245): OUT cells fall at SLEW 0. -/
def uvUnit (i : Fin 120) (s : State) : State :=
  if isOutIdx i then
    let n := asOut i
    let s := settle n (modPair n (fun c => { c with uvOff := true }) s)
    if s.outs[n].st == .falling then modPair n (fun c => { c with slewAct := 0 }) s else s
  else if isBrIdx i then brUndervoltage (asBr i) s
  else vlUndervoltage (asVl i) s

/-- UNDERVOLTAGE_OFF (R245): the region supply has fallen below 3.5 V. -/
def undervoltageOff (r : Fin 7) (mV : Nat) (s : State) : State :=
  let s := setVs r mV s
  if mV < 3500 then
    if s.regs[r].uv then modReg r (fun x => { x with uvLow := min x.uvLow mV }) s
    else
      let us := (regionUnits r).filter (governed · s)
      let off := (us.filter (idxConducting · s)).length
      let s := modReg r (fun x => { x with uv := true, uvAt := now s, uvLow := mV,
                                           restore := x.restore.filter fun i => s.prune[i].pruned }) s
      let s := us.foldl (fun s i => uvUnit i s) s
      let s := if r = 4 then headersUndervoltage s else s
      regNote 0x0402 error r mV off 0 (stickRegion r 0x80 s)
  else s

/-- A unit that undervoltage held off joins the restore list; one that its stage prunes joins it when the stage lets it, and is released
from both then (R245, R254, R280). -/
def uvToList (r : Fin 7) (i : Fin 120) (s : State) : State :=
  if idxUvOff i s && !s.prune[i].pruned && i ∉ s.regs[r].restore then
    modReg r (fun x => { x with restore := x.restore ++ [i] }) s
  else s

/-- UNDERVOLTAGE_RESTORE (R245): at or above 4.0 V for `heldUS`, which takes tSRC. The headers of region 4 follow their valves again. -/
def undervoltageRestore (r : Fin 7) (mV heldUS : Nat) (s : State) : State :=
  let s := setVs r mV s
  if s.regs[r].uv && 4000 ≤ mV && tSRC ≤ heldUS * Config.us then
    let us := (regionUnits r).filter fun i => governed i s && idxUvOff i s
    let x := s.regs[r]
    let low := (now s - heldUS * Config.us - x.lowAt.getD x.uvAt) / Config.ms
    let s := modReg r (fun x => { x with uv := false, lowAt := none }) s
    let s := us.foldl (fun s i => uvToList r i s) s
    let s := if r = 4 then (List.range 4).foldl (fun s g => vhGate (Fin.ofNat 4 g) s) s else s
    regNote 0x0403 info r low us.length 0 s
  else s

/-! ### Heat (R246 to R250) -/

/-- Rows and columns of a grid (Table 7-2). -/
def gridShape (r : Fin 7) : Nat × Nat := if r.val < 4 then (6, 8) else if r.val = 4 then (4, 6) else if r.val = 5 then (2, 4) else (2, 2)

/-- Valid orthogonal neighbours of sensor i. -/
def neighbours (r : Fin 7) (bad : List Nat) (i : Nat) : List Nat :=
  let sh := gridShape r
  let row := i / sh.2
  let col := i % sh.2
  ((if 0 < row then [i - sh.2] else []) ++ (if row + 1 < sh.1 then [i + sh.2] else [])
    ++ (if 0 < col then [i - 1] else []) ++ (if col + 1 < sh.2 then [i + 1] else [])).filter fun j => !bad.contains j

/-- THERM_LIMIT in degC. -/
def thermLimit (x : RegSt) : Nat := fld x.cfg2 24 8

/-- H in 1/240 degC with the index of the sensor it comes from (R247, R248). -/
def hotSpot (r : Fin 7) (t : List Int) (bad : List Nat) (limit : Nat) : Int × Nat :=
  let sh := gridShape r
  let good := (List.range (sh.1 * sh.2)).filter fun i => !bad.contains i
  let e (i : Nat) : Int :=
    let nb := neighbours r bad i
    let n := nb.length
    let ti := t.getD i 0
    if n = 0 then 24 * ti
    else 24 * ti + max 0 ((n * ti - (nb.map (t.getD · 0)).sum) * 12 / n)
  let best := good.foldl (fun (b : Option (Int × Nat)) i =>
    match b with
    | none => some (e i, i)
    | some (h, j) => some (if h < e i then (e i, i) else (h, j))) none
  match best with
  | none => (240 * (limit : Int), 0)
  | some (h, i) => (if 8 ≤ bad.length then h + 2400 else h, i)

/-- Mean of the neighbours in 0.1 degC; 0 without one. -/
def neighbourMean (t : List Int) (nb : List Nat) : Int :=
  if nb.isEmpty then 0 else (nb.map (t.getD · 0)).sum / nb.length

/-- A sensor becomes invalid: GRID_FAULT, record 0408h, and the block's contained fault 03h (R248, R513). -/
def gridFault (r : Fin 7) (i : Nat) (t mean : Int) (inj : Bool) (s : State) : State :=
  let s := stickRegion r 0x02 (modReg r (fun x => { x with invalid := x.invalid ++ [i] }) s)
  let s := record 0x0408 warning 2 11 r.val i (twos 32 t) (twos 32 mean) s (if inj then 1 else 0)
  containedFault (regionBlock r) 3 i true inj s

/-- The thermal levels that H sets (R249). -/
def thermLevels (h : Int) (limit : Nat) : BitVec 3 :=
  (if 240 * ((limit : Int) - 10) ≤ h then 1 else 0) ||| (if 240 * ((limit : Int) - 5) ≤ h then 2 else 0)
    ||| (if 240 * (limit : Int) ≤ h then 4 else 0)

/-- The setting point of a level in 1/240 degC. -/
def thermSet (limit : Nat) (n : Fin 3) : Int := 240 * ((limit : Int) - 10 + 5 * n.val)

/-- The sensor an armed injection of checker 03h turns over in this round. -/
def injectedSensor (r : Fin 7) (s : State) : Option Nat :=
  match s.flt.inject with
  | some j => if armed j && j.checker == 3 && j.block = regionBlock r then some j.target else none
  | none => none

/-- THERMAL_ROUND (R246 to R249): one round of readings in 0.1 degC, while the region domain is on. -/
def thermalRound (r : Fin 7) (t : List Int) (s : State) : State :=
  if !regionOn r s then s
  else
    let x := s.regs[r]
    let sh := gridShape r
    let inj := injectedSensor r s
    let s := (injTake 3 (regionBlock r) s).2
    let live := (List.range (sh.1 * sh.2)).filter fun i => !x.invalid.contains i
    let out := live.filter fun i => t.getD i 0 < -500 || 2000 < t.getD i 0 || inj == some i
    let bad := x.invalid ++ out
    let dev := (live.filter (!out.contains ·)).filter fun i =>
      let nb := neighbours r bad i
      !nb.isEmpty && decide (400 * nb.length < (nb.length * t.getD i 0 - (nb.map (t.getD · 0)).sum).natAbs)
    let counts := dev.map fun i => (i, ((x.deviant.find? (·.1 = i)).elim 0 (·.2)) + 1)
    let gone := out ++ (counts.filter (fun c => 3 ≤ c.2)).map (·.1)
    let s := gone.foldl (fun s i => gridFault r i (t.getD i 0) (neighbourMean t (neighbours r bad i)) (inj == some i) s) s
    let h := hotSpot r t s.regs[r].invalid (thermLimit x)
    let old := thermStage r s
    let lim := thermLimit x
    let cool := (Vector.ofFn fun n : Fin 3 =>
      if h.1 ≤ thermSet lim n - 1200 then some ((x.coolAt[n]).getD (now s)) else none)
    let s := modReg r (fun x =>
      { x with hot := h.1, hotIdx := h.2, hotValid := true, temps := t, deviant := counts.filter fun c => c.2 < 3,
               therm := x.therm ||| thermLevels h.1 lim, coolAt := cool }) s
    if old < thermStage r s then
      let p := pruning r (stickRegion r 0x20 s)
      regNote 0x0404 warning r (thermStage r s) (twos 32 (h.1 / 24)) h.2 p.1
    else s

/-- THERMAL_LEVEL_CLEAR (R249): H has stayed 5 degC below the setting point for 1 s; in retention the stage holds (R250). -/
def thermalLevelClear (r : Fin 7) (n : Fin 3) (s : State) : State :=
  let x := s.regs[r]
  match x.coolAt[n] with
  | some t =>
    if regionOn r s && x.therm.getLsbD n.val && decide (t + Config.sec ≤ now s) then
      let old := thermStage r s
      let s := modReg r (fun x => { x with therm := x.therm &&& ~~~ BitVec.ofNat 3 (2 ^ n.val) }) s
      if thermStage r s < old then stageFell r 2 (thermStage r s) s else s
    else s
  | none => s

/-! ### Dissipation (R251 to R253) -/

/-- Typical on-resistance at 25 degC in uOhm (Table 5-1). -/
def outOhm (cls : Nat) : Nat := if cls = 0 then 2500 else if cls = 1 then 12000 else 55000

/-- i^2 R(TJ) in uW: i in mA, R in uOhm (R251). -/
def switchUW (mA uOhm : Nat) (tj : Int) : Nat :=
  ((mA * mA * uOhm : Nat) * (10000 + 64 * (tj - 25)) / 10000 / 1000000).toNat

/-- Dissipation in uW and current in mA of a region (R251). -/
def estimate (r : Fin 7) (s : State) : Nat × Nat :=
  if r.val < 4 then
    (List.range 24).foldl (fun a k =>
      let n : Fin 96 := Fin.ofNat 96 (24 * r.val + k)
      let c := s.outs[n]
      let i := (c.rb.current / 1000).toNat
      if conducting c then (a.1 + switchUW i (outOhm (outClass n)) c.tj, a.2 + i) else a) (0, 0)
  else if r.val = 4 then
    let br := (List.range 16).foldl (fun a n =>
      let n : Fin 16 := Fin.ofNat 16 n
      let b := s.brs[legBridge n]
      let m := if n.val % 2 = 0 then (legModes b).1 else (legModes b).2
      let i := b.current.natAbs
      if m ≠ 0 then (a.1 + switchUW i (if heavyLeg n then 5000 else 20000) s.legs[n].tj,
                     if n.val % 2 = 0 then a.2 + i else a.2) else a) (0, 0)
    (List.range 4).foldl (fun a g =>
      let g : Fin 4 := Fin.ofNat 4 g
      let h := s.vhs[g]
      let on := (groupValves g).filter fun n => s.vls[n].st == .on || s.vls[n].st == .clamp
      let ih := h.current.toNat
      let hdr := h.st == .rising || h.st == .on
      let p := (on.map fun n =>
        switchUW (if on.length = 1 then ih else Config.valveShare n.val ih) 150000 s.vls[n].tj).sum
      (a.1 + p + (if hdr then switchUW ih 25000 h.tj else 0), if on.isEmpty && !hdr then a.2 else a.2 + ih)) br
  else (0, 0)

/-- Samples of one second (R251). -/
def samplesOf : Nat := 10000

/-- Put a sample in front and keep the last 10,000. -/
def keepSamples : Nat → List (Nat × Nat × Nat) → List (Nat × Nat × Nat)
  | _, [] => []
  | left, (c, x) :: rest => if left ≤ c then [(left, x)] else (c, x) :: keepSamples (left - c) rest

def addSample (p i : Nat) (l : List (Nat × Nat × Nat)) : List (Nat × Nat × Nat) :=
  match l with
  | (c, p', i') :: rest => if p' = p && i' = i then keepSamples samplesOf ((c + 1, p', i') :: rest)
                           else keepSamples samplesOf ((1, p, i) :: l)
  | [] => [(1, p, i)]

/-- POWER_AVG in mW and CURRENT_AVG in mA: means over the last second. -/
def powerAvg (x : RegSt) : Nat := (x.samples.foldl (fun a e => a + e.1 * e.2.1) 0) / samplesOf / 1000
def currentAvg (x : RegSt) : Nat := (x.samples.foldl (fun a e => a + e.1 * e.2.2) 0) / samplesOf

/-- DISSIPATION_ESTIMATE (R251): every 100 us while the region domain is on. -/
def dissipationEstimate (r : Fin 7) (s : State) : State :=
  if regionOn r s then
    let e := estimate r s
    modReg r (fun x => { x with samples := addSample e.1 e.2 x.samples }) s
  else s

/-- tBGS and tBGR (R252). -/
def tBGS : Nat := 1 * Config.sec
def tBGR : Nat := 10 * Config.sec

/-- One step of a budget stage (R252): the stage, the instant of its last change, and the start of the low count. -/
def budgetRule (over_ low : Bool) (stage : Nat) (last lowAt : Option Nat) (t : Nat) : Nat × Option Nat × Option Nat :=
  let settled := match last with | some l => decide (l + tBGS ≤ t) | none => true
  let lowAt := if low then some (lowAt.getD t) else none
  if over_ && settled && decide (stage < 3) then (stage + 1, some t, lowAt)
  else match lowAt with
    | some l => if settled && decide (0 < stage) && decide (l + tBGR ≤ t) then (stage - 1, some t, some t) else (stage, last, lowAt)
    | none => (stage, last, lowAt)

def pmaxMW (x : RegSt) : Nat := fld x.cfg2 16 8 * 125
def imaxMA (x : RegSt) : Nat := fld x.cfg2 8 8 * 1000

/-- BUDGET_STEP (R252) of regions 0 to 4; in retention a stage steps and prunes nothing (R257). -/
def budgetStep (r : Fin 7) (s : State) : State :=
  if r.val < 5 then
    let x := s.regs[r]
    let p := powerAvg x
    let i := currentAvg x
    let over_ := decide (pmaxMW x < p) || decide (imaxMA x < i)
    let low := decide (10 * p < 8 * pmaxMW x) && decide (10 * i < 8 * imaxMA x)
    let b := budgetRule over_ low x.budget x.budgetAt x.budgetLow (now s)
    let s := modReg r (fun x => { x with budget := b.1, budgetAt := b.2.1, budgetLow := b.2.2 }) s
    let s := if imaxMA x < i then stickRegion r 0x01 s else s
    if x.budget < b.1 then regNote 0x0405 warning r b.1 p i (pruning r (stickRegion r 0x10 s)).1
    else if b.1 < x.budget then stageFell r 3 b.1 s
    else s
  else s

/-- MODULE_BUDGET_STEP (R253): `ownMW` is the 1 s mean of the module's own consumption at VS5 and VS6. -/
def moduleBudgetStep (ownMW : Nat) (s : State) : State :=
  let m := s.modb
  let p := ((List.range 5).map fun r => powerAvg s.regs[Fin.ofNat 7 r]).sum + ownMW
  let lim := m.pmax * 250
  let b := budgetRule (decide (lim < p)) (decide (10 * p < 8 * lim)) m.stage m.at_ m.lowAt (now s)
  let s := { s with modb := { m with own := ownMW, pavg := p, stage := b.1, at_ := b.2.1, lowAt := b.2.2 } }
  if m.stage < b.1 then
    let s := (List.range 5).foldl (fun s r => (pruning (Fin.ofNat 7 r) (stickRegion (Fin.ofNat 7 r) 0x08 s)).1) s
    note 0x0406 warning 0 0 b.1 p lim s
  else if b.1 < m.stage then (List.range 5).foldl (fun s r => stageFell (Fin.ofNat 7 r) 4 b.1 s) s
  else s

/-! ### GANG_SET (R185, R254) -/

/-- A cell that joins or leaves a gang meets the present stage (R236, R254). -/
def opGangSet : OpSpec :=
  { lenOk := fun b => b.length = 4, resOk := fun b => zeroAt [3] b && onlyBits 2 1 b,
    units := fun p _ =>
      let a := (byteAt p.payload 0).toNat
      let c := (byteAt p.payload 1).toNat
      if a < 96 && c < 96 then
        if a = c then [.out (Fin.ofNat 96 a)] else [.out (Fin.ofNat 96 (min a c)), .out (Fin.ofNat 96 (max a c))]
      else [],
    doms := fun _ => [],
    act := .whole fun q us s => if us.length = q.units.length then
        let r := gangSet q s
        let n : Fin 96 := Fin.ofNat 96 (byteAt q.pkt.payload 0).toNat
        done r.1 (if r.2.outs[n].partner = s.outs[n].partner then r.2 else applyPruning (outRegion n) r.2)
      else done .ok s }

/-! ### Family 04h (R258, R259) -/

/-- The resulting thresholds and limits are permitted (R244, Table 7-9). -/
def regionOk (w : Nat) (c1 c2 : Word) : Bool :=
  let p (n : Fin 3) := pruneMV c1 n
  decide (p 1 < p 0) && decide (p 2 < p 1) && decide (4500 ≤ p 2) && decide (p 0 ≤ 34000)
    && (!w.testBit 4 || (100 ≤ fld c2 24 8 && fld c2 24 8 ≤ 165)) && (!w.testBit 5 || (8 ≤ fld c2 16 8 && fld c2 16 8 ≤ 80))
    && (!w.testBit 6 || (1 ≤ fld c2 8 8 && fld c2 8 8 ≤ 45)) && (!w.testBit 7 || 1 ≤ fld c2 4 4)

def regionConfigOne (b : List Byte) (r : Fin 7) (s : State) : Nat × State :=
  let w := numAt b 2 2
  let x := s.regs[r]
  let c1 := merge x.cfg1 (wordAt b 4) (maskOf w [(0, 23, 9), (1, 14, 9), (2, 5, 9), (3, 2, 3)])
  let c2 := merge x.cfg2 (wordAt b 8) (maskOf w [(4, 24, 8), (5, 16, 8), (6, 8, 8), (7, 4, 4)])
  if regionOk w c1 c2 then
    (0x00, regNote 0x040A info r w c1.toNat c2.toNat (modReg r (fun x => { x with cfg1 := c1, cfg2 := c2 }) s))
  else (0x30, s)

def opRegionConfig : OpSpec :=
  { lenOk := fun b => b.length = 12,
    resOk := fun b => zeroAt [1, 2] b && onlyBits 0 0x7F b && onlyBits 7 0xFC b && onlyBits 11 0xF0 b,
    units := fun p _ => ((List.range 7).filter (byteAt p.payload 0).getLsbD).map fun r => .region (Fin.ofNat 7 r),
    doms := fun _ => [],
    act := .perUnit
      (fun q u s => match u with
        | .region r => let x := regionConfigOne q.pkt.payload r s; (unitRes u x.1, x.2)
        | _ => (unitRes u 0, s))
      (fun q rs _ => outcomesAns outcomeStatus q rs) }

/-- The index of word 0404h that a unit has. -/
def unitIdx : UnitRef → Option (Fin 120)
  | .out n => some (outIdx n)
  | .leg n => some (brIdx (legBridge n))
  | .vl n => some (vlIdx n)
  | _ => none

/-- PRUNE_CLASS_SET on one unit (R256). -/
def pruneClassOne (cls : BitVec 2) (i : Fin 120) (s : State) : Nat × State :=
  if !governed i s then (0x13, s)
  else (0x00, applyPruning (idxRegion i) (modPrune i (fun p => { p with cls := cls }) s))

def opPruneClassSet : OpSpec :=
  { lenOk := fun b => b.length = 20, resOk := fun b => zeroAt [16, 17, 18, 19] b && onlyBits 15 3 b,
    units := fun p _ =>
      let m := numAt p.payload 0 15
      ((List.range 120).filter m.testBit).map fun i => idxUnit (Fin.ofNat 120 i),
    doms := fun _ => [],
    act := .perUnit
      (fun q u s => match unitIdx u with
        | some i => let x := pruneClassOne (BitVec.ofNat 2 (byteAt q.pkt.payload 15).toNat) i s; (unitRes u x.1, x.2)
        | none => (unitRes u 0, s))
      (fun q rs _ => outcomesAns outcomeStatus q rs) }

def opModuleBudget : OpSpec :=
  chipOp 4 [] (zeroAt [1, 2, 3]) fun q s =>
    let v := (byteAt q.pkt.payload 0).toNat
    if 20 ≤ v && v ≤ 120 then done .ok { s with modb := { s.modb with pmax := v } } else refuse 0x0440 s

end Sys2Proof.Machine
end

