-- ==== Sys2Proof/Machine/Inputs.lean ====
section
/-! DEFINITION. Switch inputs, cyclic sensing, analog inputs and field I/O (chapter 10), with the commands of families
07h and 08h. Voltages in mV. -/

namespace Sys2Proof.Machine

def modIo (f : IoSt → IoSt) (s : State) : State := { s with io := f s.io }
def modSw (n : Fin 64) (f : SwSt → SwSt) (s : State) : State := modIo (fun x => { x with sw := x.sw.set n (f x.sw[n]) }) s
def modAn (n : Fin 12) (f : AnSt → AnSt) (s : State) : State := modIo (fun x => { x with an := x.an.set n (f x.an[n]) }) s
def modFi (n : Fin 16) (f : FiSt → FiSt) (s : State) : State := modIo (fun x => { x with fi := x.fi.set n (f x.fi[n]) }) s
def modFq (n : Fin 16) (f : FqSt → FqSt) (s : State) : State := modIo (fun x => { x with fq := x.fq.set n (f x.fq[n]) }) s
def modFld (f : FieldSt → FieldSt) (s : State) : State := modIo (fun x => { x with fld := f x.fld }) s

/-! ### Sticky bits (R341) -/

def stickSw (n : Fin 64) (m : BitVec 4) (s : State) : State :=
  raiseIf (fresh s.io.sw[n].sticky m) (132 + n.val) (modSw n (fun x => { x with sticky := x.sticky ||| m }) s)
def stickAn (n : Fin 12) (m : BitVec 2) (s : State) : State :=
  raiseIf (fresh s.io.an[n].sticky m) (184 + n.val) (modAn n (fun x => { x with sticky := x.sticky ||| m }) s)
/-- FAULT_SEEN raises event 196, the others of word 0800h event 197. -/
def stickFld (m : BitVec 4) (s : State) : State :=
  let old := s.io.fld.sticky
  let s := modFld (fun x => { x with sticky := x.sticky ||| m }) s
  raiseIf (fresh old (m &&& 0xE)) 197 (raiseIf (fresh old (m &&& 1)) 196 s)

/-! ### Samples (R316, R317) -/

/-- THRESH in mV (Table 10-1). -/
def threshMV (w : Word) : Nat := [2000, 2500, 3000, 4000, 5000, 6000, 7000, 8000].getD (fld w 28 3) 0

/-- The raw value of a sample: CLOSED is true (R316). -/
def rawOf (w : Word) (prev : Bool) (mv : Nat) : Bool :=
  let lo := threshMV w
  if w.getLsbD 31 then (if lo + 300 < mv then true else if mv < lo then false else prev)
  else (if mv < lo then true else if lo + 300 < mv then false else prev)

/-- The input is not evaluated while VS5 is low (R317). -/
def supplyHeld (w : Word) (s : State) : Bool := !w.getLsbD 31 && decide (s.regs[(5 : Fin 7)].vs < threshMV w + 2000)

def swCyclic (w : Word) : Bool := w.getLsbD 15
def swAnalog (w : Word) : Bool := w.getLsbD 14
def swEnable (w : Word) : Bool := w.getLsbD 13
def swDebounce (w : Word) : Nat := fld w 16 8
/-- Sensed cyclically (R320). -/
def swArmed (w : Word) : Bool := swCyclic w && !swAnalog w

/-- An edge of a switch input (R319): sticky bit, and the reflex engine. -/
def swEdge (n : Fin 64) (closed : Bool) (z : Nat) (s : State) : State :=
  pushOccAt (.swEdge n.val closed) z (stickSw n (if closed then 2 else 1) s)

/-- One full-rate sample of one input (R318, R319). -/
def rakeOne (mv : Nat) (n : Fin 64) (s : State) : State :=
  let x := s.io.sw[n]
  if !swEnable x.cfg then s
  else if supplyHeld x.cfg s then modSw n (fun x => { x with hold := true, run := 0 }) s
  else
    let raw := rawOf x.cfg x.raw mv
    let same := x.run ≠ 0 && x.runVal == raw
    let run := if x.valid && raw == x.closed then 0 else if same then x.run + 1 else 1
    let z := if same then x.runZone else zone s
    let s := modSw n (fun x => { x with hold := false, raw := raw, runVal := raw, run := run, runZone := z,
                                        source := if x.valid then 0 else x.source }) s
    if run ≠ 0 && swDebounce x.cfg ≤ run then
      let s := modSw n (fun x => { x with closed := raw, valid := true, source := 0, run := 0 }) s
      if x.valid then swEdge n raw z s else s
    else s

/-- RAKE_SAMPLE (R318): every enabled input, while D11 is on. -/
def rakeSample (mv : List Nat) (s : State) : State :=
  if domOn 11 s then (List.range 64).foldl (fun s n => rakeOne (mv.getD n 0) (Fin.ofNat 64 n) s) s else s

/-! ### Cyclic sensing (R320 to R322) -/

/-- Cyclic sensing runs while D11 is down. -/
def cyclicRuns (s : State) : Bool := (domState 11 s).answer != .on

/-- A confirmed change is parked with the zone time of the sample that found it (Table 11-8), and may fire detector 05h (R321). An input that is not enabled reads open (R318). -/
def parkChange (n : Fin 64) (v : Bool) (z : Nat) (s : State) : State :=
  let woke := wakeEnabled 5 n.val s
  let s := modSw n (fun x => { x with held := some v, closed := v && swEnable x.cfg, cand := none, source := 1,
                                      parked := x.parked ++ [(v, z, woke)] }) s
  let s := if woke then note 0x0702 info 5 n.val (if v then 1 else 0) (s.clk.life.toNat % 2 ^ 32) 0 s else s
  detect 5 n.val s

def cyclicOne (mv : Nat) (n : Fin 64) (s : State) : State :=
  let x := s.io.sw[n]
  if !swArmed x.cfg then s
  else if supplyHeld x.cfg s then modSw n (fun x => { x with hold := true }) s
  else
    let raw := rawOf x.cfg x.raw mv
    let s := modSw n (fun x => { x with hold := false, raw := raw, source := 1, held := some (x.held.getD raw) }) s
    if x.held = some (!raw) then
      if s.io.cyc.getLsbD 23 then modSw n (fun x => { x with cand := some (raw, now s, zone s) }) s else parkChange n raw (zone s) s
    else s

/-- CYCLIC_PULSE (R320). -/
def cyclicPulse (mv : List Nat) (s : State) : State :=
  if cyclicRuns s then (List.range 64).foldl (fun s n => cyclicOne (mv.getD n 0) (Fin.ofNat 64 n) s) s else s

/-- tCYC2 (R320). -/
def tCYC2 : Nat := 1 * Config.ms

/-- The second pulse of one input (R320): a candidate is confirmed only when this sample agrees with it; while VS5 holds the input no
sample is evaluated (R317). -/
def confirmOne (mv : Nat) (n : Fin 64) (s : State) : State :=
  let x := s.io.sw[n]
  match x.cand with
  | none => s
  | some (c, t, z) =>
    if now s < t + tCYC2 then s
    else if supplyHeld x.cfg s then modSw n (fun x => { x with hold := true, cand := none }) s
    else
      let raw := rawOf x.cfg x.raw mv
      let s := modSw n (fun x => { x with hold := false, raw := raw, cand := none }) s
      if raw == c then parkChange n c z s else s

/-- CYCLIC_CONFIRM (R320, R321). -/
def cyclicConfirm (mv : List Nat) (s : State) : State :=
  if cyclicRuns s then (List.range 64).foldl (fun s n => confirmOne (mv.getD n 0) (Fin.ofNat 64 n) s) s else s

/-- D11 reaches on: parked changes are delivered, held values become the reference (R322); an input that is not enabled has no value
(R318). -/
def rakeUp (s : State) : State :=
  (List.range 64).foldl (fun s n =>
    let n : Fin 64 := Fin.ofNat 64 n
    let x := s.io.sw[n]
    let s := x.parked.foldl (fun s p =>
      swEdge n p.1 p.2.1 (stickSw n (if p.2.2 then 0xC else 0x4) s)) s
    modSw n (fun x =>
      let x := { x with parked := [], cand := none, run := 0, hold := false }
      if swEnable x.cfg then { x with closed := x.held.getD x.closed, valid := x.valid || x.held.isSome }
      else { x with closed := false, valid := false, source := 3 }) s) s

/-- D11 goes down: armed inputs take their last value as the held value, the others hold theirs in retention (R322). -/
def rakeDown (toOff : Bool) (s : State) : State :=
  (List.range 64).foldl (fun s n =>
    modSw (Fin.ofNat 64 n) (fun x =>
      if swArmed x.cfg then { x with held := if x.valid then some x.closed else x.held, source := 1, run := 0,
                                     valid := x.valid && !toOff, closed := x.closed }
      else if toOff then { x with valid := false, closed := false, source := 3, run := 0, held := none, hold := false }
      else { x with source := if x.valid then 2 else 3, run := 0 }) s) s

/-! ### Analog inputs (R323, R324) -/

def anSwitch (m : Fin 12) : Fin 64 := Fin.ofNat 64 (52 + m.val)

/-- ANALOG_CONVERSION (R323): while D11 is on and block 1 converts. -/
def analogConversion (m : Fin 12) (code : Nat) (s : State) : State :=
  let x := s.io.an[m]
  if domOn 11 s && swAnalog s.io.sw[anSwitch m].cfg && !(s.flt.blocks[(17 : Fin 25)]).degraded.contains 1 then
    let l := (code :: x.convs).take 16
    let k := 2 ^ fld x.cfg2 25 3
    let used := l.take k
    let mean := used.sum / used.length
    let lo := fld x.cfg3 20 12
    let hi := fld x.cfg3 8 12
    let s := modAn m (fun x => { x with convs := l, code := mean, valid := true, convAt := some (now s),
                                        below := decide (mean < lo), above := decide (hi < mean) }) s
    let newB := decide (mean < lo) && !x.below
    let newA := decide (hi < mean) && !x.above
    let s := if newB || newA then note 0x0703 warning 5 (52 + m.val) mean lo hi s else s
    stickAn m ((if newB then 2 else 0) ||| (if newA then 1 else 0)) s
  else s

/-- Full scale in mV (Table 10-2). -/
def anScale (w : Word) : Nat := [5000, 20000, 40000].getD (fld w 30 2) 0

/-! ### Field supply and re-drive (R325 to R329) -/

def tFRD : Nat := 1 * Config.ms
def tFQS : Nat := 100 * Config.us
def tFQH : Nat := 10 * Config.ms

def fqMask (f : FqSt → Bool) (s : State) : Nat :=
  (List.range 16).foldl (fun m n => if f s.io.fq[Fin.ofNat 16 n] then m + 2 ^ n else m) 0
def fqCommanded (s : State) : Nat := fqMask (·.mode) s
def fqFaultEn (s : State) : Nat := fqMask (·.cfg.getLsbD 27) s

/-- A block record (unit class 6, index 32) and an output record (index 16 + nn) (R342). -/
def fldNote (code : Half) (sev : BitVec 2) (p1 p2 p3 : Nat) (s : State) : State := note code sev 6 32 p1 p2 p3 s
def fqNote (code : Half) (sev : BitVec 2) (n : Fin 16) (p1 p2 p3 : Nat) (s : State) : State :=
  note code sev 6 (16 + n.val) p1 p2 p3 s

/-- DRIVEN (R332). -/
def driven (q : FqSt) (sup : FieldSupply) : Bool := q.mode && sup != .missing && !q.wait
/-- The output's gate is on: driven, and its own protection lets it. -/
def fqGate (q : FqSt) (sup : FieldSupply) : Bool := driven q sup && !q.shut && !q.latched

/-- The fault condition of an output (R334). -/
def fqCondition (q : FqSt) (sup : FieldSupply) : Bool :=
  (q.limiting && fqGate q sup) || q.shut || (q.latched && q.mode) || (q.fed && !q.mode && sup != .missing)

def fqContributes (q : FqSt) (sup : FieldSupply) : Bool := fqCondition q sup || q.stretch.isSome

/-- The live bit FAULT (R334). -/
def fieldFault (s : State) : Bool :=
  (List.range 16).any fun n =>
    let q := s.io.fq[Fin.ofNat 16 n]
    q.cfg.getLsbD 27 && fqContributes q s.io.fld.supply

/-- FAULT follows its contributions: FAULT_SEEN and records 0802h, 0803h (R334, Table 10-12). -/
def followFault (s : State) : State :=
  match fieldFault s, s.io.fld.faultAt with
  | true, none =>
    let s := stickFld 1 (modFld (fun x => { x with faultAt := some (now s) }) s)
    fldNote 0x0802 error (fqFaultEn s) (fqCommanded s) s.io.fld.mv s
  | false, some t =>
    fldNote 0x0803 info ((now s - t) / Config.ms) (fqFaultEn s) 0 (modFld (fun x => { x with faultAt := none }) s)
  | _, _ => s

/-- Change one output and stretch a condition that ends, which held or not in a supply state (R334). -/
def fqChangeFrom (old : FieldSupply) (n : Fin 16) (f : FqSt → FqSt) (s : State) : State :=
  let before := fqCondition s.io.fq[n] old
  let s := modFq n f s
  let after := fqCondition s.io.fq[n] s.io.fld.supply
  followFault (modFq n (fun q =>
    { q with stretch := if after then none else if before then some (now s + tFQH) else q.stretch }) s)

def fqChange (n : Fin 16) (f : FqSt → FqSt) (s : State) : State := fqChangeFrom s.io.fld.supply n f s

/-- The supply state that a run of samples at `mv` leads to (Table 10-3). -/
def fieldNext (st : FieldSupply) (mv : Nat) : FieldSupply :=
  match st with
  | .ok => if mv < 9000 then .missing else if mv < 18000 then .low else .ok
  | .low => if mv < 9000 then .missing else if 18500 ≤ mv then .ok else .low
  | .missing => if 9500 ≤ mv then .low else .missing

def supplyCode (st : FieldSupply) : Nat := match st with | .ok => 0 | .low => 1 | .missing => 2

/-- A field input freezes: a change of the last 100 us is undone (R326). -/
def fiFreeze (n : Fin 16) (s : State) : State :=
  let x := s.io.fi[n]
  if x.known && now s < x.changeAt + 100 * Config.us then
    let s := modFi n (fun x => { x with value := x.before, sticky := x.stickyBefore, runAt := none }) s
    { s with rfx := { s.rfx with occs := s.rfx.occs.filter fun o =>
        !(match o.kind with | .fiChange i _ => decide (i = n.val) && decide (x.changeAt ≤ o.at_) | _ => false) } }
  else modFi n (fun x => { x with runAt := none }) s

/-- Entering MISSING (R326) from a supply state: outputs off, latches released, inputs frozen; every output waits for re-drive. -/
def fieldMissing (old : FieldSupply) (s : State) : State :=
  let s := modFld (fun x => { x with missingAt := now s, okAt := none, owed := true, redrive := none }) s
  let s := (List.range 16).foldl (fun s n => fiFreeze (Fin.ofNat 16 n) s) s
  (List.range 16).foldl (fun s n =>
    fqChangeFrom old (Fin.ofNat 16 n) (fun q => { q with wait := true, latched := false, limiting := false, fed := false }) s) s

/-- FIELD_SUPPLY_CHANGE (R325, R326, R329): while D12 is on or in retention. -/
def fieldSupplyChange (mv : Nat) (s : State) : State :=
  if (domState 12 s).answer == .off then s
  else
    let old := s.io.fld.supply
    let new := fieldNext old mv
    let s := modFld (fun x => { x with mv := mv }) s
    if new = old then s
    else
      let s := protectionWake 5 12 32 0 s
      let s := modFld (fun x => { x with supply := new, missNs := if old = .missing then now s - x.missingAt else x.missNs }) s
      let s := match new with
        | .missing => stickFld 4 (fieldMissing old s)
        | .low =>
          let s := if old = .missing then
              (List.range 16).foldl (fun s n => modFi (Fin.ofNat 16 n) (fun x => { x with runAt := none }) s) s else s
          stickFld 2 s
        | .ok => if s.io.fld.owed then modFld (fun x => { x with okAt := some (now s) }) s else s
      fldNote 0x0801 warning (supplyCode new) mv (fqCommanded s) (followFault s)

/-- The re-drive is over (R328). -/
def redriveDone (mask : Nat) (s : State) : State :=
  let s := (List.range 16).foldl (fun s n => fqChange (Fin.ofNat 16 n) (fun q => { q with wait := false }) s) s
  let ms := s.io.fld.missNs / Config.ms
  let s := modFld (fun x => { x with redrive := none, owed := false, okAt := none }) s
  fldNote 0x0804 info mask ms 0 (stickFld 8 s)

/-- One turn of the re-drive from index `i` (R328). -/
def redriveTurn (i mask : Nat) (s : State) : State :=
  let left := (List.range 16).filter fun n => decide (i ≤ n) && s.io.fq[Fin.ofNat 16 n].mode
  match left with
  | [] => redriveDone mask s
  | n :: more =>
    let s := (List.range (n + 1)).foldl (fun s j => fqChange (Fin.ofNat 16 j) (fun q => { q with wait := false }) s) s
    if more.isEmpty then redriveDone (mask + 2 ^ n) s
    else modFld (fun x => { x with redrive := some (n + 1, now s, mask + 2 ^ n) }) s

/-- FIELD_REDRIVE_START (R328): tFRD after OK. -/
def fieldRedriveStart (s : State) : State :=
  match s.io.fld.okAt with
  | some t =>
    if s.io.fld.supply != .missing && s.io.fld.redrive.isNone && decide (t + tFRD ≤ now s)
        && (domState 12 s).answer == .on then redriveTurn 0 0 s else s
  | none => s

/-- FIELD_REDRIVE_STEP (R328): tFQS after the previous turn. -/
def fieldRedriveStep (s : State) : State :=
  match s.io.fld.redrive with
  | some (i, t, mask) =>
    if s.io.fld.supply != .missing && decide (t + tFQS ≤ now s) && (domState 12 s).answer == .on then redriveTurn i mask s
    else s
  | none => s

/-! ### Field inputs (R327, R330) -/

/-- Filter time in ns (Table 10-5). -/
def fiFilter (w : Word) : Nat := ([100, 200, 500, 1000, 2000, 3000, 5000, 10000, 20000].getD (fld w 25 4) 0) * Config.us

def fiOne (mv : Nat) (n : Fin 16) (s : State) : State :=
  let x := s.io.fi[n]
  let raw := if 11000 ≤ mv then true else if mv ≤ 5000 then false else x.raw
  let run : Option Nat :=
    if x.known && x.valid && raw == x.value then none
    else if raw == x.raw then some (x.runAt.getD (now s)) else some (now s)
  let s := modFi n (fun x => { x with raw := raw, runAt := run }) s
  match run with
  | some t =>
    if t + fiFilter x.cfg ≤ now s then
      let s := modFi n (fun x => { x with value := raw, known := true, valid := true, runAt := none, changeAt := now s,
                                          before := x.value, stickyBefore := x.sticky }) s
      if x.known && x.value != raw then
        pushOcc (.fiChange n.val raw) (modFi n (fun x => { x with sticky := x.sticky ||| (if raw then 2 else 1) }) s)
      else s
    else s
  | none => s

/-- FIELD_INPUT_SAMPLE (R330): while D12 is on and the inputs are not frozen. -/
def fieldInputSample (mv : List Nat) (s : State) : State :=
  if domOn 12 s && s.io.fld.supply != .missing then
    (List.range 16).foldl (fun s n => fiOne (mv.getD n 0) (Fin.ofNat 16 n) s) s
  else s

/-! ### Field outputs (R332 to R335) -/

/-- FIELD_OUTPUT_SHUTDOWN (R333, R335): a conducting output at 175 degC. -/
def fieldOutputShutdown (n : Fin 16) (tj : Int) (s : State) : State :=
  let q := s.io.fq[n]
  if 175 ≤ tj && fqGate q s.io.fld.supply then
    protectionWake 5 12 (cellPosition (.fq n)) 2
      (fqChange n (fun q => { q with shut := true, limiting := false, latched := q.cfg.getLsbD 28 }) s)
  else s

/-- FIELD_OUTPUT_RESTART (R333): below 150 degC the shutdown ends; a latched output stays off. -/
def fieldOutputRestart (n : Fin 16) (tj : Int) (s : State) : State :=
  if tj < 150 && s.io.fq[n].shut then fqChange n (fun q => { q with shut := false }) s else s

/-- FIELD_CURRENT_LIMIT (R334, R335): an output enters or leaves its current limit. -/
def fieldCurrentLimit (n : Fin 16) (on : Bool) (s : State) : State :=
  let q := s.io.fq[n]
  if on && fqGate q s.io.fld.supply && !q.limiting then
    protectionWake 5 12 (cellPosition (.fq n)) 1 (fqChange n (fun q => { q with limiting := true }) s)
  else if !on && q.limiting then fqChange n (fun q => { q with limiting := false }) s
  else s

/-- FIELD_OUTPUT_FED (R334): an output commanded off above 9.0 V for 1 ms, or no longer, while D12 is not off. -/
def fieldOutputFed (n : Fin 16) (mv : Nat) (s : State) : State :=
  let q := s.io.fq[n]
  if (domState 12 s).answer == .off then s
  else if 9000 < mv && !q.mode && s.io.fld.supply != .missing then fqChange n (fun q => { q with fed := true }) s
  else if mv ≤ 9000 && q.fed then fqChange n (fun q => { q with fed := false }) s
  else s

/-- FAULT_STRETCH_END (R334). -/
def faultStretchEnd (n : Fin 16) (s : State) : State :=
  match s.io.fq[n].stretch with
  | some t => if t ≤ now s then followFault (modFq n (fun q => { q with stretch := none }) s) else s
  | none => s

/-! ### The mirror (R193, R336) -/

def fqMirror (q : FqSt) : List Byte := be 1 (if q.mode then 1 else 0) ++ be 14 0

def fqMirrorStore (n : Fin 16) (s : State) : State :=
  let q := s.io.fq[n]
  mirrorStore (.fq n) q.mirLife q.lastHost (fqMirror q)
    (modFq n (fun q => { q with mirPend := false, mirAt := some (now s) }) s)

def fqMirrorChange (n : Fin 16) (s : State) : State :=
  let q := s.io.fq[n]
  match mirrorDo (.fq n) q.mirAt (fqMirror q) s with
  | .nothing => modFq n (fun q => { q with mirPend := false }) s
  | .write => fqMirrorStore n s
  | .pend => wakeInternal 15 (modFq n (fun q => { q with mirPend := true }) s)

def fqMirrorNow (n : Fin 16) (s : State) : State :=
  if s.io.fq[n].mirPend then
    if mirrored (.fq n) s = some (fqMirror s.io.fq[n]) then
      modFq n (fun q => { q with mirPend := false, mirAt := some (now s) }) s
    else fqMirrorStore n s
  else s

/-- Set the commanded mode of an output, attributed to `host` (R193, R333, Table 10-12). -/
def fqCommand (n : Fin 16) (on : Bool) (host : Fin 16) (s : State) : State :=
  let q := s.io.fq[n]
  let s := fqChange n (fun q =>
    { q with mode := on, lastHost := if q.mode == on then q.lastHost else host
             mirLife := if q.mode == on then q.mirLife else s.clk.life, latched := q.latched && on,
             limiting := q.limiting && on, fed := q.fed && !on }) s
  if q.mode == on then s else fqNote 0x0805 info n (if on then 1 else 0) host.val 0 (fqMirrorChange n s)

/-! ### Families 07h and 08h (R337 to R339) -/

def ioStatus (o : Nat) : Half × Half :=
  match o with
  | 0x60 => (0x0740, 0)
  | 0x70 => (0x0840, 0)
  | o => outcomeStatus o

def ioOutcomes (q : QPkt) (rs : List UnitRes) (_ : State) : Ans := outcomesAns ioStatus q rs

/-- The values a switch input may hold (R339). -/
def swOk (n : Fin 64) (w : Word) : Bool :=
  fld w 25 3 ≤ 5 && 1 ≤ fld w 16 8 && !(swAnalog w && n.val < 52) && !(swAnalog w && swCyclic w)

/-- SW_CONFIG on one input (R319, R339): a changed value of REF to DEBOUNCE restarts the count, and an input that is no longer sensed
cyclically has no held value (R322). -/
def swConfig (q : QPkt) (n : Fin 64) (s : State) : Nat × State :=
  let b := q.pkt.payload
  let w := numAt b 8 2
  let x := s.io.sw[n]
  let c := merge x.cfg (wordAt b 12)
    (maskOf w [(0, 31, 1), (1, 28, 3), (2, 25, 3), (3, 24, 1), (4, 16, 8), (5, 15, 1), (6, 14, 1), (7, 13, 1)])
  if swOk n c then
    let s := modSw n (fun x =>
      let same := (x.cfg ^^^ c) &&& 0xFFFF0000 == 0
      let x := { x with cfg := c, run := if same then x.run else 0, held := if swArmed c then x.held else none
                        cand := if swArmed c then x.cand else none }
      if swEnable c then x else { x with closed := false, valid := false, source := 3, hold := false }) s
    (0x00, note 0x0701 info 5 n.val w c.toNat q.pkt.host.val s)
  else (0x60, s)

def onSw (f : QPkt → Fin 64 → State → Nat × State) (q : QPkt) (u : UnitRef) (s : State) : UnitRes × State :=
  match u with
  | .sw n => let r := f q n s; (unitRes u r.1, r.2)
  | _ => (unitRes u 0, s)

def opSwConfig : OpSpec :=
  { lenOk := fun b => b.length = 16, resOk := fun b => zeroAt [8, 10, 11, 15] b && onlyBits 14 0xE0 b,
    units := fun p _ => ((List.range 64).filter (numAt p.payload 0 8).testBit).map fun n => .sw (Fin.ofNat 64 n),
    doms := fun _ => [], act := .perUnit (onSw swConfig) ioOutcomes }

/-- A 64-bit map of the switch inputs, SW00 the least significant bit of the last byte. -/
def swMap (f : SwSt → Bool) (s : State) : List Byte :=
  be 8 ((List.range 64).foldl (fun m n => if f s.io.sw[Fin.ofNat 64 n] then m + 2 ^ n else m) 0)

def opSwRead : OpSpec :=
  chipOp 0 [11] (fun _ => true) fun _ s =>
    done (.ok (swMap (·.closed) s ++ swMap (·.valid) s ++ swMap (·.source != 0) s)) s

/-- AN_CONFIG on one input (R339). -/
def anConfig (q : QPkt) (n : Fin 64) (s : State) : Nat × State :=
  let b := q.pkt.payload
  let w := (byteAt b 2).toNat
  let m : Fin 12 := Fin.ofNat 12 (n.val - 52)
  let x := s.io.an[m]
  let c2 := merge x.cfg2 (wordAt b 4) (maskOf w [(0, 30, 2), (1, 28, 2), (2, 25, 3)])
  let c3 := merge x.cfg3 (wordAt b 8) (maskOf w [(3, 20, 12), (4, 8, 12)])
  if fld c2 30 2 ≠ 3 && fld c2 28 2 ≠ 3 && fld c2 25 3 ≤ 4 then
    (0x00, modAn m (fun x => { x with cfg2 := c2, cfg3 := c3 }) s)
  else (0x60, s)

def opAnConfig : OpSpec :=
  { lenOk := fun b => b.length = 12,
    resOk := fun b => zeroAt [3, 5, 6, 7, 11] b && onlyBits 0 0x0F b && onlyBits 2 0x1F b && onlyBits 4 0xFE b,
    units := fun p _ => ((List.range 12).filter (numAt p.payload 0 2).testBit).map fun m => .sw (Fin.ofNat 64 (52 + m)),
    doms := fun _ => [], act := .perUnit (onSw anConfig) ioOutcomes }

/-- One entry of AN_READ (Table 10-8). -/
def anEntry (m : Fin 12) (s : State) : List Byte :=
  let x := s.io.an[m]
  let v := x.valid && swAnalog s.io.sw[anSwitch m].cfg
  be 2 ((x.code * anScale x.cfg2 + 2048) / 4096) ++ be 2 x.code
    ++ be 1 ((if v then 1 else 0) + (if x.below then 2 else 0) + (if x.above then 4 else 0)) ++ be 3 0
    ++ be 4 (x.convAt.elim 0xFFFFFFFF (ageUs true · s))

def opAnRead : OpSpec :=
  { lenOk := fun b => b.length = 4, resOk := zeroAt [2, 3],
    units := fun p _ =>
      let f := (byteAt p.payload 0).toNat
      let c := (byteAt p.payload 1).toNat
      if 1 ≤ c && f + c ≤ 12 then (List.range c).map fun i => UnitRef.sw (Fin.ofNat 64 (52 + f + i)) else [],
    doms := fun _ => [],
    act := .whole fun q us s =>
      done (.ok (q.pkt.payload ++ (q.units.map fun u => match u with
        | .sw n => if us.contains u then anEntry (Fin.ofNat 12 (n.val - 52)) s else deadEntry 8
        | _ => []).flatten)) s }

def opCyclicConfig : OpSpec :=
  chipOp 4 [] (fun b => byteAt b 2 == 0 && onlyBits 3 1 b) fun q s =>
    let w := wordAt q.pkt.payload 0
    if fld w 29 3 ≤ 6 && fld w 24 3 ≤ 5 then done .ok (modIo (fun x => { x with cyc := w &&& 0xFF800000#32 }) s)
    else refuse 0x0740 s

/-- FQ_SET on one output (R339). -/
def fqSet (q : QPkt) (n : Fin 16) (s : State) : Nat × State :=
  let m := (byteAt q.pkt.payload 2).toNat
  if 1 < m then (0x70, s)
  else
    let s := fqCommand n (m = 1) q.pkt.host s
    if m = 1 && (s.io.fld.supply == .missing || s.io.fq[n].wait) then (0x02, s) else (0x00, s)

def opFqSet : OpSpec :=
  { lenOk := fun b => b.length = 4, resOk := zeroAt [3],
    units := fun p _ => ((List.range 16).filter (numAt p.payload 0 2).testBit).map fun n => .fq (Fin.ofNat 16 n),
    doms := fun _ => [],
    act := .perUnit (fun q u s => match u with
      | .fq n => let r := fqSet q n s; (unitRes u r.1, r.2)
      | _ => (unitRes u 0, s)) ioOutcomes }

/-- FIELD_CONFIG on one unit (R339); the last unit writes record 0806h. -/
def fieldConfigOne (q : QPkt) (u : UnitRef) (s : State) : UnitRes × State :=
  let b := q.pkt.payload
  let w := (byteAt b 4).toNat
  let r : Nat × State := match u with
    | .fi n =>
      if w.testBit 0 then
        if 8 < (byteAt b 5).toNat then (0x70, s)
        else (0, modFi n (fun x => { x with cfg := setFld x.cfg 25 4 (byteAt b 5).toNat, runAt := none }) s)
      else (0, s)
    | .fq n =>
      let v := (byteAt b 6).toNat
      (0, followFault (modFq n (fun x =>
        let c := if w.testBit 1 then setFld x.cfg 28 1 (v % 2) else x.cfg
        { x with cfg := if w.testBit 2 then setFld c 27 1 (v / 2) else c }) s))
    | _ => (0, s)
  let s := if q.todo.length = 1 then fldNote 0x0806 info w (numAt b 0 2) (numAt b 2 2) r.2 else r.2
  (unitRes u r.1, s)

def opFieldConfig : OpSpec :=
  { lenOk := fun b => b.length = 8,
    resOk := fun b => zeroAt [7] b && onlyBits 4 7 b && onlyBits 5 0x0F b && onlyBits 6 3 b,
    units := fun p _ =>
      ((List.range 16).filter (numAt p.payload 0 2).testBit).map (fun n => UnitRef.fi (Fin.ofNat 16 n))
        ++ ((List.range 16).filter (numAt p.payload 2 2).testBit).map (fun n => UnitRef.fq (Fin.ofNat 16 n)),
    doms := fun _ => [], act := .perUnit fieldConfigOne ioOutcomes }

def fiMask (f : FiSt → Bool) (s : State) : Nat :=
  (List.range 16).foldl (fun m n => if f s.io.fi[Fin.ofNat 16 n] then m + 2 ^ n else m) 0

/-- FROZEN of the field inputs (R326, Table 4-3). -/
def fiFrozen (s : State) : Bool := s.io.fld.supply == .missing

def opFieldRead : OpSpec :=
  chipOp 0 [12] (fun _ => true) fun _ s =>
    done (.ok (be 2 (fiMask (·.value) s) ++ be 2 (fiMask (·.valid) s) ++ be 2 (fqCommanded s)
      ++ be 2 (fqMask (driven · s.io.fld.supply) s) ++ be 2 (s.io.fld.mv / 10) ++ be 1 (supplyCode s.io.fld.supply)
      ++ be 1 ((if fieldFault s then 1 else 0) + (if fiFrozen s then 2 else 0)))) s

end Sys2Proof.Machine
end

