-- ==== Sys2Proof/Machine/Link.lean ====
section
/-! DEFINITION. Trellis frames on the two sides (R527 to R530, Table 18-1): building, sending and the path to a
member. -/

namespace Sys2Proof.Machine

def modTrl (f : TrlSt → TrlSt) (s : State) : State := { s with trl := f s.trl }
def modSide (k : Fin 2) (f : TrlSide → TrlSide) (s : State) : State :=
  modTrl (fun x => { x with sides := x.sides.set k (f x.sides[k]) }) s

/-- The module's member number (R526). -/
def self (s : State) : Fin 4 := Fin.ofNat 4 s.boot.member.toNat
def isLead (s : State) : Bool := s.boot.member == 0

/-- Sticky bits of word 1100h; event 233 (R548). -/
def stickTrl (m : BitVec 9) (s : State) : State :=
  raiseIf (fresh s.trl.sticky m) 233 (modTrl (fun x => { x with sticky := x.sticky ||| m }) s)

/-- LOST_SEEN of a member's word 1102h; event 233 (R548). -/
def stickLost (m : Fin 4) (s : State) : State :=
  let b : BitVec 4 := BitVec.ofNat 4 (2 ^ m.val)
  raiseIf (fresh s.trl.lost b) 233 (modTrl (fun x => { x with lost := x.lost ||| b }) s)

/-- A record of the trellis names the member concerned (R548). -/
def trlNote (code : Half) (sev : BitVec 2) (m : Fin 4) (p1 p2 p3 : Nat) (s : State) : State :=
  note code sev 17 m.val p1 p2 p3 s

/-- The trellis link runs: it lies in D00 (R541); in a cold bring-up it answers from phase 3 on (Table 3-3). -/
def trlOn (s : State) : Bool :=
  if s.boot.condition = 1 && s.boot.phase < 6 then 3 ≤ s.boot.phase && s.boot.resetLow.isNone else domOn 0 s

/-- The bytes of a frame (Table 18-1). -/
def trlBytes (type dest src : Nat) (seq ack : Byte) (fatal : Bool) (host : Nat) (body : List Byte) : List Byte :=
  let b := be 1 type ++ be 1 (dest * 16 + src) ++ [seq, ack] ++ be 1 ((if fatal then 16 else 0) + host) ++ [0]
    ++ be 2 body.length ++ body
  b ++ be 4 (crc32 b).toNat

/-- Frame types of Table 18-1; acknowledgements and heartbeats take no sequence number of their own. -/
def trlPacket : Nat := 1
def trlAck : Nat := 2
def trlHeartbeat : Nat := 3
def trlTime : Nat := 4
def trlExtend : Nat := 5
def trlStatus : Nat := 6

/-- Send a frame on a side; `fatal` is its FATAL flag. A numbered frame goes only to a side that is up and waits for its
acknowledgement (R529); acknowledgements and heartbeats always go. -/
def trlSendF (fatal : Bool) (k : Fin 2) (type dest src host : Nat) (body : List Byte) (s : State) : State :=
  let x := s.trl.sides[k]
  let numbered := type != trlAck && type != trlHeartbeat
  if (x.st == 2 || !numbered) && trlOn s then
    let b := trlBytes type dest src x.txSeq x.rxSeq fatal host body
    let s := modSide k (fun x =>
      { x with sentAt := now s, txSeq := if numbered then x.txSeq + 1 else x.txSeq
               unack := if numbered then x.unack ++ [⟨x.txSeq, b, now s, 0⟩] else x.unack }) s
    modTrl (fun x => { x with out := x.out ++ [(k, b)] }) s
  else s

/-- Send a frame of the module's own. -/
def trlSend (k : Fin 2) (type dest src host : Nat) (body : List Byte) (s : State) : State :=
  trlSendF (decide (s.boot.condition = 3)) k type dest src host body s

/-- The side a member is reached through; none when no path remains. -/
def pathTo (m : Fin 4) (s : State) : Option (Fin 2) :=
  if s.trl.present.getLsbD m.val && m ≠ self s then some (if s.trl.viaB.getLsbD m.val then 1 else 0) else none

/-- Send towards a member; false when it is unreachable. -/
def trlSendTo (type : Nat) (m : Fin 4) (host : Nat) (body : List Byte) (s : State) : Bool × State :=
  match pathTo m s with
  | some k => (true, trlSend k type m.val (self s).val host body s)
  | none => (false, s)

/-- A packet of the module's own for host `h` (events, forwarded frames): members 1 to 3 reach hosts 2 to 9 through the
lead and set DISCARD without a path to it (R532, R538). -/
def toHost (h : Fin 14) (o : OutPkt) (s : State) : State :=
  if !isLead s && 2 ≤ h.val then
    let r := trlSendTo trlPacket 0 h.val o.bytes s
    if r.1 then r.2 else stickTrl 0b000000010 r.2
  else pushOut (Fin.ofNat 16 h.val) o s

end Sys2Proof.Machine
end

