-- ==== Sys2Proof/Machine/Net.lean ====
section
/-! DEFINITION. Ethernet ports, CAN and LIN channels, filters and authenticated frames (R359 to R365, R374 to R395),
with the opcodes of family 0Ah. -/

namespace Sys2Proof.Machine

/-- Sticky bits of words 0A02h and 0A04h; events 206 + n, 212 + n (R393). -/
def stickCan (c : Fin 6) (m : BitVec 8) (s : State) : State :=
  raiseIf (fresh s.net.cans[c].sticky m) (206 + c.val) (modCan c (fun x => { x with sticky := x.sticky ||| m }) s)
def stickLin (c : Fin 8) (m : BitVec 5) (s : State) : State :=
  raiseIf (fresh s.net.lins[c].sticky m) (212 + c.val) (modLin c (fun x => { x with sticky := x.sticky ||| m }) s)

/-! ### Ethernet links (R359, R360) -/

/-- LINK_CHANGE (R360): of a port whose domain is on and whose net is not asleep. A cold bring-up keeps the links down (Table 3-3). -/
def linkChange (n : Fin 2) (l : BitVec 2) (s : State) : State :=
  if domOn (Fin.ofNat 16 (1 + n.val)) s && s.net.nets[ethNet n].st != .asleep && l != 3
      && (s.boot.condition != 1 || l == 0) then setLink n l s else s

/-- LINK_QUALITY_UPDATE (R360). -/
def linkQualityUpdate (n : Fin 2) (q : BitVec 3) (s : State) : State :=
  let p := s.net.eth[n]
  if p.link == 2 then
    let s := modEth n (fun x => { x with quality := q }) s
    if decide (q.toNat < 3) && decide (3 ≤ p.quality.toNat) then stickEth n 0x01 s else s
  else s

/-! ### CAN channels (R374 to R376, R379) -/

def canDomain (c : Fin 6) : Fin 16 := Fin.ofNat 16 (3 + c.val / 3)
def canMode (x : CanPort) : Nat := fld x.cfg 30 2
def fdEn (x : CanPort) : Bool := x.cfg.getLsbD 29

/-- CAN_STATE (Table 12-5): stopped while the net is asleep or the domain is not on. -/
def canState (c : Fin 6) (s : State) : Nat :=
  let x := s.net.cans[c]
  if canMode x = 0 || s.net.nets[canNet c].st = .asleep || !domOn (canDomain c) s then 0
  else if x.busOff then 3
  else if 128 ≤ x.tec || 128 ≤ x.rec_ then 2 else 1

/-- The controller takes part in the bus. -/
def canLive (c : Fin 6) (s : State) : Bool := canState c s = 1 || canState c s = 2

def canRecord (c : Fin 6) (s : State) : State :=
  note 0x0A02 warning 8 c.val (canState c s) (min 255 s.net.cans[c].tec) (min 255 s.net.cans[c].rec_) s

/-- CAN_BUS_ERROR: the error counters as ISO 11898-1 leaves them after a protocol error (R376). -/
def canBusError (c : Fin 6) (tec rec_ : Nat) (s : State) : State :=
  if canLive c s then
    let old := canState c s
    let s := stickCan c 0x02 (modCan c (fun x => { x with tec := tec, rec_ := rec_ }) s)
    let st := canState c s
    if st = old then s else canRecord c (if st = 2 then stickCan c 0x40 s else s)
  else s

/-- CAN_BUS_OFF (R376): the buffers are discarded; a FRAME_SEND that waits for one ends under R383. -/
def canBusOff (c : Fin 6) (s : State) : State :=
  if canLive c s && canMode s.net.cans[c] = 1 then
    let lost := !(s.net.cans[c].bufs.isEmpty)
    let s := modCan c (fun x => { x with busOff := true, tec := 256, bufs := [] }) s
    let s := stickCan c (if lost then 0xA0 else 0x80) s
    let s := canRecord c s
    let gone := s.net.txWait.filter (·.1 = c)
    let s := modNet (fun x => { x with txWait := x.txWait.filter (·.1 ≠ c) }) s
    netSettle (canNet c) (gone.foldl (fun s w => complete w.2.1 (.err 0x0A42) s) s)
  else s

/-- BUSOFF_RECOVERY: 128 occurrences of 11 recessive bits with BUSOFF_AUTO 1 (R376). -/
def busOffRecovery (c : Fin 6) (s : State) : State :=
  if canState c s = 3 && s.net.cans[c].cfg.getLsbD 11 then
    canRecord c (modCan c (fun x => { x with busOff := false, tec := 0, rec_ := 0 }) s)
  else s

/-- Identifier order on the bus (R382): the leading 11 bits, an 11-bit identifier before a 29-bit one, the rest. -/
def canKey (f : CanFrame) : Nat :=
  let id := f.id.toNat
  if f.ext then (id / 2 ^ 18) * 2 ^ 20 + 2 ^ 19 + id % 2 ^ 18 else (id % 2 ^ 11) * 2 ^ 20

/-- The frame that wins arbitration among the buffers, equal identifiers in order of placement, and the others. -/
def canFirst : List CanFrame → Option (CanFrame × List CanFrame)
  | [] => none
  | f :: r =>
    match canFirst r with
    | none => some (f, [])
    | some (b, rest) => if canKey b < canKey f then some (b, f :: rest) else some (f, r)

/-- A FRAME_SEND that waits for a buffer places its frame (R382). -/
def placeWaiting (c : Fin 6) (frameOf : Packet → CanFrame) (s : State) : State :=
  match s.net.txWait.find? (·.1 = c) with
  | some w =>
    if s.net.cans[c].bufs.length < 8 then
      let s := modNet (fun x => { x with txWait := x.txWait.filter (·.2.1.seq ≠ w.2.1.seq) }) s
      complete w.2.1 .ok (modCan c (fun x => { x with bufs := x.bufs ++ [frameOf w.2.1.pkt] }) s)
    else s
  | none => s

/-! ### Forwarding and the reflex engine (R379 to R381) -/

def filterMatches (f : Filter) (port : Nat) (ext : Bool) (id : Nat) : Bool :=
  f.valid && f.port = port && f.ext == ext && (id &&& f.mask) == (f.id &&& f.mask)

/-- A forwarded frame entry (Table 12-3). -/
def fwdEntry (port : Nat) (flags : Nat) (auth id z : Nat) (data : List Byte) : List Byte :=
  be 1 port ++ be 1 (flags + auth * 2) ++ be 1 data.length ++ [0] ++ be 4 id ++ be 8 z ++ data
    ++ List.replicate ((4 - data.length % 4) % 4) 0

/-- A frame whose check is done reaches the filters and the reflex engine (R379, R380): AUTH 0 no channel, 1 passed,
2 failed; `z` is the zone time of its start. -/
def deliver (port flags auth : Nat) (ext : Bool) (id z : Nat) (data : List Byte) (s : State) : State :=
  if domOn 0 s then
    let fs := s.net.filters.toList.filter fun f => filterMatches f port ext id
    let drop := auth = 2 && fs.any (·.drop)
    let hosts : BitVec 10 := if drop then 0 else fs.foldl (fun m f => m ||| f.hosts) 0
    let prio : BitVec 2 := fs.foldl (fun m f => if m.toNat < f.prio.toNat then f.prio else m) 0
    let e : FwdEntry := ⟨port, prio, fwdEntry port flags auth id z data⟩
    let s := (List.range 10).foldl (fun s h =>
      if hosts.getLsbD h then
        let i : Fin 10 := Fin.ofNat 10 h
        modNet (fun x => { x with fwd := x.fwd.set i { entries := x.fwd[i].entries ++ [e], at_ := some ((x.fwd[i].at_).getD (now s)) } }) s
      else s) s
    pushOccAt (.frame port (auth = 1) ext id data.head?) z s
  else s

/-! ### Authenticated frames (R384 to R387) -/

/-- The CMAC message of a frame (R384). -/
def frameMessage (ext : Bool) (id : Nat) (counter : Word) (payload : List Byte) : List Byte :=
  be 4 (id + if ext then 2 ^ 31 else 0) ++ be 4 counter.toNat ++ be 1 payload.length ++ payload

def frameMac (key : List Byte) (ext : Bool) (id : Nat) (c : Word) (payload : List Byte) : List Byte :=
  (Crypto.cmac key (frameMessage ext id c payload)).take 6

/-- Lowest channel of a direction for a port and identifier. -/
def chanFor (tx : Bool) (port : Nat) (ext : Bool) (id : Nat) (s : State) : Option (Fin 32) :=
  ((List.range 32).map (Fin.ofNat 32)).find? fun i =>
    let a := s.net.chans[i]
    a.valid && a.tx == tx && a.port = port && a.ext == ext && a.id = id

def modChan (i : Fin 32) (f : AuthChan → AuthChan) (s : State) : State :=
  modNet (fun x => { x with chans := x.chans.set i (f x.chans[i]) }) s

/-- The key of a slot that permits bus authentication; ATTR_REFUSED when its attributes do not (R384, R456). -/
def busKey (k : Fin 64) (s : State) : Option (List Byte) × State :=
  let x := s.ks.slots[k]
  if x.st = .loaded then
    if x.attr.getLsbD 1 then (some x.key, touch 14 s) else (none, stickSlot k 0x01 s)
  else (none, s)

/-- Record of an operation that finds its slot orphaned: the row of Table 15-5 (R463). -/
def opAborted (k : Fin 64) (row host : Nat) (s : State) : State :=
  stickSlot k 0x80 (record 0x0E0B error 2 13 k.val s.ks.slots[k].parent row host s)

/-- The receive check of a frame on channel `i` (R386): passed or failed. -/
def receiveCheck (i : Fin 32) (f : CanFrame) (s : State) : Bool × State :=
  let a := s.net.chans[i]
  let n := f.data.length
  let fail (cand : Nat) (s : State) : Bool × State :=
    let s := stickCan (Fin.ofNat 6 a.port) 0x08 s
    (false, note 0x0A03 warning 8 a.port i.val f.id.toNat cand s)
  if n < 9 then fail (Config.freeWord s.clk.free).toNat (drew s)
  else
    let payload := f.data.take (n - 8)
    let tr := f.data.drop (n - 8)
    let low := numAt tr 0 2
    let c := a.counter.toNat
    let cand0 := (c / 65536) * 65536 + low
    let cand := if cand0 ≤ c then (cand0 + 65536) % 2 ^ 32 else cand0
    let r := busKey a.slot s
    match r.1 with
    | some key =>
      if a.window < (cand + 2 ^ 32 - c) % 2 ^ 32
          || frameMac key f.ext f.id.toNat (BitVec.ofNat 32 cand) payload != tr.drop 2 then fail cand r.2
      else (true, modChan i (fun x => { x with counter := BitVec.ofNat 32 cand, dirty := true }) r.2)
    | none => fail cand (if s.ks.slots[a.slot].st = .orphaned then opAborted a.slot 3 13 r.2 else r.2)

def canFlags (f : CanFrame) : Nat :=
  (if f.fd then 128 else 0) + (if f.brs then 64 else 0) + (if f.ext then 32 else 0) + (if f.rtr then 16 else 0)
    + (if f.esi then 8 else 0)

/-- A received CAN frame, with its check while D14 can compute (R379, R386). -/
def canAccept (c : Fin 6) (f : CanFrame) (z : Nat) (s : State) : State :=
  match chanFor false c.val f.ext f.id.toNat s with
  | none => deliver c.val (canFlags f) 0 f.ext f.id.toNat z f.data s
  | some i =>
    let r := receiveCheck i f s
    deliver c.val (canFlags f) (if r.1 then 1 else 2) f.ext f.id.toNat z f.data r.2

/-- A frame of a live channel: FD frames while FD_EN is 0 are protocol errors (R375, R379, R399, R412). -/
def canTakes (c : Fin 6) (f : CanFrame) (s : State) : State :=
  let p := s.net.cans[c]
  let n := canNet c
  if canLive c s then
    if f.fd && !fdEn p then stickCan c 0x02 s
    else
      let x := s.net.nets[n]
      let mask := fld x.cfg3 0 29
      let ka := x.st != .disabled && f.ext == kaExt x && (f.id.toNat &&& mask) == (kaId x &&& mask)
      let s := if ka then keepAliveFrom n s else s
      let named := s.net.filters.toList.any fun g => filterMatches g c.val f.ext f.id.toNat
      let s := if named then modNets n (fun x => { x with quiet := false }) s else s
      if domOn 0 s then
        if (chanFor false c.val f.ext f.id.toNat s).isSome && !cryptoReady s then
          wakeInternal 14 (modNet (fun y => { y with authRx := y.authRx ++ [⟨c, f, zone s⟩] }) s)
        else canAccept c f (zone s) s
      else s
  else s

/-- A classical frame matches the wake frame of a channel (R410, Table 13-4). -/
def wakeMatches (w : WakeFrame) (f : CanFrame) : Bool :=
  !f.fd && f.ext == w.ext && (f.id.toNat &&& w.mask) == (w.id &&& w.mask) && f.data.length = w.dlc
    && (w.data.all (· == 0) || (w.data.zip f.data).any fun x => x.1 &&& x.2 != 0)

/-- CAN_FRAME_RECEIVED: an error-free frame on the bus. While its net sleeps or its domain is not on, one that matches the wake
frame is detector 02h's, and only the transceiver sees it (R409, R410, R552). -/
def canFrameReceived (c : Fin 6) (f : CanFrame) (s : State) : State :=
  if wakeMatches s.net.wufs[c] f && netListens (canNet c) s then netWakeDetect (canNet c) true s else canTakes c f s

/-- D14 can compute: the frames that waited for it are checked (R384). -/
def drainAuthRx (s : State) : State :=
  if cryptoReady s && !s.net.authRx.isEmpty then
    let l := s.net.authRx
    l.foldl (fun s w => canAccept w.channel w.frame w.zone s) (modNet (fun x => { x with authRx := [] }) s)
  else s

/-- Bytes 4 to 27 of a channel counter entry (R468). -/
def counterBody (kind idx : Nat) (v : Word) : List Byte :=
  be 1 kind ++ be 1 idx ++ be 2 0 ++ be 4 v.toNat ++ be 16 0

def chanArea (i : Fin 32) : Nat := 0x1C1000 + 0x40 * i.val

/-- CHANNEL_COUNTER_WRITE (R387): at most once per ms per channel. -/
def channelCounterWrite (i : Fin 32) (s : State) : State :=
  let a := s.net.chans[i]
  if a.dirty && a.wroteAt.all (fun t => decide (t + Config.ms ≤ now s)) then
    let e := slotEntry (chanArea i) 2 i.val 4 (counterBody 2 i.val a.counter) (nvView s)
    nvQueue 4 e.1 e.2 none (modChan i (fun x => { x with dirty := false, wroteAt := some (now s) }) s)
  else s

/-! ### FRAME_SEND (R382, R383, R385, R413) -/

def dlcOk (n : Nat) : Bool := n ≤ 8 || n = 12 || n = 16 || n = 20 || n = 24 || n = 32 || n = 48 || n = 64

def fsPort (b : List Byte) : Nat := (byteAt b 0).toNat
def fsFd (b : List Byte) : Bool := (byteAt b 1).getLsbD 7
def fsExt (b : List Byte) : Bool := (byteAt b 1).getLsbD 5
def fsAuth (b : List Byte) : Bool := (byteAt b 1).getLsbD 4
def fsLen (b : List Byte) : Nat := (byteAt b 2).toNat
def fsId (b : List Byte) : Nat := numAt b 4 4
def fsData (b : List Byte) : List Byte := b.drop 8

/-- The CAN frame of a FRAME_SEND without authentication. -/
def fsFrame (b : List Byte) : CanFrame :=
  { ext := fsExt b, id := BitVec.ofNat 29 (fsId b), fd := fsFd b, brs := fsFd b && (byteAt b 1).getLsbD 6, rtr := false
    esi := false, data := fsData b }

/-- Fields in range (R389). -/
def fsRange (b : List Byte) : Bool :=
  let total := fsLen b + if fsAuth b then 8 else 0
  if fsPort b < 6 then
    dlcOk (fsLen b) && dlcOk total && (fsFd b || total ≤ 8) && (fsExt b || fsId b < 2048)
  else 8 ≤ fsPort b && fsPort b < 16 && 1 ≤ fsLen b && fsLen b ≤ 8 && fsId b < 64 && !fsExt b

/-- Place a frame, or wait for a buffer (R382). -/
def placeCan (q : QPkt) (c : Fin 6) (f : CanFrame) (s : State) : Option Ans × State :=
  if s.net.cans[c].bufs.length < 8 then
    let n := canNet c
    let s := modCan c (fun x => { x with bufs := x.bufs ++ [f] }) s
    let st := s.net.nets[n].st
    done .ok (if st = .asleep || st = .transition then wakeNet n 4 s else netSettle n s)
  else
    -- the frame as it will be placed is kept in the packet that waits
    let q := { q with pkt := { q.pkt with payload := q.pkt.payload.take 8 ++ f.data } }
    (none, modNet (fun x => { x with txWait := x.txWait ++ [(c, q, now s)] }) s)

/-- The frame of a FRAME_SEND that waits for a buffer: its data already holds the trailer. -/
def waitFrame (p : Packet) : CanFrame := fsFrame p.payload

/-- FRAME_SEND with AUTH: C is incremented and the trailer appended (R385). -/
def authFrame (b : List Byte) (i : Fin 32) (s : State) : (Half × Half) ⊕ CanFrame × State :=
  let a := s.net.chans[i]
  let k := s.ks.slots[a.slot]
  if k.st = .orphaned then .inl (stOrphaned, 0)
  else if k.st != .loaded || !k.attr.getLsbD 1 then .inl (stAuthFail, 1)
  else if a.counter == 0xFFFFFFFF then .inl (stAuthFail, 0)
  else
    let c := a.counter + 1
    let f := fsFrame b
    let tr := be 2 (c.toNat % 65536) ++ frameMac k.key f.ext f.id.toNat c f.data
    .inr ({ f with data := f.data ++ tr }, modChan i (fun x => { x with counter := c, dirty := true }) s)

/-- FRAME_SEND to a CAN channel (R382, R383, R385, R413). -/
def frameSendCan (q : QPkt) (c : Fin 6) (s : State) : Option Ans × State :=
  let b := q.pkt.payload
  let n := canNet c
  let x := s.net.nets[n]
  let p := s.net.cans[c]
  if (x.st = .asleep || x.st = .transition) && !txWake x then refuse 0x0C41 (stickNet n 0b00000001 s)
  else if canMode p ≠ 1 || p.busOff || (fsFd b && !fdEn p) then refuse 0x0A42 s
  else if fsAuth b then
    match chanFor true c.val (fsExt b) (fsId b) s with
    | none => refuse 0x0A43 s
    | some i =>
      let slot := s.net.chans[i].slot
      match authFrame b i s with
      | .inl e =>
        let s := if e.1 == stOrphaned then opAborted slot 4 q.pkt.host.val s
          else if s.ks.slots[slot].st = .loaded && !s.ks.slots[slot].attr.getLsbD 1 then stickSlot slot 0x01 s else s
        refuse e.1 s e.2
      | .inr r => placeCan q c r.1 r.2
  else placeCan q c (fsFrame b) s

/-- FRAME_SEND to a LIN channel (R383, R413). -/
def frameSendLin (b : List Byte) (c : Fin 8) (s : State) : Option Ans × State :=
  let n := linNet c
  let x := s.net.nets[n]
  let id : BitVec 6 := BitVec.ofNat 6 (fsId b)
  let asleep := x.st = .asleep || x.st = .transition
  if asleep && !txWake x then refuse 0x0C41 (stickNet n 0b00000001 s)
  else if fsFd b then refuse 0x0A42 s
  else if fsAuth b then refuse 0x0A43 s
  else if (s.net.lins[c].table.any fun t => t.publish && t.id == id) then
    let s := modLin c (fun l =>
      { l with table := l.table.map fun t => if t.publish && t.id == id then { t with data := fsData b } else t
               txNeed := if asleep && !l.txNeed.contains id then l.txNeed ++ [id] else l.txNeed }) s
    done .ok (if asleep then wakeNet n 4 s else s)
  else refuse 0x0A42 s

/-- FRAME_SEND (R382 to R385, R389, R413). -/
def opFrameSend : OpSpec :=
  { lenOk := fun b => decide (8 ≤ b.length) && b.length = 8 + fsLen b
    resOk := fun b => onlyBits 1 0xF0 b && zeroAt [3] b && onlyBits 4 0x1F b
    units := fun p _ =>
      let n := fsPort p.payload
      if n < 6 then [.can (Fin.ofNat 6 n)] else if 8 ≤ n && n < 16 then [.lin (Fin.ofNat 8 (n - 8))] else [.chip]
    doms := fun _ => []
    inner := fun p _ => if fsAuth p.payload && decide (fsPort p.payload < 6) then [14] else []
    act := .whole fun q _ s =>
      let b := q.pkt.payload
      if !fsRange b then refuse 0x0A40 s
      else if fsPort b < 6 then frameSendCan q (Fin.ofNat 6 (fsPort b)) s
      else frameSendLin b (Fin.ofNat 8 (fsPort b - 8)) s }

/-- FRAME_SEND_TIMEOUT: tTXW has passed without a buffer (R382). -/
def frameSendTimeout (c : Fin 6) (s : State) : State :=
  match s.net.txWait.find? (·.1 = c) with
  | some w =>
    if w.2.2 + 10 * Config.ms ≤ now s then
      let s := modNet (fun x => { x with txWait := x.txWait.filter (·.2.1.seq ≠ w.2.1.seq) }) s
      complete w.2.1 (.err 0x0A41) (stickCan c 0x01 s)
    else s
  | none => s

/-- CAN_FRAME_SENT: the frame first in arbitration has gone out (R382); a full buffer frees (R398, R403). -/
def canFrameSent (c : Fin 6) (s : State) : State :=
  if canLive c s && canMode s.net.cans[c] = 1 && !s.net.vs5Low && busesDriven s then
    match canFirst s.net.cans[c].bufs with
    | some (f, rest) =>
      let s := modCan c (fun x => { x with bufs := rest }) s
      let s := modNet (fun x => { x with canOut := x.canOut ++ [(c, f)] }) s
      netSettle (canNet c) (placeWaiting c waitFrame s)
    | none => s
  else s

/-! ### LIN channels (R377, R378) -/

def linEnable (x : LinPort) : Bool := x.cfg.getLsbD 31
/-- Tenths of a bit time in ns. -/
def linBitTenths (x : LinPort) (tenths : Nat) : Nat := tenths * Config.sec / (fld x.cfg 23 8 * 1000)

/-- A new table takes effect (R378). -/
def linTable (c : Fin 8) (t : List LinSlot) (s : State) : State :=
  stickLin c 0b00001 (modLin c (fun x => { x with table := t, next := none, slot := 0, slotAt := none, awaiting := false
                                                  txNeed := [] }) s)

/-- LIN may send headers: on, enabled, not asleep, past the wake-up wait, supplied, and not at the end of PREPARE
(R404, R407, R560, Tables 3-3 and 19-6). -/
def linRuns (c : Fin 8) (s : State) : Bool :=
  let x := s.net.nets[linNet c]
  domOn 5 s && linEnable s.net.lins[c] && x.linWait.isNone && !s.net.vs5Low && s.boot.condition == 0
    && (match x.st with
        | .asleep | .transition => false
        | .prepare => decide (now s < x.stateAt + prepTime x)
        | _ => true)

/-- The present slot sends its header, and its response when it publishes (R377, R378). -/
def linStart (c : Fin 8) (s : State) : State :=
  let x := s.net.lins[c]
  match x.table[x.slot]? with
  | some t =>
    let classic := t.classic || t.id == 0x3C || t.id == 0x3D
    let s := modNet (fun y => { y with linOut := y.linOut ++ [(c, t.id, classic, if t.publish then t.data else [])] }) s
    let s := modLin c (fun l => { l with slotAt := some (now s), awaiting := !t.publish
                                         txNeed := if t.publish then l.txNeed.filter (· != t.id) else l.txNeed }) s
    netSettle (linNet c) s
  | none => s

/-- LIN_SLOT_START (R378): the slot in progress has ended; a new table takes its place, or the next slot starts. -/
def linSlotStart (c : Fin 8) (s : State) : State :=
  if linSlotOver c s then
    let x := s.net.lins[c]
    let s := match x.next with
      | some t => linTable c t s
      | none =>
        if x.slotAt.isSome then
          modLin c (fun l => { l with slot := if l.slot + 1 < l.table.length then l.slot + 1 else 0, slotAt := none }) s
        else s
    if linRuns c s then linStart c s else s
  else s

def linError (c : Fin 8) (kind : Nat) (t : LinSlot) (s : State) : State :=
  let s := stickLin c (if kind = 1 then 0b01000 else if kind = 2 then 0b00100 else 0b00010) s
  note 0x0A04 warning 9 c.val kind t.id.toNat s.net.lins[c].slot (modLin c (fun l => { l with awaiting := false }) s)

/-- LIN_FRAME_RECEIVED: what came back in the slot in progress (R377 to R380). -/
def linFrameReceived (c : Fin 8) (data : List Byte) (framingOk checksumOk : Bool) (s : State) : State :=
  let x := s.net.lins[c]
  match x.slotAt, x.table[x.slot]? with
  | some at_, some t =>
    if !domOn 5 s then s
    else if !framingOk then linError c 3 t s
    else if !x.awaiting then s
    else if data.length ≠ t.len then linError c 1 t s
    else if !checksumOk then linError c 2 t s
    else
      let s := modLin c (fun l => { l with awaiting := false }) s
      deliver (8 + c.val) 0 0 false t.id.toNat (zone s - (now s - at_)) data s
  | _, _ => s

/-- LIN_RESPONSE_TIMEOUT (R377): header of 34 bits, response within 1.4 times its length. -/
def linResponseTimeout (c : Fin 8) (s : State) : State :=
  let x := s.net.lins[c]
  match x.slotAt, x.table[x.slot]? with
  | some at_, some t =>
    if x.awaiting && decide (at_ + linBitTenths x (340 + 140 * (t.len + 1)) ≤ now s) then linError c 1 t s else s
  | _, _ => s

/-! ### FORWARD_PACKET_BUILD (R381) -/

/-- As many entries as fit in `room` bytes. -/
def fitEntries : Nat → List FwdEntry → List FwdEntry × List FwdEntry
  | _, [] => ([], [])
  | room, e :: r =>
    if e.bytes.length ≤ room then
      let (a, b) := fitEntries (room - e.bytes.length) r
      (e :: a, b)
    else ([], e :: r)

/-- FWD_DROPPED on a port whose frames were held by a discarded packet, with record 0A05h (R381). -/
def fwdDropped (h : Fin 10) (port : Nat) (n : Nat) (s : State) : State :=
  if port < 8 then note 0x0A05 warning 8 port h.val n 0 (stickCan (Fin.ofNat 6 port) 0x10 s)
  else note 0x0A05 warning 9 (port - 8) h.val n 0 (stickLin (Fin.ofNat 8 (port - 8)) 0b10000 s)

/-- Host `h` can receive packets: an SPI host, a registered host, or a host of the lead (R532). -/
def hostReachable (h : Fin 14) (s : State) : Bool :=
  h.val < 2 || s.hosts[h].reg.isSome || !isLead s

def fwdPacket (h : Fin 10) (es : List FwdEntry) (s : State) : State :=
  let h14 : Fin 14 := Fin.ofNat 14 h.val
  let prio : BitVec 2 := es.foldl (fun m e => if m.toNat < e.prio.toNat then e.prio else m) 0
  let p := hostPacket 0x4A00 prio (Fin.ofNat 16 h.val) (be 2 es.length ++ be 2 0 ++ (es.map (·.bytes)).flatten) s
  if !hostReachable h14 s then s
  else if (isLead s || h.val < 2) && Config.outCap ≤ s.hosts[h14].out.length then
    let ports := (es.map (·.port)).eraseDups
    ports.foldl (fun s p => fwdDropped h p (es.filter (·.port = p)).length s) s
  else toHost h14 ⟨1, packetBytes p, 0, now s, .none⟩ s

/-- All the entries that wait, packet by packet. -/
def fwdPackets (h : Fin 10) : Nat → List FwdEntry → State → State
  | 0, _, s => s
  | n + 1, es, s =>
    match es with
    | [] => s
    | _ =>
      let (a, b) := fitEntries 1020 es
      fwdPackets h n b (fwdPacket h a s)

/-- tFBW (R381). -/
def tFBW : Nat := 50 * Config.us

/-- FORWARD_PACKET_BUILD (R381). -/
def forwardPacketBuild (h : Fin 10) (s : State) : State :=
  let f := s.net.fwd[h]
  match f.at_ with
  | some t =>
    if domOn 0 s && decide (t + tFBW ≤ now s) then
      let s := modNet (fun x => { x with fwd := x.fwd.set h ⟨[], none⟩ }) s
      fwdPackets h f.entries.length f.entries s
    else s
  | none => s

/-! ### MAC_ENTRY_AGE (R362) -/

/-- The switch fabric is powered (Table 4-3). -/
def switchOn (s : State) : Bool := domOn 1 s || domOn 2 s

def macEntryAge (mac : BitVec 48) (vlan : BitVec 12) (s : State) : State :=
  modNet (fun x => { x with fdb := x.fdb.filter fun e =>
    !(e.mac == mac && e.vlan == vlan && decide (e.at_ + 300 * Config.sec ≤ now s)) }) s

/-! ### TRANSCEIVER_SUPPLY_CHANGE (R560) -/

def transceiverSupply (mV : Nat) (s : State) : State := modNet (fun x => { x with vs5Low := decide (mV < 5000) }) s

/-! ### Configuration opcodes (R389, R391) -/

/-- The RW fields of a kind's configuration word, most significant first: low bit and width (Table 12-5). -/
def portFields (kind : Nat) : List (Nat × Nat) :=
  match kind with
  | 0 => [(31, 1), (30, 1), (29, 1), (26, 3), (14, 12), (11, 3)]
  | 1 => [(30, 2), (29, 1), (27, 2), (25, 2), (18, 7), (12, 6), (11, 1)]
  | _ => [(31, 1), (23, 8)]

/-- Write the selected fields of an image into a word. -/
def writeFields (img : Word) (w : Nat) : Nat → List (Nat × Nat) → Word → Word
  | _, [], x => x
  | i, f :: r, x => writeFields img w (i + 1) r (if w.testBit i then setFld x f.1 f.2 (fld img f.1 f.2) else x)

/-- Bits of a word outside its fields. -/
def outside (fs : List (Nat × Nat)) (x : Word) : Bool := fs.foldl (fun x f => setFld x f.1 f.2 0) x == 0

/-- Time quanta per bit of the two phases (Table 12-2). -/
def nomTq (c : Nat) : Nat := [80, 80, 80, 40].getD c 80
def dataTq (c : Nat) : Nat := [40, 20, 10, 8].getD c 40

/-- The configuration word lies in range (R375, Table 12-5). -/
def portOk (kind : Nat) (w : Word) : Bool :=
  match kind with
  | 0 => true
  | 1 =>
    let n := nomTq (fld w 27 2)
    let d := dataTq (fld w 25 2)
    fld w 30 2 ≠ 3 && n ≤ 2 * fld w 18 7 && fld w 18 7 + 2 ≤ n && d ≤ 2 * fld w 12 6 && fld w 12 6 + 2 ≤ d
  | _ => 10 ≤ fld w 23 8 && fld w 23 8 ≤ 200

/-- The configuration of an Ethernet port (R360). -/
def ethConfigure (n : Fin 2) (w : Word) (s : State) : State :=
  let old := s.net.eth[n].cfg
  let s := modEth n (fun x => { x with cfg := w }) s
  if fld old 30 2 ≠ fld w 30 2 && s.net.eth[n].link != 0 then setLink n 1 s else s

/-- The configuration of a CAN channel (R376): a change of MODE discards the buffers, with BUSOFF_AUTO 0 a write
of MODE ends bus-off. -/
def canConfigure (c : Fin 6) (w : Word) (modeWritten : Bool) (s : State) : State :=
  let old := s.net.cans[c].cfg
  let changed := fld old 30 2 ≠ fld w 30 2
  let ends := modeWritten && s.net.cans[c].busOff && !w.getLsbD 11
  let s := modCan c (fun x =>
    { x with cfg := w, bufs := if changed then [] else x.bufs
             busOff := if changed || ends then false else x.busOff
             tec := if changed || ends then 0 else x.tec
             rec_ := if changed || ends then 0 else x.rec_ }) s
  netSettle (canNet c) (if ends && !changed then canRecord c s else s)

/-- The configuration of a LIN channel: an enabled table starts at slot 0. -/
def linConfigure (c : Fin 8) (w : Word) (s : State) : State :=
  let was := linEnable s.net.lins[c]
  modLin c (fun x =>
    { x with cfg := w, slot := if !was && w.getLsbD 31 then 0 else x.slot
             slotAt := if !was && w.getLsbD 31 then none else x.slotAt }) s

/-- PORT_CONFIG on one port (R389, R391). -/
def portConfigOne (q : QPkt) (u : UnitRef) (s : State) : UnitRes × State :=
  let b := q.pkt.payload
  let kind := (byteAt b 0).toNat
  let w := numAt b 2 2
  let img := wordAt b 4
  let old : Word := match u with
    | .eth n => s.net.eth[n].cfg | .can c => s.net.cans[c].cfg | .lin c => s.net.lins[c].cfg | _ => 0
  let new := writeFields img w 0 (portFields kind) old
  let p1 := kind * 65536 + w
  if !portOk kind new then (unitRes u 0x80, s)
  else match u with
    | .eth n => (unitRes u 0, note 0x0A06 info 10 n.val p1 new.toNat q.pkt.host.val (ethConfigure n new s))
    | .can c =>
      (unitRes u 0, note 0x0A06 info 8 c.val p1 new.toNat q.pkt.host.val
        (placeWaiting c waitFrame (canConfigure c new (w.testBit 0) s)))
    | .lin c => (unitRes u 0, note 0x0A06 info 9 c.val p1 new.toNat q.pkt.host.val (linConfigure c new s))
    | _ => (unitRes u 0, s)

def portStatus (o : Nat) : Half × Half := if o = 0x80 then (0x0A40, 0) else outcomeStatus o

def portUnits (b : List Byte) : List UnitRef :=
  let m := (byteAt b 1).toNat
  match (byteAt b 0).toNat with
  | 0 => ((List.range 2).filter m.testBit).map fun i => .eth (Fin.ofNat 2 i)
  | 1 => ((List.range 6).filter m.testBit).map fun i => .can (Fin.ofNat 6 i)
  | 2 => ((List.range 8).filter m.testBit).map fun i => .lin (Fin.ofNat 8 i)
  | _ => [.chip]

/-- PORT_CONFIG (R389, R391). -/
def opPortConfig : OpSpec :=
  { lenOk := fun b => b.length = 8
    resOk := fun b =>
      let k := (byteAt b 0).toNat
      2 < k || ((byteAt b 1).toNat < 2 ^ ([2, 6, 8].getD k 8) && numAt b 2 2 < 2 ^ (portFields k).length
        && outside (portFields k) (wordAt b 4))
    units := fun p _ => portUnits p.payload
    doms := fun _ => []
    act := .perUnit portConfigOne fun q rs _ =>
      if 2 < (byteAt q.pkt.payload 0).toNat then .err 0x0A40 else outcomesAns portStatus q rs }

/-- VLAN_WRITE (R364, R389). -/
def opVlanWrite : OpSpec :=
  { chipOp 8 [] (fun b => onlyBits 1 0x87 b && onlyBits 2 7 b && zeroAt [3, 6, 7] b && onlyBits 4 0x0F b) (fun q s =>
      let b := q.pkt.payload
      if h : (byteAt b 0).toNat < 32 then
        let v : VlanEntry :=
          { valid := (byteAt b 1).getLsbD 7, members := BitVec.ofNat 3 (byteAt b 1).toNat
            untag := BitVec.ofNat 3 (byteAt b 2).toNat, vid := BitVec.ofNat 12 (numAt b 4 2) }
        done .ok (modNet (fun x => { x with vlans := x.vlans.set (byteAt b 0).toNat v h }) s)
      else refuse 0x0A40 s) with anyOf := fun _ => [1, 2] }

/-- Slot `i` of a LIN_SCHEDULE payload. -/
def linSlotAt (b : List Byte) (i : Nat) : LinSlot :=
  let o := 4 + 12 * i
  let f := byteAt b (o + 1)
  { id := BitVec.ofNat 6 (byteAt b o).toNat, publish := f.getLsbD 7, classic := f.getLsbD 6, len := f.toNat % 16
    delay := (byteAt b (o + 2)).toNat, data := slice b (o + 4) (f.toNat % 16) }

/-- A slot is in range and long enough (R378, R389). -/
def linSlotOk (x : LinPort) (t : LinSlot) : Bool :=
  1 ≤ t.len && t.len ≤ 8 && 1 ≤ t.delay && linBitTenths x (14 * (34 + 10 * (t.len + 1))) ≤ t.delay * Config.ms

/-- LIN_SCHEDULE (R378, R389). -/
def opLinSchedule : OpSpec :=
  { lenOk := fun b => decide (4 ≤ b.length) && b.length = 4 + 12 * (byteAt b 1).toNat
    resOk := fun b => zeroAt [2, 3] b && (List.range (byteAt b 1).toNat).all fun i =>
      onlyBits (4 + 12 * i) 0x3F b && onlyBits (5 + 12 * i) 0xCF b && zeroAt [7 + 12 * i] b
    units := fun p _ =>
      let c := (byteAt p.payload 0).toNat
      if c < 8 then [.lin (Fin.ofNat 8 c)] else [.chip]
    doms := fun _ => []
    act := .whole fun q _ s =>
      let b := q.pkt.payload
      let c : Fin 8 := Fin.ofNat 8 (byteAt b 0).toNat
      let t := (List.range (byteAt b 1).toNat).map (linSlotAt b)
      if 7 < (byteAt b 0).toNat || 32 < t.length || !t.all (linSlotOk s.net.lins[c]) then refuse 0x0A40 s
      else if s.net.lins[c].slotAt.isNone then done .ok (linTable c t s)
      else done .ok (modLin c (fun l => { l with next := some t }) s) }

/-- FILTER_WRITE (R380, R389). -/
def opFilterWrite : OpSpec :=
  chipOp 16 [0] (fun b => onlyBits 1 0xE0 b && onlyBits 3 3 b && onlyBits 4 0x1F b && onlyBits 8 0x1F b
      && onlyBits 12 3 b && zeroAt [14, 15] b) fun q s =>
    let b := q.pkt.payload
    let port := (byteAt b 2).toNat
    if h : (byteAt b 0).toNat < 64 then
      if 15 < port || port = 6 || port = 7 then refuse 0x0A40 s
      else
        let f : Filter :=
          { valid := (byteAt b 1).getLsbD 7, ext := (byteAt b 1).getLsbD 6, drop := (byteAt b 1).getLsbD 5, port := port
            prio := BitVec.ofNat 2 (byteAt b 3).toNat, id := numAt b 4 4, mask := numAt b 8 4
            hosts := BitVec.ofNat 10 (numAt b 12 2) }
        done .ok (modNet (fun x => { x with filters := x.filters.set (byteAt b 0).toNat f h }) s)
    else refuse 0x0A40 s

/-- AUTH_CHANNEL (R384, R385, R389). -/
def opAuthChannel : OpSpec :=
  chipOp 12 [0] (fun b => onlyBits 1 0xF0 b && onlyBits 4 0x1F b && zeroAt [10, 11] b) fun q s =>
    let b := q.pkt.payload
    if (byteAt b 0).toNat < 32 && (byteAt b 2).toNat < 6 && (byteAt b 3).toNat < 64 && 1 ≤ numAt b 8 2 then
      let reset := (byteAt b 1).getLsbD 4
      done .ok (modChan (Fin.ofNat 32 (byteAt b 0).toNat) (fun x =>
        { x with valid := (byteAt b 1).getLsbD 7, tx := (byteAt b 1).getLsbD 6, ext := (byteAt b 1).getLsbD 5
                 port := (byteAt b 2).toNat, slot := Fin.ofNat 64 (byteAt b 3).toNat, id := numAt b 4 4
                 window := numAt b 8 2, counter := if reset then 0 else x.counter, dirty := x.dirty || reset }) s)
    else refuse 0x0A40 s

end Sys2Proof.Machine
end

