-- ==== Sys2Proof/Machine/Keys.lean ====
section
/-! DEFINITION. The key store (chapter 15): rootstocks, slots, updates of the two store copies, orphaning, reload,
replay states, and the opcodes of family 0Eh. -/

namespace Sys2Proof.Machine

/-! ### Words, events and records (R475, R476) -/

def modKs (f : KeySt → KeySt) (s : State) : State := { s with ks := f s.ks }
def modRoot (i : Fin 32) (f : Rootstock → Rootstock) (s : State) : State :=
  modKs (fun x => { x with roots := x.roots.set i (f x.roots[i]) }) s

/-- Sticky bits of words 0E03h and 0E05h; event 230. -/
def stickRoot (i : Fin 32) (m : BitVec 3) (s : State) : State :=
  raiseIf (fresh s.ks.roots[i].sticky m) 230 (modRoot i (fun x => { x with sticky := x.sticky ||| m }) s)
def stickKs (m : BitVec 4) (s : State) : State :=
  raiseIf (fresh s.ks.sticky m) 230 (modKs (fun x => { x with sticky := x.sticky ||| m }) s)

/-! ### The store copies (R465, R466, Tables 15-6 and 15-7) -/

def storeAddr (copyB : Bool) : Nat := if copyB then 0x160000 else 0x100000

def SlotState.code : SlotState → Nat
  | .empty => 0 | .loaded => 1 | .orphaned => 2
def RootState.code : RootState → Nat
  | .unset => 0 | .established => 1 | .retired => 2

def rootBytes32 (r : Rootstock) : List Byte :=
  be 1 r.st.code ++ be 1 r.role.toNat ++ be 2 0 ++ be 4 r.gen.toNat ++ be 8 r.div.toNat ++ be 16 0

/-- PERSIST (Table 15-2). -/
def persists (k : KeySlot) : Bool := k.attr.getLsbD 4

def slotBytes96 (k : KeySlot) : List Byte :=
  be 1 k.st.code ++ be 1 k.parent ++ be 2 k.attr.toNat ++ be 4 k.version.toNat ++ be 4 k.parentGen.toNat ++ be 20 0
    ++ (if persists k && k.st = .loaded then k.blob else be 64 0)

/-- One byte of the revocation bitmap (R464). -/
def bitmapByte (rev : List Nat) (d : Nat) : Byte :=
  rev.foldl (fun b n => if n / 8 = d then b ||| BitVec.ofNat 8 (2 ^ (n % 8)) else b) 0

def bitmapSize : Nat := 131072

/-- Bytes 64 to 138,303 of a copy. -/
def storeBody (k : KeySt) : List Byte :=
  (k.roots.toList.map rootBytes32).flatten ++ (k.slots.toList.map slotBytes96).flatten
    ++ (List.range bitmapSize).map (bitmapByte k.revoked)

def storeHead : List Byte := be 4 0x4B535431 ++ be 2 1 ++ be 2 0

/-- A whole copy with its COMMIT_GEN (Table 15-7). -/
def storeBytes (k : KeySt) (gen : Word) : List Byte :=
  let body := storeBody k
  storeHead ++ be 4 gen.toNat ++ be 4 (~~~gen).toNat ++ be 4 (crc32 (storeHead ++ body)).toNat ++ be 44 0 ++ body

/-- What steps 1 to 3 of an update leave of the target copy: the body under its CRC, not committed (R465). -/
def storeOpen (k : KeySt) : List Byte :=
  let body := storeBody k
  storeHead ++ be 8 0 ++ be 4 (crc32 (storeHead ++ body)).toNat ++ be 44 0 ++ body

/-- COMMIT_GEN of a copy in the die. -/
def storeGen (copyB : Bool) (m : Memory) : Word := wordAt (Mem.readN m (storeAddr copyB) 16) 8

/-- A copy is valid (R466). -/
def storeValid (copyB : Bool) (m : Memory) : Bool :=
  let h := Mem.readN m (storeAddr copyB) 64
  let g := wordAt h 8
  slice h 0 6 == storeHead.take 6 && g != 0 && g != 0xFFFFFFFF && wordAt h 12 == ~~~g
    && crc32 (h.take 8 ++ Mem.readN m (storeAddr copyB + 64) (1024 + 6144 + bitmapSize)) == wordAt h 16

def loadRoot (b : List Byte) : Rootstock :=
  { st := match (byteAt b 0).toNat with | 1 => .established | 2 => .retired | _ => .unset
    role := BitVec.ofNat 2 (byteAt b 1).toNat, gen := wordAt b 4, div := BitVec.ofNat 64 (numAt b 8 8), sticky := 0 }

def loadSlot (b : List Byte) (old : KeySlot) : KeySlot :=
  { old with st := match (byteAt b 0).toNat with | 1 => .loaded | 2 => .orphaned | _ => .empty
             parent := (byteAt b 1).toNat, attr := halfAt b 2, version := wordAt b 4, parentGen := wordAt b 8, key := []
             blob := slice b 32 64 }

/-- The serials a stored bitmap names, ascending. -/
def loadBitmap (m : Memory) (base : Nat) : List Nat :=
  ((List.range bitmapSize).map fun d =>
    let b := Mem.read m (base + d)
    ((List.range 8).filter b.getLsbD).map (fun i => 8 * d + i)).flatten

/-- The state a valid copy gives (R450, R466); scions come back by the reload of R461. -/
def loadStore (copyB : Bool) (s : State) : State :=
  let a := storeAddr copyB
  let k := s.ks
  let roots := Vector.ofFn fun (i : Fin 32) => loadRoot (Mem.readN s.nv (a + 64 + 32 * i.val) 32)
  let slots := Vector.ofFn fun (i : Fin 64) => loadSlot (Mem.readN s.nv (a + 1088 + 96 * i.val) 96) k.slots[i]
  modKs (fun x => { x with roots := roots, slots := slots, copyB := copyB, lost := false
                           revoked := loadBitmap s.nv (a + 7232) }) s

/-- The LOST store (R466). -/
def lostStore (s : State) : State :=
  modKs (fun x =>
    { x with roots := x.roots.map fun r => { r with st := .unset, role := 0, gen := 0, div := 0 }
             slots := x.slots.map fun k => { k with st := .empty, parent := 0, attr := 0, version := 0, parentGen := 0, key := [], blob := [] }
             lost := true, revoked := [], copyB := false }) s

/-- The newest replay or channel value stored at an area (R468). -/
def storedCounter (base kind idx : Nat) (m : Memory) : Option Word :=
  (newestSlot base kind idx 4 m).map fun r => wordAt r.2 8

def replayArea (k : Fin 64) : Nat := 0x1C0000 + 0x40 * k.val

/-- Every slot's S as stored, with S - 63 to S counted as accepted (R468). -/
def restoreReplay (s : State) : State :=
  (List.range 64).foldl (fun s i =>
    let k : Fin 64 := Fin.ofNat 64 i
    let v := (storedCounter (replayArea k) 1 i s.nv).getD 0
    let acc : BitVec 64 := if v.toNat < 64 then BitVec.ofNat 64 (2 ^ v.toNat - 1) else BitVec.allOnes 64
    modSlot k (fun x => { x with seqS := v, accepted := acc, dirty := false }) s) s

/-- Channel counters as stored; transmit counters plus 4,096 (R387). -/
def restoreChannels (s : State) : State :=
  (List.range 32).foldl (fun s n =>
    let i : Fin 32 := Fin.ofNat 32 n
    let v := (storedCounter (chanArea i) 2 n s.nv).getD 0
    modChan i (fun x => { x with counter := if x.tx then v + 4096 else v, dirty := false }) s) s

/-- The phase 4 selection of the store (R450, R454, R466, R468): restored replay states, a new NONCE. -/
def selectStore (s : State) : State :=
  let va := storeValid false s.nv
  let vb := storeValid true s.nv
  let ga := storeGen false s.nv
  let gb := storeGen true s.nv
  let s := modKs (fun x => { x with genA := ga, genB := gb }) s
  let s :=
    if !va && !vb then
      note 0x0E09 critical 0 0 ga.toNat gb.toNat 0 (stickKs 0b0100 (lostStore s))
    else
      let useB := vb && (!va || decide (ga.toNat < gb.toNat))
      let other := if useB then ga else gb
      let mine := if useB then gb else ga
      let fallback := !(va && vb) && decide (mine.toNat < other.toNat)
      let s := loadStore useB s
      let s := if fallback then stickKs 0b1000 s else s
      note 0x0E08 info 0 0 (if useB then 1 else 0) mine.toNat (if fallback then 1 else 0) s
  let r := random s
  restoreReplay (modKs (fun x => { x with nonce := BitVec.ofNat 32 r.toNat }) (drew s))

/-! ### Orphaning (R462) -/

/-- Slots bound to a rootstock whose generation has gone become EMPTY_ORPHANED; token keys leave the cache. -/
def orphan (i : Fin 32) (oldGen : Word) (s : State) : State × Nat :=
  let hit (k : KeySlot) : Bool := k.st = .loaded && k.parent = i.val && k.parentGen == oldGen
  let n := (s.ks.slots.toList.filter hit).length
  let s := (List.range 64).foldl (fun s n =>
    let k : Fin 64 := Fin.ofNat 64 n
    let x := s.ks.slots[k]
    if hit x then
      let s := modSlot k (fun x => { x with st := .orphaned, key := [], blob := [] }) s
      note 0x0E03 warning 13 n i.val oldGen.toNat x.version.toNat (stickSlot k 0x40 s)
    else s) s
  (if s.ks.roots[i].role == 3 then modAcc (fun x => { x with cache := [] }) s else s, n)

/-! ### Updates (R465, R467, R474) -/

/-- An EMPTY slot holds no scion, no attributes and no parent; its version and replay state stay (R455, R459). -/
def KeySlot.emptied (x : KeySlot) : KeySlot :=
  { x with st := .empty, parent := 0, attr := 0, parentGen := 0, key := [], blob := [] }

/-- What an update makes of the structural store. -/
def applyChange (c : KeyChange) (k : KeySt) : KeySt :=
  match c with
  | .load slot parent attr version gen key blob =>
    let x := k.slots[slot]
    let y : KeySlot :=
      { x with st := .loaded, parent := parent, attr := attr, version := version, parentGen := gen, key := key
               blob := blob, seqS := 0, accepted := 0, dirty := true }
    { k with slots := k.slots.set slot y }
  | .clear slot =>
    let x := k.slots[slot]
    { k with slots := k.slots.set slot x.emptied }
  | .establish i role gen div =>
    let r := k.roots[i]
    let r' : Rootstock := { r with st := .established, role := role, gen := gen, div := div }
    { k with roots := k.roots.set i r' }
  | .invalidate i _ =>
    let r := k.roots[i]
    let r' : Rootstock := if r.gen == 0xFFFFFFFE then { r with st := .retired } else { r with gen := r.gen + 1 }
    { k with roots := k.roots.set i r' }
  | .revoke ser =>
    let n := ser.toNat
    if k.revoked.contains n then k
    else { k with revoked := k.revoked.filter (· < n) ++ [n] ++ k.revoked.filter (n < ·) }

/-- Slots as the store holds them after the change: those an invalidation orphans included (R462, R465). -/
def orphanedIn (c : KeyChange) (k : KeySt) : KeySt :=
  match c with
  | .invalidate i _ =>
    let g := k.roots[i].gen
    { k with slots := k.slots.map fun x =>
        if x.st = .loaded && x.parent = i.val && x.parentGen == g then { x with st := .orphaned, key := [], blob := [] } else x }
  | _ => k

/-- A rootstock value wrapped under KEK(KP) (R452, R453). A RETIRED rootstock has no value: what the reply then carries in its
place is free (log entry 31). -/
def wrappedRoot (i : Fin 32) (s : State) : State × List Byte :=
  if s.ks.roots[i].st = .established then (s, Crypto.keyWrap (keyKEK keyKP) (rootValue i s))
  else (drew (drew (drew s)), (List.range 3).flatMap fun j => be 8 (Config.freeWord (s.clk.free + j)).toNat)

/-- The effects beside the store of a committed change, and its answer; `before` is the store before it. -/
def committed (c : KeyChange) (q : QPkt) (before : KeySt) (s : State) : State × List Byte :=
  let h := q.pkt.host.val
  match c with
  | .load slot parent attr version _ _ _ =>
    (note 0x0E01 info 13 slot.val version.toNat (parent * 65536 + attr.toNat) h (stickSlot slot 0x04 s), [])
  | .clear slot =>
    (note 0x0E02 info 13 slot.val s.ks.slots[slot].version.toNat before.slots[slot].parent h (stickSlot slot 0x08 s), [])
  | .establish i role gen _ =>
    wrappedRoot i (note 0x0E05 info 14 i.val role.toNat gen.toNat h (stickRoot i 0b001 s))
  | .invalidate i pk =>
    let r := s.ks.roots[i]
    let o := orphan i (if r.st = .retired then r.gen else r.gen - 1) s
    let s := stickRoot i 0b010 o.1
    wrappedRoot i (note 0x0E06 warning 14 i.val (if r.st = .retired then 0 else r.gen.toNat) pk o.2 s)
  | .revoke ser => (accNote 0x0D08 warning ser.toNat ser.toNat h 1 (revoked ser s), [])

/-- A slot reload is a demand on D15 until it is done (Table 4-8, R461). -/
def reloadDemand (s : State) : State := if s.ks.reload && domOn 14 s && !domOn 15 s then wakeInternal 15 s else s

/-- The store as the update leaves it. -/
def storeAfter (c : KeyChange) (k : KeySt) : KeySt := applyChange c (orphanedIn c k)

/-- Steps 1 to 3 of the first update go to the arbiter: the target's commit words become 0, then its body and BODY_CRC are written
(R465, R504). -/
def updateSteps (s : State) : State :=
  match s.ks.updates with
  | [] => s
  | (c, _) :: _ =>
    let target := storeAddr (!s.ks.copyB)
    if s.ks.writing then s
    else if domOn 15 s then
      let after := storeAfter c s.ks
      let s := modKs (fun x => { x with writing := true, written := false, genA := if x.copyB then 0 else x.genA
                                        genB := if x.copyB then x.genB else 0 }) s
      nvQueue 5 target (storeOpen after) none (nvQueue 5 (target + 8) (be 8 0) none s)
    else wakeInternal 15 s

/-- What the key store does of itself. -/
def keyPump (s : State) : State := updateSteps (reloadDemand s)

/-- The first update is over: its writes that wait are dropped, and the next one begins. -/
def updateOver (rest : List (KeyChange × QPkt)) (s : State) : State :=
  let target := storeAddr (!s.ks.copyB)
  let s := modKs (fun x => { x with updates := rest, writing := false, written := false }) s
  { s with alm := { s.alm with writes := s.alm.writes.filter fun w => w.addr ≠ target && w.addr ≠ target + 8 } }

/-- KEY_STORE_COMMIT: step 4 of the update in progress, once steps 1 to 3 are in the die, or its failure (R465, R474). The
power-fail flush goes before it (R504). -/
def keyStoreCommit (ok : Bool) (s : State) : State :=
  match s.ks.updates with
  | [] => s
  | (c, q) :: rest =>
    if !domOn 15 s then wakeInternal 15 s
    else if !ok then complete q (.err stInternal) (stickKs 0b0001 (updateOver rest s))
    else if !s.ks.written || s.alm.flush.any (·.powerFail) then s
    else
      let gen := (if s.ks.copyB then s.ks.genB else s.ks.genA) + 1
      let toB := !s.ks.copyB
      let s := updateOver rest (nvWrite (storeAddr toB + 8) (be 4 gen.toNat ++ be 4 (~~~gen).toNat) s)
      let before := s.ks
      let k := applyChange c before
      let s := { s with ks := { k with copyB := toB, lost := false
                                       genA := if toB then k.genA else gen, genB := if toB then gen else k.genB } }
      let r := committed c q before s
      complete q (.ok r.2) r.1

/-- An update joins the others in the order of execution (R465). -/
def queueUpdate (c : KeyChange) (q : QPkt) (s : State) : Option Ans × State :=
  (none, keyPump (wakeInternal 15 (modKs (fun x => { x with updates := x.updates ++ [(c, q)] }) s)))

/-! ### Opcodes (R452, R453, R458 to R460, R470 to R474) -/

/-- A rootstock opcode that gets no random value: NONCE waits for the first one (R454, R555). -/
def nonceWaits (s : State) : Option Ans × State := refuse stContained (modKs (fun x => { x with nonceDue := true }) s)

/-- A wrong proof: its sticky bit and record 0E07h. -/
def proofFailed (i : Fin 32) (op pk host : Nat) (s : State) : State :=
  let s := if pk = 1 then stickKs 0b0010 s else s
  note 0x0E07 warning 14 i.val op pk host (stickRoot i 0b100 s)

/-- ROOTSTOCK_ESTABLISH (R452, R474); in a plan (host 12) no proof is valid (R454). -/
def opRootstockEstablish : OpSpec :=
  { chipOp 32 [14] (fun b => onlyBits 1 3 b && zeroAt [2, 3, 16, 17, 18, 19, 20, 21, 22, 23] b) (fun q s =>
      let b := q.pkt.payload
      let ready := needRandom s
      if !ready.1 then nonceWaits ready.2
      else
      let s := ready.2
      let gen := wordAt b 4
      if 31 < (byteAt b 0).toNat || gen == 0 || gen == 0xFFFFFFFF then refuse 0x0E40 (newNonce s)
      else
        let i : Fin 32 := Fin.ofNat 32 (byteAt b 0).toNat
        let role : BitVec 2 := BitVec.ofNat 2 (byteAt b 1).toNat
        let proof := (Crypto.cmac keyKP ([0x50] ++ be 4 s.ks.nonce.toNat ++ b.take 24)).take 8
        let s' := newNonce s
        if q.pkt.host = 12 || proof != slice b 24 8 then refuse 0x0E43 (proofFailed i 0x0E00 1 q.pkt.host.val s')
        else if s.ks.roots[i].st != .unset then refuse 0x0E44 s'
        else if role != 0 && (roleHolder role s).isSome then refuse 0x0E45 s'
        else queueUpdate (.establish i role gen (BitVec.ofNat 64 (numAt b 8 8))) q s')
    with inner := fun _ _ => [14] }

/-- ROOTSTOCK_INVALIDATE (R453, R474); in a plan (host 12) no proof is valid (R454). -/
def opRootstockInvalidate : OpSpec :=
  { chipOp 16 [14] (fun b => zeroAt [2, 3] b) (fun q s =>
      let b := q.pkt.payload
      let ready := needRandom s
      if !ready.1 then nonceWaits ready.2
      else
      let s := ready.2
      let pk := (byteAt b 1).toNat
      if 31 < (byteAt b 0).toNat || 1 < pk then refuse 0x0E40 (newNonce s)
      else
        let i : Fin 32 := Fin.ofNat 32 (byteAt b 0).toNat
        let r := s.ks.roots[i]
        let key := if pk = 1 then keyKP else rootValue i s
        let proof := (Crypto.cmac key ([0x51] ++ be 4 s.ks.nonce.toNat ++ b.take 8)).take 8
        let s' := newNonce s
        if q.pkt.host = 12 || (pk = 0 && r.st != .established) || proof != slice b 8 8 then
          refuse 0x0E43 (proofFailed i 0x0E01 pk q.pkt.host.val s')
        else if r.st != .established || r.gen != wordAt b 4 then refuse 0x0E44 s'
        else queueUpdate (.invalidate i pk) q s')
    with inner := fun _ _ => [14] }

/-- The blob checks of R458 in order: a status, or the plaintext. -/
def slotBlob (k : Fin 64) (b : List Byte) (s : State) : Half ⊕ List Byte :=
  let i : Fin 32 := Fin.ofNat 32 (byteAt b 1).toNat
  let r := s.ks.roots[i]
  if byteAt b 0 != 0xB5 || 32 ≤ (byteAt b 1).toNat || r.st != .established || r.role != 0 || !zeroAt [2, 3] b then .inl 0x0E41
  else if r.gen != wordAt b 4 then .inl stOrphaned
  else match openBlob b s with
    | none => .inl 0x0E41
    | some p =>
      let attr := numAt p 22 2
      if byteAt p 16 != 1 || (byteAt p 24).toNat ≠ k.val || 32 ≤ attr then .inl 0x0E41
      else if attr.testBit 2 && (attr.testBit 0 || attr.testBit 1 || attr.testBit 3) then .inl 0x0E46
      else if numAt p 28 4 ≤ s.ks.slots[k].version.toNat then .inl 0x0E42
      else .inr p

/-- KEY_LOAD (R458, R459). -/
def opKeyLoad : OpSpec :=
  { chipOp 68 [14] (fun b => zeroAt [1, 2, 3] b) (fun q s =>
      let b := q.pkt.payload
      if 63 < (byteAt b 0).toNat then refuse 0x0E40 s
      else
        let k : Fin 64 := Fin.ofNat 64 (byteAt b 0).toNat
        let blob := b.drop 4
        match slotBlob k blob s with
        | .inl c =>
          let s := if c == 0x0E42 then stickSlot k 0x20 s
            else if c == 0x0E41 || c == 0x0E46 then stickSlot k 0x10 s else s
          refuse c (note 0x0E04 warning 13 k.val c.toNat (wordAt blob 4).toNat (byteAt blob 1).toNat s)
        | .inr p =>
          let attr := halfAt p 22
          queueUpdate (.load k (byteAt blob 1).toNat attr (wordAt p 28) (wordAt blob 4) (p.take 16)
            (if attr.getLsbD 4 then blob else [])) q s)
    with inner := fun _ _ => [14] }

/-- KEY_CLEAR (R460). -/
def opKeyClear : OpSpec :=
  { chipOp 12 [14] (fun b => zeroAt [1, 2, 3] b) (fun q s =>
      let b := q.pkt.payload
      if 63 < (byteAt b 0).toNat then refuse 0x0E40 s
      else
        let k : Fin 64 := Fin.ofNat 64 (byteAt b 0).toNat
        let x := s.ks.slots[k]
        if x.st = .empty then done .ok s
        else
          let i : Fin 32 := Fin.ofNat 32 x.parent
          let proof := (Crypto.cmac (rootValue i s) ([0x52] ++ be 1 k.val ++ be 4 x.version.toNat)).take 8
          if s.ks.roots[i].st != .established || proof != slice b 4 8 then
            refuse 0x0E43 (proofFailed i 0x0E03 0 q.pkt.host.val s)
          else queueUpdate (.clear k) q s)
    with inner := fun _ _ => [14] }

/-- GEN_DIGEST (Table 15-9). -/
def genDigest (s : State) : BitVec 32 :=
  crc32 (s.ks.roots.toList.map fun r => be 4 (if r.st = .unset then 0 else r.gen.toNat)).flatten

/-- Bytes 0 to 47 of the attestation report (Table 15-9). -/
def attestReport (challenge : List Byte) (s : State) : List Byte :=
  challenge ++ be 2 Config.partCode.toNat ++ [Config.stepping, Config.romVersion] ++ be 8 Config.serial.toNat
    ++ be 1 (if s.plan.noPlan then 255 else if s.plan.copyB then 1 else 0) ++ be 3 0 ++ be 4 s.plan.version.toNat
    ++ be 4 (genDigest s).toNat ++ be 6 s.clk.life.toNat ++ be 2 0

/-- KEY_ATTEST (R470). -/
def opKeyAttest : OpSpec :=
  { chipOp 20 [14] (fun b => zeroAt [1, 2, 3] b) (fun q s =>
      let b := q.pkt.payload
      if 63 < (byteAt b 0).toNat then refuse 0x0E40 s
      else
        let k : Fin 64 := Fin.ofNat 64 (byteAt b 0).toNat
        let x := s.ks.slots[k]
        if x.st = .orphaned then refuse stOrphaned (opAborted k 6 q.pkt.host.val s)
        else if x.st != .loaded then refuse 0x0E46 s
        else if !x.attr.getLsbD 2 then refuse 0x0E46 (stickSlot k 0x01 s)
        else
          let r := attestReport (slice b 4 16) s
          done (.ok (r ++ Crypto.cmac x.key ([0x40] ++ r)))
            (note 0x0E0A info 0 0 k.val q.pkt.host.val (genDigest s).toNat s))
    with inner := fun _ _ => [14] }

/-! ### Reload and replay states (R68, R461) -/

/-- D14 turns off: every slot loses its scion (R461), the cache and the verdicts go (R434, R445). -/
def keysOff (s : State) : State :=
  let s := modKs (fun x => { x with slots := x.slots.map fun k => { k with key := [] }, reload := false }) s
  modAcc (fun x => { x with cache := [], verdicts := [] }) s

/-- D14 has come on from off: the reload begins (R461). -/
def keysOn (s : State) : State := modKs (fun x => { x with reload := true }) (wakeInternal 15 s)

/-- SLOT_RELOAD_DONE (R461): PERSIST slots from the store, the others EMPTY. -/
def slotReloadDone (s : State) : State :=
  if s.ks.reload && domOn 14 s && domOn 15 s then
    modKs (fun x =>
      { x with reload := false
               slots := x.slots.map fun k =>
                 if k.st = .loaded then
                   if persists k then { k with key := ((openBlob k.blob s).getD []).take 16 }
                   else k.emptied
                 else k }) (touch 15 s)
  else s

/-- Bytes of a slot's replay entry and where it goes (R468). -/
def replayEntry (k : Fin 64) (s : State) : Nat × List Byte :=
  slotEntry (replayArea k) 1 k.val 4 (counterBody 1 k.val s.ks.slots[k].seqS) (nvView s)

/-- REPLAY_STATE_WRITE (R68): at most once per ms per slot. -/
def replayStateWrite (k : Fin 64) (s : State) : State :=
  let x := s.ks.slots[k]
  if x.dirty && x.wroteAt.all (fun t => decide (t + Config.ms ≤ now s)) then
    let e := replayEntry k s
    nvQueue 4 e.1 e.2 none (modSlot k (fun x => { x with dirty := false, wroteAt := some (now s) }) s)
  else s

/-- HOST_SEQ passes the replay check of a slot (R67). -/
def replayOk (k : KeySlot) (v : Word) : Bool :=
  v != 0 && (decide (k.seqS.toNat < v.toNat) ||
    (decide (k.seqS.toNat < v.toNat + 64) && v != k.seqS && !k.accepted.getLsbD (k.seqS.toNat - v.toNat)))

/-- HOST_SEQ is recorded as accepted (R67, R68). -/
def acceptSeq (k : Fin 64) (v : Word) (s : State) : State :=
  modSlot k (fun x =>
    if x.seqS.toNat < v.toNat then
      let d := v.toNat - x.seqS.toNat
      { x with seqS := v, accepted := (if 64 ≤ d then 0 else x.accepted <<< d) ||| 1, dirty := true }
    else { x with accepted := x.accepted ||| BitVec.ofNat 64 (2 ^ (x.seqS.toNat - v.toNat)), dirty := true }) s

end Sys2Proof.Machine
end

