-- ==== Sys2Proof/Machine/Words.lean ====
section
/-! DEFINITION. Every status word of the block (R83, R84): its units, where it lies, what it reads, and what clearing it
does. One definition per family, in the layouts of the families' status-word tables. -/

namespace Sys2Proof.Machine

/-- A word put together from its fields. -/
def word (fs : List Word) : Word := fs.foldl (· ||| ·) 0

/-- A junction temperature field: degrees C plus 64, in 8 bits. -/
def tjField (t : Int) : Nat := (max 0 (min 255 (t + 64))).toNat

/-- A sticky field at bit 0. -/
def low {n : Nat} (b : BitVec n) : Word := b.setWidth 32

/-- Sticky bits a mask clears. -/
def cleared {n : Nat} (b : BitVec n) (mask : Word) : BitVec n := b &&& ~~~(mask.setWidth n)

/-! ### Which words there are (R83) -/

/-- Number of units of word `id`; 0 for an undefined word. -/
def wordUnits (id : Nat) : Nat :=
  match id / 256, id % 256 with
  | 0x00, w => if w = 9 then 14 else if w ≤ 10 then 1 else 0
  | 0x01, w => if w = 0 then 16 else if w = 1 then 1 else 0
  | 0x02, w => if w ≤ 1 then 96 else 0
  | 0x03, w => if w ≤ 3 then 96 else 0
  | 0x04, w => if w ≤ 3 then 7 else if w = 4 then 120 else if w = 5 then 1 else 0
  | 0x05, w => if w ≤ 4 then 8 else if w = 5 then 16 else 0
  | 0x06, w => if w = 0 || w = 2 || w = 4 then 16 else if w = 1 || w = 3 then 4 else 0
  | 0x07, w => if w ≤ 1 then 64 else if w ≤ 4 then 12 else if w = 5 then 1 else 0
  | 0x08, w => if w = 0 then 1 else if w ≤ 2 then 16 else 0
  | 0x09, w => if w = 0 then 128 else if w = 1 then 1 else 0
  | 0x0A, w => if w ≤ 1 then 2 else if w ≤ 3 then 6 else if w ≤ 5 then 8 else 0
  | 0x0B, w => if w ≤ 1 then 1 else if w = 2 then 2 else 0
  | 0x0C, w => if w ≤ 1 then 16 else if w ≤ 3 then 6 else 0
  | 0x0D, w => if w ≤ 1 then 6 else if w ≤ 4 then 1 else 0
  | 0x0E, w => if w ≤ 2 then 64 else if w ≤ 4 then 32 else if w ≤ 6 then 1 else 0
  | 0x0F, w => if w = 1 then 160 else if w = 4 then 16 else if w ≤ 5 then 1 else 0
  | 0x10, w => if w = 0 then 25 else if w ≤ 2 then 1 else 0
  | 0x11, w => if w ≤ 1 then 1 else if w = 2 then 4 else 0
  | 0x12, w => if w = 0 then 1 else 0
  | _, _ => 0

/-- The unit whose queue reads the word of unit index `i`. -/
def wordUnit (id i : Nat) : UnitRef :=
  match id / 256, id % 256 with
  | 0x02, _ | 0x03, _ => .out (Fin.ofNat 96 i)
  | 0x04, w => if w ≤ 3 then .region (Fin.ofNat 7 i) else if w = 4 then idxUnit (Fin.ofNat 120 i) else .chip
  | 0x05, w => if w = 5 then .leg (Fin.ofNat 16 i) else .leg (Fin.ofNat 16 (2 * i))
  | 0x06, w => if w = 1 || w = 3 then .vh (Fin.ofNat 4 i) else .vl (Fin.ofNat 16 i)
  | 0x07, w => if w ≤ 1 then .sw (Fin.ofNat 64 i) else if w ≤ 4 then .sw (Fin.ofNat 64 (52 + i)) else .chip
  | 0x08, w => if w = 1 then .fi (Fin.ofNat 16 i) else if w = 2 then .fq (Fin.ofNat 16 i) else .chip
  | 0x0A, w => if w ≤ 1 then .eth (Fin.ofNat 2 i) else if w ≤ 3 then .can (Fin.ofNat 6 i) else .lin (Fin.ofNat 8 i)
  | 0x0B, w => if w = 2 then .eth (Fin.ofNat 2 i) else .chip
  | 0x0D, w => if w ≤ 1 then .lf (Fin.ofNat 6 i) else if w = 4 then .tp else .chip
  | 0x0E, w => if w ≤ 2 then .slot (Fin.ofNat 64 i) else .chip
  | 0x11, _ => .trl
  | _, _ => .chip

/-- The domain a word lies in, where it is not the always-on section (R130, R258, R423, R472, R505, R445). -/
def wordDomain (id i : Nat) : Option (Fin 16) :=
  match wordUnit id i with
  | .chip =>
    match id / 256, id % 256 with
    | 0x08, _ => some 12
    | 0x0D, w => if w = 2 then some 13 else none
    | 0x0E, _ => some 14
    | 0x0F, _ => some 15
    | _, _ => none
  | u => unitDomain u

/-! ### Families 00h and 01h -/


/-- The words of family 00h. REGISTERED and PORT of word 0009h are what the host ID is, also right after reset (log entry 6). -/
def word00 (w i : Nat) (s : State) : Word :=
  if w = 0 then
    word [bit (ready s) 31, bit (s.hosts.toList.any (·.chain.open_)) 30, low s.cmd.sticky]
  else if w ≤ 8 then (s.ev.pending >>> (32 * (w - 1))).setWidth 32
  else if w = 9 then
    let h := s.hosts[Fin.ofNat 14 i]
    let reg := decide (i < 2) || decide (11 ≤ i) || (decide (i = 10) && s.boot.member != 0) || h.reg.isSome
    let port := if i < 2 then 2 else if i < 10 then h.reg.elim 0 (·.port.val) else 3
    word [bit reg 31, bit (h.reg.elim false (·.bound)) 30, at_ 28 2 port, bit h.lapsed 27, bit h.silent 26,
      at_ 0 12 (h.reg.elim 0 (·.vlan.toNat))]
  else word [at_ 16 11 s.cmd.highWater, at_ 0 11 (schedLoad s)]

/-- CLEAR_STATUS on family 00h. Any mask bit over HIGH_WATER resets the whole field, which has no meaning in part (log entry 42). -/
def clear00 (w i : Nat) (m : Word) (s : State) : State :=
  if w = 0 then modCmd (fun c => { c with sticky := cleared c.sticky m }) s
  else if w ≤ 8 then
    { s with ev := { s.ev with pending := s.ev.pending &&& ~~~(m.setWidth 256 <<< (32 * (w - 1))) } }
  else if w = 9 then
    modHost (Fin.ofNat 14 i) (fun h => { h with lapsed := h.lapsed && !m.getLsbD 27, silent := h.silent && !m.getLsbD 26 }) s
  else if fld m 16 11 ≠ 0 then modCmd (fun c => { c with highWater := schedLoad s }) s
  else s

/-- STATE of word 0100h (Table 4-15). -/
def DomState.code : DomState → Nat
  | .off => 0
  | .ret => 1
  | .on => 2
  | _ => 3

def word01 (w i : Nat) (s : State) : Word :=
  if w = 0 then
    let d := s.dom.dom[Fin.ofNat 16 i]
    word [at_ 30 2 d.st.code, bit d.woa 29, bit (d.intHeld && d.st == .on) 28, at_ 24 4 d.lastRefusal.toNat, low d.sticky]
  else
    word [bit s.dom.mainReg 31, bit s.dom.root 30, bit s.dom.lpForced 29, at_ 16 13 (sat 13 s.dom.lpLoad), low s.dom.sticky]

def clear01 (w i : Nat) (m : Word) (s : State) : State :=
  if w = 0 then
    modDom (Fin.ofNat 16 i) (fun d => { d with lastRefusal := d.lastRefusal &&& ~~~(m.extractLsb' 24 4)
                                               sticky := cleared d.sticky m }) s
  else { s with dom := { s.dom with sticky := cleared s.dom.sticky m } }

/-! ### Families 02h and 03h -/

/-- STATE of Table 5-2. -/
def CellState.code : CellState → Nat
  | .off => 0
  | .waitToken => 1
  | .rising => 2
  | .on => 3
  | .falling => 4
  | .demag => 5

def word02 (w i : Nat) (s : State) : Word :=
  let n : Fin 96 := Fin.ofNat 96 i
  let c := s.outs[n]
  if w = 0 then
    word [at_ 29 3 c.st.code, at_ 27 2 c.mode.toNat, bit c.pwm.onPhase 26, bit (prunedAt (outIdx (primary n s)) s) 25,
      bit c.uvOff 24, bit (s.outs[primary n s].prot != .none) 23, bit c.partner.isSome 22,
      bit (c.partner.isSome && !isSecondary n s) 21, bit c.mirPend 20, at_ 16 4 c.lastHost.val, low c.sticky2]
  else
    word [at_ 26 6 (fld c.cfg 26 6), at_ 24 2 (outClass n), at_ 16 8 (c.partner.elim 0xFF (·.val))]

def clear02 (w i : Nat) (m : Word) (s : State) : State :=
  if w = 0 then modOut (Fin.ofNat 96 i) (fun c => { c with sticky2 := cleared c.sticky2 m }) s else s

def word03 (w i : Nat) (s : State) : Word :=
  let n : Fin 96 := Fin.ofNat 96 i
  let c := s.outs[n]
  let p := s.outs[primary n s]
  match w with
  | 0 =>
    word [at_ 30 2 (protCode p), at_ 26 4 p.retry, bit c.openOn 25, bit c.openOff 24, bit c.shortSup 23, bit c.leakSup 22,
      bit (wireWarn c) 21, bit c.env.isSome 20, bit (decide (150 ≤ c.tj)) 19, low c.sticky3]
  | 1 => c.cfg1
  | 2 => c.cfg2
  | _ => word [at_ 24 8 (tjField c.tj), at_ 20 4 c.learn, at_ 0 16 (wireHeat p)]

def clear03 (w i : Nat) (m : Word) (s : State) : State :=
  if w = 0 then modOut (Fin.ofNat 96 i) (fun c => { c with sticky3 := cleared c.sticky3 m }) s else s

/-! ### Family 04h -/

def word04 (w i : Nat) (s : State) : Word :=
  let r : Fin 7 := Fin.ofNat 7 i
  let x := s.regs[r]
  match w with
  | 0 =>
    word [at_ 30 2 (supplyStage r s), bit x.uv 29, at_ 27 2 (thermStage r s), at_ 25 2 x.budget,
      bit (decide (8 ≤ x.invalid.length)) 24, at_ 20 4 (tokensUsed r s), at_ 8 8 (waitingUnits r s).length, low x.sticky]
  | 1 => x.cfg1
  | 2 => x.cfg2
  | 3 =>
    word [at_ 22 10 (sat 10 (x.vs / 100)), at_ 14 8 (if x.hotValid then tjField (x.hot / 240) else 0),
      at_ 7 7 (sat 7 (powerAvg x / 125)), at_ 0 7 (sat 7 (currentAvg x / 1000))]
  | 4 =>
    let i : Fin 120 := Fin.ofNat 120 i
    let p := s.prune[i]
    word [at_ 30 2 p.cls.toNat, bit p.pruned 29, at_ 27 2 p.cause.toNat, bit (s.regs[idxRegion i].restore.contains i) 26,
      bit p.seen 0]
  | _ => word [at_ 24 8 s.modb.pmax, at_ 16 8 (sat 8 (s.modb.pavg / 250)), at_ 14 2 s.modb.stage]

def clear04 (w i : Nat) (m : Word) (s : State) : State :=
  if w = 0 then modReg (Fin.ofNat 7 i) (fun x => { x with sticky := cleared x.sticky m }) s
  else if w = 4 then modPrune (Fin.ofNat 120 i) (fun p => { p with seen := p.seen && !m.getLsbD 0 }) s
  else s

/-! ### Families 05h and 06h -/

/-- STATE of Table 8-3. -/
def BrState.code : BrState → Nat
  | .coast => 0
  | .brake => 1
  | .waitToken => 2
  | .start => 3
  | .run => 4
  | .stopping => 5
  | .reversing => 6
  | .tripped => 7

def word05 (w i : Nat) (s : State) : Word :=
  let b := s.brs[Fin.ofNat 8 i]
  match w with
  | 0 =>
    word [at_ 29 3 b.st.code, at_ 26 3 b.cmd.mode, bit b.posValid 25, bit b.profile.isSome 24, bit b.learning 23,
      bit b.uvOff 22, bit b.clear 21, bit (pinchArmed b) 20, at_ 16 4 b.lastHost.val, low b.sticky]
  | 1 => b.cfg1
  | 2 => b.cfg2
  | 3 => b.cfg3
  | 4 => BitVec.ofNat 32 (twos 32 b.pos)
  | _ =>
    let n : Fin 16 := Fin.ofNat 16 i
    let l := s.legs[n]
    let ms := legModes s.brs[legBridge n]
    word [at_ 30 2 (if n.val % 2 = 0 then ms.1 else ms.2), at_ 22 8 (tjField l.tj), bit (decide (150 ≤ l.tj)) 21,
      low l.sticky]

def clear05 (w i : Nat) (m : Word) (s : State) : State :=
  if w = 0 then modBr (Fin.ofNat 8 i) (fun b => { b with sticky := cleared b.sticky m }) s
  else if w = 5 then modLeg (Fin.ofNat 16 i) (fun l => { l with sticky := cleared l.sticky m }) s
  else s

/-- STATE of Table 9-2. -/
def VlState.code : VlState → Nat
  | .off => 0
  | .waitToken => 1
  | .hdrRise => 2
  | .on => 3
  | .clamp => 4
  | .window => 5
  | .tripped => 6

/-- HSTATE of Table 9-10. -/
def HdState.code : HdState → Nat
  | .off => 0
  | .rising => 1
  | .on => 2
  | .falling => 3

/-- PROT as in word 0300h. -/
def protWord (p : Prot) (clear : Bool) : Nat :=
  match p with
  | .none => 0
  | .offPending => 1
  | .latched => if clear then 3 else 2

/-- Bit i for valve 4g + i. -/
def groupMask (g : Fin 4) (f : VlSt → Bool) (s : State) : Nat :=
  ((List.range 4).map fun i => if f s.vls[Fin.ofNat 16 (4 * g.val + i)] then 2 ^ i else 0).sum

def word06 (w i : Nat) (s : State) : Word :=
  let n : Fin 16 := Fin.ofNat 16 i
  let g : Fin 4 := Fin.ofNat 4 i
  let v := s.vls[n]
  let h := s.vhs[g]
  match w with
  | 0 =>
    word [at_ 29 3 v.st.code, bit v.mode 28, bit (prunedAt (vlIdx n) s) 27, bit v.uvOff 26, bit (hdrInhibit (vlGroup n) s) 25,
      bit v.openCoil 24, bit v.drainHigh 23, bit (decide (150 ≤ v.tj)) 22, at_ 16 4 v.lastHost.val, low v.sticky]
  | 1 =>
    word [at_ 30 2 h.st.code, at_ 28 2 (protWord h.prot h.clear), at_ 24 4 h.retry,
      at_ 20 4 (groupMask g (fun v => v.st == .hdrRise || v.st == .on) s),
      at_ 16 4 (groupMask g (fun v => v.st == .clamp || v.st == .window) s), at_ 8 8 (tjField h.tj),
      bit (decide (150 ≤ h.tj)) 7, low h.sticky]
  | 2 =>
    word [at_ 9 23 (fld v.cfg 9 23), bit v.partner.isSome 8, at_ 4 4 (v.partner.elim 0 (·.val)), bit v.guard_ 3]
  | 3 => h.cfg
  | _ =>
    word [at_ 30 2 v.result.toNat, at_ 27 3 v.cause.toNat, at_ 14 13 (sat 13 (v.closeTime / 10)),
      at_ 6 8 (sat 8 (v.clampTime / 100))]

def clear06 (w i : Nat) (m : Word) (s : State) : State :=
  if w = 0 then modVl (Fin.ofNat 16 i) (fun v => { v with sticky := cleared v.sticky m }) s
  else if w = 1 then modVh (Fin.ofNat 4 i) (fun h => { h with sticky := cleared h.sticky m }) s
  else s

/-! ### Families 07h and 08h -/

/-- CYC_COUNT: inputs armed. -/
def cycCount (s : State) : Nat := (s.io.sw.toList.filter fun x => swArmed x.cfg).length

def word07 (w i : Nat) (s : State) : Word :=
  let x := s.io.sw[Fin.ofNat 64 i]
  let a := s.io.an[Fin.ofNat 12 i]
  match w with
  | 0 =>
    word [bit x.closed 31, bit x.raw 30, bit x.valid 29, at_ 27 2 x.source.toNat, bit x.hold 26, low x.sticky]
  | 1 => x.cfg
  | 2 => a.cfg2
  | 3 => a.cfg3
  | 4 => word [at_ 20 12 a.code, bit a.below 19, bit a.above 18, bit (a.valid && swAnalog s.io.sw[anSwitch (Fin.ofNat 12 i)].cfg) 17, low a.sticky]
  | _ =>
    word [at_ 23 9 (fld s.io.cyc 23 9), at_ 16 7 (cycCount s), bit (cyclicRuns s && decide (0 < cycCount s)) 0]

def clear07 (w i : Nat) (m : Word) (s : State) : State :=
  if w = 0 then modSw (Fin.ofNat 64 i) (fun x => { x with sticky := cleared x.sticky m }) s
  else if w = 4 then modAn (Fin.ofNat 12 i) (fun x => { x with sticky := cleared x.sticky m }) s
  else s

def word08 (w i : Nat) (s : State) : Word :=
  let f := s.io.fi[Fin.ofNat 16 i]
  let q := s.io.fq[Fin.ofNat 16 i]
  match w with
  | 0 =>
    word [at_ 30 2 (supplyCode s.io.fld.supply), bit (fieldFault s) 29, at_ 20 9 (sat 9 (s.io.fld.mv / 100)),
      low s.io.fld.sticky]
  | 1 =>
    word [bit f.value 31, bit f.valid 30, bit (fiFrozen s) 29, at_ 25 4 (fld f.cfg 25 4), low f.sticky]
  | _ =>
    word [bit q.mode 31, bit (driven q s.io.fld.supply) 30, bit q.wait 29, at_ 27 2 (fld q.cfg 27 2),
      at_ 16 4 q.lastHost.val]

def clear08 (w i : Nat) (m : Word) (s : State) : State :=
  if w = 0 then modFld (fun x => { x with sticky := cleared x.sticky m }) s
  else if w = 1 then modFi (Fin.ofNat 16 i) (fun x => { x with sticky := cleared x.sticky m }) s
  else s

/-! ### Families 09h to 0Ch -/

def word09 (w i : Nat) (s : State) : Word :=
  if w = 0 then
    let e := s.rfx.entries[Fin.ofNat 128 i]
    word [bit (entryEnabled e.image) 31, bit e.timerAt.isSome 30, bit e.waiting.isSome 29,
      bit (decide (rfxClock s < e.holdUntil)) 28, at_ 8 16 e.lastStatus.toNat, low e.sticky]
  else
    word [bit (reflexRuns s) 31, at_ 23 8 (s.rfx.entries.toList.filter fun e => entryEnabled e.image).length,
      at_ 16 7 s.rfx.occs.length, bit s.rfx.overflow 0]

def clear09 (w i : Nat) (m : Word) (s : State) : State :=
  if w = 0 then modRfx (Fin.ofNat 128 i) (fun e => { e with sticky := cleared e.sticky m }) s
  else { s with rfx := { s.rfx with overflow := s.rfx.overflow && !m.getLsbD 0 } }

/-- LINK of word 0A00h: a sleeping net reads 11b. -/
def linkCode (p : Fin 2) (s : State) : Nat :=
  if s.net.nets[ethNet p].st = .asleep then 3 else s.net.eth[p].link.toNat

/-- LIN_STATE of word 0A04h. -/
def linState (c : Fin 8) (s : State) : Nat :=
  if s.net.nets[linNet c].st = .asleep then 2 else if linRuns c s then 1 else 0

def word0A (w i : Nat) (s : State) : Word :=
  let p : Fin 2 := Fin.ofNat 2 i
  let c : Fin 6 := Fin.ofNat 6 i
  let l : Fin 8 := Fin.ofNat 8 i
  match w with
  | 0 => word [at_ 30 2 (linkCode p s), at_ 27 3 s.net.eth[p].quality.toNat, low s.net.eth[p].sticky]
  | 1 => s.net.eth[p].cfg
  | 2 =>
    let x := s.net.cans[c]
    word [at_ 30 2 (canState c s), at_ 22 8 (sat 8 x.tec), at_ 14 8 (sat 8 x.rec_), at_ 10 4 x.bufs.length, low x.sticky]
  | 3 => s.net.cans[c].cfg
  | 4 => word [at_ 30 2 (linState l s), at_ 24 6 s.net.lins[l].slot, low s.net.lins[l].sticky]
  | _ => s.net.lins[l].cfg

def clear0A (w i : Nat) (m : Word) (s : State) : State :=
  match w with
  | 0 => modEth (Fin.ofNat 2 i) (fun x => { x with sticky := cleared x.sticky m }) s
  | 2 => modCan (Fin.ofNat 6 i) (fun x => { x with sticky := cleared x.sticky m }) s
  | 4 => modLin (Fin.ofNat 8 i) (fun x => { x with sticky := cleared x.sticky m }) s
  | _ => s

/-- SOURCE of word 0B00h: no port is upstream, so the zone is a time source (R368). -/
def timeSource (s : State) : Bool := (upstreamPort s.zone.cfg).isNone

def word0B (w i : Nat) (s : State) : Word :=
  let p : Fin 2 := Fin.ofNat 2 i
  match w with
  | 0 => word [at_ 30 2 s.zone.state.code, bit (s.clk.wall != 0) 29, bit (timeSource s) 28, low s.zone.sticky]
  | 1 => s.zone.cfg
  | _ =>
    word [bit s.net.eth[p].asCap 31, at_ 29 2 (portRole p s.zone.cfg), at_ 16 13 (sat 13 s.net.eth[p].delay),
      low s.net.eth[p].stickyT]

def clear0B (w i : Nat) (m : Word) (s : State) : State :=
  match w with
  | 0 => modZone (fun x => { x with sticky := cleared x.sticky m }) s
  | 2 => modEth (Fin.ofNat 2 i) (fun x => { x with stickyT := cleared x.stickyT m }) s
  | _ => s

def word0C (w i : Nat) (s : State) : Word :=
  let n : Fin 16 := Fin.ofNat 16 i
  let x := s.net.nets[n]
  match w with
  | 0 =>
    word [at_ 29 3 x.st.code, at_ 16 13 x.needHosts.toNat, bit (txNeed n s) 15, bit (decide (now s < x.holdUntil)) 14,
      bit (x.kaAt.any fun t => decide (now s < t + idleTime x)) 13, at_ 9 4 x.lastCause, low x.sticky]
  | 1 => x.cfg1
  | 2 => x.cfg2
  | _ => x.cfg3

def clear0C (w i : Nat) (m : Word) (s : State) : State :=
  if w = 0 then modNets (Fin.ofNat 16 i) (fun x => { x with sticky := cleared x.sticky m }) s else s

/-! ### Families 0Dh and 0Eh -/

/-- TP_STATE of word 0D04h by the times of Table 14-6: powering while the field is on without a frame. -/
def tpState (s : State) : Nat :=
  match s.acc.tp with
  | none => 0
  | some x =>
    let t := now s - x.startAt
    if 5 * Config.ms ≤ t && t < 29 * Config.ms then 2 else if 30 * Config.ms ≤ t then 3 else 1

/-- EXCH of word 0D02h. -/
def exchCode (s : State) : Nat :=
  match s.acc.exch with
  | none => 0
  | some e => if e.phase == 1 && decide (e.frameAt + tChallenge + tOpen ≤ now s) then 2 else e.phase.toNat

def word0D (w i : Nat) (s : State) : Word :=
  let n : Fin 6 := Fin.ofNat 6 i
  let x := s.acc.lf[n]
  match w with
  | 0 => word [at_ 30 2 (lfState n s), at_ 16 8 (sat 8 x.peak), low x.sticky]
  | 1 => x.cfg
  | 2 =>
    word [at_ 30 2 (exchCode s), bit (pollEn s && !s.acc.stopped) 29, bit s.acc.stopped 28,
      at_ 22 6 (min 63 (s.acc.park / dayNs)), at_ 20 2 (s.acc.exch.elim 0 (·.attempt)), at_ 15 5 s.acc.cache.length,
      low s.acc.sticky]
  | 3 => s.acc.cfg
  | _ => word [at_ 30 2 (tpState s), at_ 28 2 s.acc.verdict.toNat, at_ 8 20 s.acc.tpSerial.toNat, low s.acc.stickyTp]

def clear0D (w i : Nat) (m : Word) (s : State) : State :=
  match w with
  | 0 => modLf (Fin.ofNat 6 i) (fun x => { x with sticky := cleared x.sticky m }) s
  | 2 => modAcc (fun x => { x with sticky := cleared x.sticky m }) s
  | 4 => modAcc (fun x => { x with stickyTp := cleared x.stickyTp m }) s
  | _ => s

def word0E (w i : Nat) (s : State) : Word :=
  let k := s.ks.slots[Fin.ofNat 64 i]
  let r := s.ks.roots[Fin.ofNat 32 i]
  match w with
  | 0 => word [at_ 30 2 k.st.code, at_ 25 5 k.parent, at_ 20 5 k.attr.toNat, low k.sticky]
  | 1 => k.version
  | 2 => k.seqS
  | 3 => word [at_ 30 2 r.st.code, at_ 28 2 r.role.toNat, low r.sticky]
  | 4 => r.gen
  | 5 =>
    word [bit s.ks.copyB 31, bit (!s.ks.updates.isEmpty) 30, bit s.ks.lost 29,
      at_ 16 7 (s.ks.slots.toList.filter fun k => k.st = .loaded).length, low s.ks.sticky]
  | _ => s.ks.nonce

def clear0E (w i : Nat) (m : Word) (s : State) : State :=
  match w with
  | 0 => modSlot (Fin.ofNat 64 i) (fun k => { k with sticky := cleared k.sticky m }) s
  | 3 => modRoot (Fin.ofNat 32 i) (fun r => { r with sticky := cleared r.sticky m }) s
  | 5 => modKs (fun k => { k with sticky := cleared k.sticky m }) s
  | _ => s

/-! ### Families 0Fh to 12h -/

def word0F (w i : Nat) (s : State) : Word :=
  match w with
  | 0 =>
    word [at_ 20 12 (usedEntries s.alm.staging), bit s.alm.flush.isSome 19, bit (s.alm.flush.elim false (·.powerFail)) 18,
      low s.alm.sticky]
  | 1 =>
    let l := ringSlots i s.nv
    word [at_ 21 11 l.length, at_ 19 2 (if l.isEmpty then 0 else l.foldl (fun v e => min v (sevOf e.2)) 3),
      bit s.alm.rings[Fin.ofNat 160 i].refused 0]
  | 2 => word [at_ 11 21 s.alm.fill, bit (decide (vaultCap ≤ s.alm.fill)) 10, bit s.alm.cleared 0]
  | 3 => s.alm.vnonce
  | 4 =>
    let x := s.alm.watches[Fin.ofNat 16 i]
    let n := (watchSlots i (nvUpTo 3 s)).length
    word [at_ 21 11 n, bit x.enable 20, bit x.stopFull 19, bit (x.stopFull && decide (1024 ≤ n)) 18, low x.sticky]
  | _ => s.alm.cfg

def clear0F (w i : Nat) (m : Word) (s : State) : State :=
  match w with
  | 0 => { s with alm := { s.alm with sticky := cleared s.alm.sticky m } }
  | 1 =>
    let g : Fin 160 := Fin.ofNat 160 i
    let r := s.alm.rings[g]
    { s with alm := { s.alm with rings := s.alm.rings.set g { r with refused := r.refused && !m.getLsbD 0 } } }
  | 2 => { s with alm := { s.alm with cleared := s.alm.cleared && !m.getLsbD 0 } }
  | 4 =>
    let k : Fin 16 := Fin.ofNat 16 i
    let x := s.alm.watches[k]
    { s with alm := { s.alm with watches := s.alm.watches.set k { x with sticky := cleared x.sticky m } } }
  | _ => s

/-- ms left of a continuous injection. -/
def injRemaining (j : Inject) (s : State) : Nat := if j.cont then (j.endAt - now s) / Config.ms else 0

/-- FATAL_COUNT: fatal faults of the last 10 s of life ticks; 3 stays in fatal hold (Table 17-5). -/
def fatalCount (s : State) : Nat :=
  if s.flt.fatalCount = 3 then 3
  else (s.flt.fatals.filter fun t => decide (s.clk.life.toNat < t.toNat + 2500000)).length

def word10 (w i : Nat) (s : State) : Word :=
  match w with
  | 0 =>
    let b : Fin 25 := Fin.ofNat 25 i
    let x := s.flt.blocks[b]
    word [at_ 30 2 x.firstClass.toNat, at_ 24 6 x.firstChecker.toNat, bit (!x.degraded.isEmpty) 23,
      bit (s.flt.inject.any fun j => armed j && decide (j.block = b)) 22, at_ 16 6 (x.degraded.head?.elim 0 (·.toNat)),
      at_ 8 8 x.corrected.toNat, low x.sticky]
  | 1 =>
    word [at_ 30 2 (fatalCount s), at_ 24 6 s.flt.lastFatal.toNat, at_ 16 8 s.flt.lastBlock.toNat, low s.flt.sticky]
  | _ =>
    match s.flt.inject with
    | some j =>
      if armed j then
        word [bit true 31, at_ 25 6 j.checker.toNat, at_ 20 5 j.block.val, at_ 18 2 (if j.cont then 1 else 0),
          at_ 2 16 (injRemaining j s), low s.flt.injSticky]
      else low s.flt.injSticky
    | none => low s.flt.injSticky

/-- CLEAR_STATUS clears the first-fault fields only under a mask that covers [31:24] (R515). -/
def clear10 (w i : Nat) (m : Word) (s : State) : State :=
  match w with
  | 0 =>
    modBlk (Fin.ofNat 25 i) (fun x =>
      { x with firstClass := if fld m 24 8 = 255 then 0 else x.firstClass
               firstChecker := if fld m 24 8 = 255 then 0 else x.firstChecker
               corrected := x.corrected &&& ~~~(m.extractLsb' 8 8)
               sticky := cleared x.sticky m }) s
  | 1 => { s with flt := { s.flt with sticky := cleared s.flt.sticky m } }
  | _ => { s with flt := { s.flt with injSticky := cleared s.flt.injSticky m } }

/-- READY of a member (Table 18-3): its own, or as the lead knows it. -/
def memberReady (m : Fin 4) (s : State) : Bool :=
  if m = self s then ready s else s.trl.present.getLsbD m.val && Config.memberReady m.val (now s)

/-- Members reachable, the own one always (Table 18-3). -/
def presentMask (s : State) : Nat := (s.trl.present ||| BitVec.ofNat 4 (2 ^ (self s).val)).toNat

/-- The ring is closed: both sides are up and each reaches every other member (Table 18-3). -/
def ringClosed (s : State) : Bool :=
  s.trl.present != 0 && s.trl.sides[(0 : Fin 2)].st == 2 && s.trl.sides[(1 : Fin 2)].st == 2
    && (s.trl.sides[(0 : Fin 2)].reach &&& s.trl.sides[(1 : Fin 2)].reach).toNat ||| 2 ^ (self s).val == presentMask s

def word11 (w i : Nat) (s : State) : Word :=
  match w with
  | 0 =>
    let rm := ((List.range 4).map fun m => if memberReady (Fin.ofNat 4 m) s then 2 ^ m else 0).sum
    word [at_ 28 4 s.boot.member.toNat, bit (isLead s) 27, at_ 25 2 s.trl.sides[(0 : Fin 2)].st.toNat,
      at_ 23 2 s.trl.sides[(1 : Fin 2)].st.toNat, bit (ringClosed s) 22, at_ 18 4 (presentMask s), at_ 14 4 rm,
      bit s.trl.dup 13, bit s.trl.hold 12, low s.trl.sticky]
  | 1 => s.trl.cfg
  | _ =>
    let m : Fin 4 := Fin.ofNat 4 i
    let own := decide (m = self s)
    let here := own || s.trl.present.getLsbD i
    let b := s.trl.viaB.getLsbD i
    let rtt := if here && !own then s.trl.sides[(if b then 1 else 0 : Fin 2)].rtt else 0
    word [bit here 31, bit (memberReady m s) 30, at_ 28 2 (if own then 0 else s.trl.hops[m]), bit (here && !own && b) 27,
      at_ 1 15 (sat 15 (rtt / 10)), bit (s.trl.lost.getLsbD i) 0]

def clear11 (w i : Nat) (m : Word) (s : State) : State :=
  match w with
  | 0 => modTrl (fun x => { x with sticky := cleared x.sticky m }) s
  | 2 => modTrl (fun x => { x with lost := if m.getLsbD 0 then x.lost &&& ~~~(BitVec.ofNat 4 (2 ^ i)) else x.lost }) s
  | _ => s

def word12 (s : State) : Word :=
  let p := s.plan
  word [bit p.noPlan 31, bit p.copyB 30, at_ 28 2 p.stateA.toNat, at_ 26 2 p.stateB.toNat, bit p.targetB 25,
    at_ 12 4 s.boot.lastCause, at_ 4 4 p.sticky.toNat]

def clear12 (m : Word) (s : State) : State :=
  { s with plan := { s.plan with sticky := s.plan.sticky &&& ~~~(m.extractLsb' 4 4) } }

/-! ### Reading and clearing (R83, R84) -/

/-- Word `id` of unit index `i`. -/
def readWord (id i : Nat) (s : State) : Word :=
  let w := id % 256
  match id / 256 with
  | 0x00 => word00 w i s
  | 0x01 => word01 w i s
  | 0x02 => word02 w i s
  | 0x03 => word03 w i s
  | 0x04 => word04 w i s
  | 0x05 => word05 w i s
  | 0x06 => word06 w i s
  | 0x07 => word07 w i s
  | 0x08 => word08 w i s
  | 0x09 => word09 w i s
  | 0x0A => word0A w i s
  | 0x0B => word0B w i s
  | 0x0C => word0C w i s
  | 0x0D => word0D w i s
  | 0x0E => word0E w i s
  | 0x0F => word0F w i s
  | 0x10 => word10 w i s
  | 0x11 => word11 w i s
  | 0x12 => word12 s
  | _ => 0

/-- Clear the sticky bits of `m` in word `id` of unit index `i`; live, RW and reserved bits stay. -/
def clearWord (id i : Nat) (m : Word) (s : State) : State :=
  let w := id % 256
  match id / 256 with
  | 0x00 => clear00 w i m s
  | 0x01 => clear01 w i m s
  | 0x02 => clear02 w i m s
  | 0x03 => clear03 w i m s
  | 0x04 => clear04 w i m s
  | 0x05 => clear05 w i m s
  | 0x06 => clear06 w i m s
  | 0x07 => clear07 w i m s
  | 0x08 => clear08 w i m s
  | 0x09 => clear09 w i m s
  | 0x0A => clear0A w i m s
  | 0x0B => clear0B w i m s
  | 0x0C => clear0C w i m s
  | 0x0D => clear0D w i m s
  | 0x0E => clear0E w i m s
  | 0x0F => clear0F w i m s
  | 0x10 => clear10 w i m s
  | 0x11 => clear11 w i m s
  | 0x12 => clear12 m s
  | _ => s

end Sys2Proof.Machine
end

