-- ==== Sys2Proof/Machine/Almanac.lean ====
section
/-! DEFINITION. The almanac (chapter 16): from an occurrence to staging, flushes, start-up repair, the cursor window, and
the commands of family 0Fh. -/

namespace Sys2Proof.Machine

def modAlm (f : AlmSt → AlmSt) (s : State) : State := { s with alm := f s.alm }

/-! ### Rate limits (R483) -/

/-- The bucket of a code; BURST 32, REFILL 100 and full unless ALMANAC_RATE or a record has touched it. -/
def rateOf (code : Half) (s : State) : Rate :=
  (s.alm.rates.find? (·.code == code)).getD ⟨code, 32, 100, 32, 0, now s⟩

def setRate (r : Rate) (s : State) : State :=
  modAlm (fun a => { a with rates := a.rates.filter (·.code != r.code) ++ [r] }) s

/-- RATE_REFILL. -/
def rateRefill (code : Half) (s : State) : State :=
  let r := rateOf code s
  if r.refill ≠ 0 && decide (r.lastAt + r.refill * Config.ms ≤ now s) then
    setRate { r with tokens := min r.burst (r.tokens + 1), lastAt := now s } s
  else s

/-- Every bucket is full when D15 comes on from off. -/
def ratesFull (s : State) : State :=
  modAlm (fun a => { a with rates := a.rates.map fun r => { r with tokens := r.burst, lastAt := now s } }) s

/-! ### Watch points (R495 to R498) -/

def modWatch (w : Fin 16) (f : Watch → Watch) (s : State) : State :=
  modAlm (fun a => { a with watches := a.watches.set w (f a.watches[w]) }) s

/-- Sticky bits of word 0F04h; event 231 (R509). -/
def stickWatch (w : Fin 16) (m : BitVec 3) (s : State) : State :=
  raiseIf (fresh s.alm.watches[w].sticky m) 231 (modWatch w (fun x => { x with sticky := x.sticky ||| m }) s)

/-- HOLDOFF has passed since the last snapshot. -/
def heldOff (x : Watch) (t : Nat) : Bool := x.lastAt.any fun l => decide (t < l + x.holdoff * Config.ms)

/-- The watch point triggers on an occurrence (R496). -/
def watchTriggers (x : Watch) (r : Rec) (t : Nat) : Bool :=
  x.enable && (x.code &&& x.codeMask) == (r.code &&& x.codeMask)
    && (x.src &&& x.srcMask) == (BitVec.ofNat 16 r.source &&& x.srcMask)
    && decide (x.minSev.toNat ≤ r.sev.toNat) && !heldOff x t

/-- One listed word: whether its domain was off, and what it reads (R497). -/
def listedWord (e : Half × Half) (s : State) : Bool × Word :=
  if e.1 == 0xFFFF then (false, 0)
  else match wordDomain e.1.toNat e.2.toNat with
    | some d => if (domState d s).answer = .off then (true, 0) else (false, readWord e.1.toNat e.2.toNat s)
    | none => (false, readWord e.1.toNat e.2.toNat s)

/-- The snapshots a record's occurrence captures, in ascending watch point order (R496). -/
def captures (r : Rec) (s : State) : List Snap :=
  ((List.range 16).map (Fin.ofNat 16)).filterMap fun w =>
    let x := s.alm.watches[w]
    if watchTriggers x r (now s) then
      let ws := x.list.map (listedWord · s)
      some ⟨w, now s, ws.any (·.1), ws.map (·.2)⟩
    else none

/-- A snapshot goes to staging after its record (R496 to R498). -/
def takeSnap (r : Rec) (c : Snap) (s : State) : State :=
  let x := s.alm.watches[c.watch]
  let fits := (usedEntries s.alm.staging < 1984 || 2 ≤ r.sev.toNat) && usedEntries s.alm.staging + 8 ≤ 2048
  if heldOff x c.at_ || (x.stopFull && decide (1024 ≤ watchHeld c.watch s)) then s
  else if !fits then stickWatch c.watch 0b100 s
  else
    let seq := nextSeq s.alm.seq
    let h : Rec :=
      { r with seq := seq, code := 0x0F10, cls := 18, idx := BitVec.ofNat 8 c.watch.val, flags := if c.unavail then 1 else 0
               supp := 0, p1 := r.seq, p2 := BitVec.ofNat 32 (r.code.toNat * 65536 + r.source)
               p3 := BitVec.ofNat 32 (x.taken + 1) }
    let s := modAlm (fun a => { a with seq := seq, staging := a.staging ++ [.snapshot c.watch h c.words] }) s
    let s := modWatch c.watch (fun x => { x with taken := x.taken + 1, lastAt := some c.at_ }) s
    let s := stickWatch c.watch 0b001 s
    if x.stopFull && decide (1024 ≤ watchHeld c.watch s) then
      note 0x0F07 info 18 c.watch.val c.watch.val 1024 1 (stickWatch c.watch 0b010 s)
    else s

/-- The snapshots of a record that is not admitted are discarded: SKIPPED. -/
def skipSnaps (cs : List Snap) (s : State) : State := cs.foldl (fun s c => stickWatch c.watch 0b100 s) s

/-! ### Admission (R482 to R485) -/

/-- A dropped record is counted by severity. -/
def countDrop (r : Rec) (s : State) : State :=
  let s := modAlm (fun a =>
    { a with dropInfo := if r.sev == 0 then a.dropInfo + 1 else a.dropInfo
             dropWarn := if r.sev == 1 then a.dropWarn + 1 else a.dropWarn
             dropErr := if r.sev == 2 || r.sev == 3 then a.dropErr + 1 else a.dropErr }) s
  stickAlm 0b10000000 s

/-- The triggers of Table 16-4 that an admission meets. -/
def admitTriggers (r : Rec) (before : Nat) (s : State) : State :=
  if 2 ≤ r.fc.toNat || (before < 1536 && 1536 ≤ usedEntries s.alm.staging) then modAlm (fun a => { a with again := true }) s
  else s

/-- A record reaches the arbiter: its code's bucket (R483), staging (R484), its snapshots, and the flush triggers. -/
def admitRec (c : RecCap) (s : State) : State :=
  let r := c.rec_
  let rt := rateOf r.code s
  let exempt := r.fc == 3 || r.code.toNat / 256 = 0x0F || rt.refill = 0
  if !exempt && rt.tokens = 0 then
    skipSnaps c.snaps (stickAlm 0b00100000 (setRate { rt with pending := min 65535 (rt.pending + 1) } s))
  else
    let rt := if exempt then rt else { rt with tokens := rt.tokens - 1 }
    let used := usedEntries s.alm.staging
    if (used < 1984 || 2 ≤ r.sev.toNat) && used + 1 ≤ 2048 then
      let r := { r with seq := nextSeq s.alm.seq, supp := BitVec.ofNat 8 (min 255 rt.pending) }
      let s := setRate { rt with pending := 0 } s
      let s := modAlm (fun a => { a with seq := r.seq, staging := a.staging ++ [.record r] }) s
      let s := c.snaps.foldl (fun s x => takeSnap r x s) s
      admitTriggers r used s
    else skipSnaps c.snaps (countDrop r (setRate rt s))

/-- `a` goes before `b` within a core cycle (R482): 0 equal, 1 before, 2 after, key by key. -/
def recBefore (a b : Rec) : Bool :=
  if a.fc != b.fc then decide (b.fc.toNat < a.fc.toNat)
  else if a.sev != b.sev then decide (b.sev.toNat < a.sev.toNat)
  else if a.source ≠ b.source then decide (a.source < b.source)
  else decide (a.code.toNat < b.code.toNat)

/-- Insert after every record that does not come later: records with equal keys keep their order. -/
def insertRec (r : Rec) : List Rec → List Rec
  | [] => [r]
  | x :: l => if recBefore r x then r :: x :: l else x :: insertRec r l

def sortRecs (l : List Rec) : List Rec := l.foldl (fun a r => insertRec r a) []

/-- A record of this core cycle, with the snapshots of the state its cycle leaves. -/
def admitNow (seen : State) (s : State) (r : Rec) : State :=
  admitRec ⟨r, captures r { seen with alm := { seen.alm with watches := s.alm.watches } }⟩ s

/-- While D15 is not on a record waits in the intake; a full one loses it (R481). -/
def toIntake (seen : State) (s : State) (r : Rec) : State :=
  if s.alm.intake.length < 64 then modAlm (fun a => { a with intake := a.intake ++ [⟨r, captures r seen⟩] }) s
  else stickAlm 0b01000000 (modAlm (fun a => { a with lost := a.lost + 1 }) s)

/-- The intake is emptied in occurrence order; record 0F08h counts what it lost. -/
def drainIntake (s : State) : State :=
  let l := s.alm.intake
  let lost := s.alm.lost
  let s := modAlm (fun a => { a with intake := [], lost := 0 }) s
  let s := l.foldl (fun s c => admitRec c s) s
  if lost ≠ 0 then note 0x0F08 warning 0 0 lost 0 0 s else s

/-- The batch of a core cycle goes through the arbiter, or to the intake with D15 woken; a record that an admission itself
writes (0F07h, 0F08h) makes the next batch. Each of the 16 watch points writes 0F07h once, so the rounds suffice. -/
def arbiter : Nat → State → State
  | 0, s => modAlm (fun a => { a with batch := [] }) s
  | n + 1, s =>
    if domOn 15 s then
      let s := drainIntake s
      let b := sortRecs s.alm.batch
      let s' := modAlm (fun a => { a with batch := [] }) s
      let t := b.foldl (admitNow s) s'
      if t.alm.batch.isEmpty then t else arbiter n t
    else if s.alm.batch.isEmpty then s
    else
      let b := sortRecs s.alm.batch
      let s' := wakeInternal 15 (modAlm (fun a => { a with batch := [] }) s)
      arbiter n (b.foldl (toIntake s) s')

/-! ### Flushing (R485, R486, R488) -/

def allMirrors (s : State) : State :=
  let s := (List.range 96).foldl (fun s i => outMirrorNow (Fin.ofNat 96 i) s) s
  let s := (List.range 8).foldl (fun s i => brMirrorNow (Fin.ofNat 8 i) s) s
  let s := (List.range 16).foldl (fun s i => vlMirrorNow (Fin.ofNat 16 i) s) s
  (List.range 16).foldl (fun s i => fqMirrorNow (Fin.ofNat 16 i) s) s

/-- The power-fail flush writes every slot's replay state and every channel counter (R68, R387, R485). -/
def allCounters (s : State) : State :=
  let s := (List.range 64).foldl (fun s i =>
    let k : Fin 64 := Fin.ofNat 64 i
    let e := replayEntry k s
    nvWrite e.1 e.2 (modSlot k (fun x => { x with dirty := false }) s)) (nvDrain 4 s)
  (List.range 32).foldl (fun s i =>
    let k : Fin 32 := Fin.ofNat 32 i
    let e := slotEntry (chanArea k) 2 k.val 4 (counterBody 2 k.val s.net.chans[k].counter) (nvView s)
    nvWrite e.1 e.2 (modChan k (fun x => { x with dirty := false }) s)) s

/-- Record 0F01h is admitted first once entries are free (R484). -/
def admitDrops (s : State) : State :=
  let a := s.alm
  if a.dropInfo + a.dropWarn + a.dropErr = 0 then s
  else
    let t := note 0x0F01 warning 0 0 a.dropInfo a.dropWarn a.dropErr
      (modAlm (fun a => { a with dropInfo := 0, dropWarn := 0, dropErr := 0, batch := [] }) s)
    let t' := t.alm.batch.foldl (admitNow s) (modAlm (fun x => { x with batch := [] }) t)
    modAlm (fun x => { x with batch := a.batch ++ x.batch }) t'

/-- The vault has just become full: once per epoch (R492). -/
def vaultFull (s : State) : State :=
  if vaultCap ≤ s.alm.fill && !s.alm.fullDone then
    note 0x0F02 warning 0 0 s.alm.fill s.alm.epoch.toNat 0
      (stickAlm 0b00000100 (modAlm (fun a => { a with fullDone := true }) s))
  else s

/-- Write the first `n` staged items with every pending mirror entry, and the counters in the power-fail flush; the entries
become free, and the checkpoint is written. -/
def flushWrite (n : Nat) (pf : Bool) (s : State) : State :=
  let a := flushPlan (s.alm.staging.take n) s
  let newly := (List.range 160).any fun g =>
    a.rings[Fin.ofNat 160 g].refused && !s.alm.rings[Fin.ofNat 160 g].refused
  let s := { nvDrain 3 s with nv := a.m }
  let s := modAlm (fun x =>
    { x with staging := x.staging.drop n, rings := a.rings, watches := a.watches, fill := a.fill }) s
  let s := raiseIf newly 231 (if a.refused then stickAlm 0b00001000 s else s)
  let s := nvDrain 3 (vaultFull (allMirrors s))
  let s := if pf then allCounters s else s
  let s := modAlm (fun x =>
    { x with check := ⟨x.seq, s.clk.life, x.fill, x.epoch⟩, intents := x.intents.set x.lastIntent
               { x.intents[x.lastIntent] with done := true }, lastEnd := now s }) s
  admitDrops (touch 15 s)

/-- VAULT_FILL returns to 0 under the next epoch, and record 0F03h is admitted (R493). -/
def vaultCleared (host : Nat) (s : State) : State :=
  let old := s.alm.fill
  let ep := s.alm.epoch + 1
  let s := raiseIf (!s.alm.cleared) 231 (modAlm (fun a =>
    { a with fill := 0, epoch := ep, cleared := true, fullDone := false, check := { a.check with fill := 0, epoch := ep } }) s)
  let rest := s.alm.batch
  let t := note 0x0F03 warning 0 0 old ep.toNat host (modAlm (fun a => { a with batch := [] }) s)
  let t' := t.alm.batch.foldl (admitNow s) (modAlm (fun x => { x with batch := [] }) t)
  modAlm (fun x => { x with batch := rest ++ x.batch }) t'

/-- A packet that waited for the end of a flush completes. -/
def flushAnswer (recs snaps : Nat) (s : State) (q : QPkt) : State :=
  if q.pkt.opcode == 0x0F05 then
    let s := vaultCleared q.pkt.host.val s
    complete q (.ok (be 4 s.alm.epoch.toNat)) s
  else complete q (.ok (be 2 recs ++ be 2 snaps)) s

/-- FLUSH_TIMER: 1 s since the end of the last flush, with any entry in use. -/
def flushTimer (s : State) : State :=
  if s.alm.flush.isNone && !s.alm.staging.isEmpty && decide (s.alm.lastEnd + Config.sec ≤ now s) then
    modAlm (fun a => { a with again := true }) s
  else s

/-- The intent of a flush goes into the slot the last one did not use (R486). -/
def writeIntent (n : Nat) (s : State) : State :=
  let a := flushPlan (s.alm.staging.take n) s
  modAlm (fun x =>
    let k : Fin 2 := Fin.ofNat 2 (1 - x.lastIntent.val)
    { x with lastIntent := k, intents := x.intents.set k ⟨false, a.writes.map (·.1), x.seq⟩ }) s

/-- FLUSH_START: a trigger is waiting and no flush runs (R485). -/
def flushStart (s : State) : State :=
  if s.alm.again && s.alm.flush.isNone && domOn 15 s then
    let n := s.alm.staging.length
    let s := writeIntent n s
    let s := if s.alm.onHold then stickAlm 0b00000010 s else s
    modAlm (fun a => { a with again := false, flush := some ⟨a.onHold, n, now s, a.flushWait⟩, flushWait := [] }) s
  else if s.alm.again && !domOn 15 s then wakeInternal 15 s
  else s

/-- FLUSH_END: the writes are done; the power-fail flush and one that clears the vault go on until staging is empty. -/
def flushEnd (s : State) : State :=
  match s.alm.flush with
  | none => s
  | some f =>
    let clears := f.waits.any fun q => q.pkt.opcode == 0x0F05
    let n := if f.powerFail || clears then s.alm.staging.length else f.count
    let l := s.alm.staging.take n
    let recs := (l.filter fun x => match x with | .record _ => true | _ => false).length
    let s := if decide (1500 * Config.us < now s - f.startAt) then stickAlm 0b00000001 s else s
    let s := flushWrite n f.powerFail (modAlm (fun a => { a with flush := none }) s)
    -- record 0F01h of a flush that clears the vault still belongs to the old vault (R484, R493)
    let s := if clears && !s.alm.staging.isEmpty then flushWrite s.alm.staging.length f.powerFail s else s
    f.waits.foldl (flushAnswer recs (l.length - recs)) s

/-- A flush that a turn-down of D15 or a warm restart completes before it goes on (Table 16-4). -/
def flushAll (s : State) : State :=
  let s := modAlm (fun a => { a with again := false }) (flushEnd s)
  if s.alm.staging.isEmpty && s.alm.flushWait.isEmpty then nvDrain 3 (allMirrors s)
  else
    let s := writeIntent s.alm.staging.length s
    flushEnd (modAlm (fun a => { a with flush := some ⟨a.onHold, a.staging.length, now s, a.flushWait⟩, flushWait := [] }) s)

/-- POWER_FAIL_WARNING: VS6 below 5.0 V for 2 us (R488). -/
def powerFailWarning (vs6MV : Nat) (s : State) : State :=
  if vs6MV < 5000 && !s.alm.onHold && 3 ≤ s.boot.phase then
    wakeInternal 15 (modAlm (fun a => { a with onHold := true, again := true }) s)
  else s

/-- POWER_FAIL_RECOVERY: VS6 above 5.5 V before the brown-out; the flush completes as an ordinary one (R488). -/
def powerFailRecovery (vs6MV : Nat) (s : State) : State :=
  if s.alm.onHold && 5500 < vs6MV && s.alm.brown.isNone then
    modAlm (fun a => { a with onHold := false, flush := a.flush.map fun f => { f with powerFail := false } }) s
  else s

/-- Supply is lost in the course of a flush: a free number of its writes is complete and the next one may be torn, its SEQ
still 0 (R486, R499). -/
def flushTorn (s : State) : State :=
  match s.alm.flush with
  | none => s
  | some f =>
    let a := flushPlan (s.alm.staging.take f.count) s
    let k := (Config.freeWord s.clk.free).toNat % (a.writes.length + 1)
    let s := drew s
    let m := (a.writes.take k).foldl (fun m w => Mem.write m w.1 w.2) s.nv
    let m := match (a.writes.drop k).head? with
      | some w => Mem.write (Mem.write m w.1 (be 4 0)) (w.1 + 4)
          ((w.2.drop 4).take ((Config.freeWord s.clk.free).toNat % (w.2.length - 3)))
      | none => m
    modAlm (fun a => { a with flush := none }) { (drew s) with nv := m }

/-! ### Start-up (R499, R500) -/

/-- Bytes of a slot of this address: 256 in the watch points, else 32. -/
def slotLen (addr : Nat) : Nat := if 0x800000 ≤ addr && addr < 0xC00000 then 256 else 32

/-- Bit 0 rings, bit 1 vault, bit 2 watch points. -/
def areaBit (addr : Nat) : Nat := if addr < 0x800000 then 1 else if addr < 0xC00000 then 4 else 2

def slotTorn (addr : Nat) (m : Memory) : Bool :=
  let b := Mem.readN m addr (slotLen addr)
  numAt b 0 4 = 0 && !allZero (b.drop 4)

/-- Phase 4 examines the slots an unfinished intent lists, and the sequence goes on after the larger of the checkpoint's and
the intent's last SEQ (R499). -/
def almanacRepair (s : State) : State :=
  let it := s.alm.intents[s.alm.lastIntent]
  let last := if seqBefore s.alm.check.lastSeq.toNat it.lastSeq.toNat then it.lastSeq else s.alm.check.lastSeq
  let s := modAlm (fun a => { a with seq := last, fill := a.check.fill, epoch := a.check.epoch }) s
  if it.done then s
  else
    let torn := it.targets.filter (slotTorn · s.nv)
    let done := it.targets.filter fun t => vaultBase ≤ t && numAt (Mem.readN s.nv t 4) 0 4 ≠ 0
      && decide (vaultBase + 32 * s.alm.check.fill ≤ t)
    let s := { s with nv := torn.foldl (fun m t => Mem.clear m t (slotLen t)) s.nv }
    let s := modAlm (fun a => { a with fill := a.fill + done.length
                                       intents := a.intents.set a.lastIntent { it with done := true } }) s
    if torn.isEmpty then s
    else
      let areas := torn.foldl (fun x t => x ||| areaBit t) 0
      record 0x0F04 warning 1 0 0 torn.length areas it.lastSeq.toNat (stickAlm 0b00010000 s)

/-- The life counter resumes at power-on and brown-out: the larger of the checkpoint's ticks and the highest of the listed
slots, plus 1 (R500). -/
def lifeResume (targets : List Nat) (cause : Nat) (s : State) : State :=
  let ticks := targets.foldl (fun x t => max x (numAt (Mem.readN s.nv (t + 4) 6) 0 6)) s.alm.check.life.toNat
  let life : BitVec 48 := BitVec.ofNat 48 (s.clk.life.toNat + ticks + 1)
  let s := { s with clk := { s.clk with life := life } }
  note 0x0F05 info 0 0 (life.toNat / 2 ^ 32) (life.toNat % 2 ^ 32) cause s

/-! ### Reading (R501, R502) -/

/-- Entries sorted by SEQ, one per SEQ. -/
def insertSeq (b : List Byte) : List (List Byte) → List (List Byte)
  | [] => [b]
  | x :: l => if seqOf b = seqOf x then x :: l else if seqBefore (seqOf b) (seqOf x) then b :: x :: l else x :: insertSeq b l

def bySeq (l : List (List Byte)) : List (List Byte) := l.foldl (fun a b => insertSeq b a) []

def vaultSlots (fill : Nat) (m : Memory) : List (Nat × List Byte) := slotsIn vaultBase 32 (32 * fill) m

/-- The view's stored entries and those of the staged entries that a flush of all of staging would add to it. -/
def viewEntries (view idx : Nat) (s : State) : List (List Byte) :=
  let a := flushPlan s.alm.staging s
  let m0 := nvUpTo 3 s
  let heads (l : List (Nat × List Byte)) := l.map (·.2)
  match view with
  | 0 => bySeq (heads (ringSlots idx s.nv) ++ heads (ringSlots idx a.m))
  | 1 => bySeq (heads (vaultSlots s.alm.fill s.nv) ++ heads (vaultSlots a.fill a.m))
  | 2 => bySeq ((watchSlots idx m0).map (fun e => Mem.readN m0 (watchBase idx + 256 * e.1) 256)
      ++ (watchSlots idx a.m).map (fun e => Mem.readN a.m (watchBase idx + 256 * e.1) 256))
  | _ =>
    let all (m : Memory) (fill : Nat) := heads (slotsIn 0x300000 32 0x500000 m) ++ heads (vaultSlots fill m)
      ++ heads (slotsIn 0x800000 256 0x400000 m)
    bySeq (all m0 s.alm.fill ++ all a.m a.fill)

/-- LOSS_COUNT (Table 16-7). -/
def lossCount (view idx : Nat) (s : State) : Nat :=
  match view with
  | 0 => s.alm.rings[Fin.ofNat 160 idx].over_
  | 1 => s.alm.epoch.toNat
  | 2 => s.alm.watches[Fin.ofNat 16 idx].over_
  | _ => (s.alm.rings.toList.map (·.over_)).sum

/-- COUNT of each view, and its highest INDEX (Table 16-6). -/
def viewOk (view idx count : Nat) : Bool :=
  match view with
  | 0 => decide (idx < 160) && decide (1 ≤ count) && decide (count ≤ 31)
  | 1 | 3 => decide (idx = 0) && decide (1 ≤ count) && decide (count ≤ 31)
  | 2 => decide (idx < 16) && decide (1 ≤ count) && decide (count ≤ 3)
  | _ => false

def almRange : Half := 0x0F40

/-- ALMANAC_WINDOW (R501, R502). -/
def opAlmanacWindow : OpSpec :=
  chipOp 12 [15] (zeroAt [3, 8, 9, 10, 11]) fun q s =>
    let b := q.pkt.payload
    let view := (byteAt b 0).toNat
    let idx := (byteAt b 1).toNat
    let count := (byteAt b 2).toNat
    let cur := numAt b 4 4
    if !viewOk view idx count then refuse almRange s
    else
      let all := viewEntries view idx s
      let tail := if cur = 0 then all else all.filter fun e => !seqBefore (seqOf e) cur
      let got := tail.take count
      let first := got.head?.elim 0 seqOf
      let last := got.getLast?.elim 0 seqOf
      let passed := cur ≠ 0 && all.head?.any fun e => seqBefore cur (seqOf e)
      let end_ := decide (tail.length ≤ count)
      done (.ok (be 4 first ++ be 4 last ++ be 2 got.length
        ++ be 1 ((if passed then 1 else 0) + (if end_ then 2 else 0)) ++ be 1 0 ++ be 4 (lossCount view idx s)
        ++ got.flatMap id)) s

/-! ### The other opcodes of family 0Fh (R506, R507) -/

/-- ALMANAC_FLUSH completes when its flush ends. -/
def opAlmanacFlush : OpSpec :=
  chipOp 0 [15] (fun _ => true) fun q s =>
    (none, modAlm (fun a => { a with again := true, flushWait := a.flushWait ++ [q] }) s)

def configNote (q : QPkt) (what : Nat) (s : State) : State :=
  note 0x0F06 info 0 0 q.pkt.opcode.toNat what q.pkt.host.val s

/-- ALMANAC_CONFIG. -/
def opAlmanacConfig : OpSpec :=
  chipOp 4 [15] (fun b => onlyBits 0 0xE0 b && zeroAt [1, 2, 3] b) fun q s =>
    let w := wordAt q.pkt.payload 0
    done .ok (configNote q w.toNat (modAlm (fun a => { a with cfg := w }) s))

/-- ALMANAC_RATE. -/
def opAlmanacRate : OpSpec :=
  chipOp 8 [15] (zeroAt [6, 7]) fun q s =>
    let b := q.pkt.payload
    let code := halfAt b 0
    let fam := code.toNat / 256
    let op := (byteAt b 2).toNat
    let burst := (byteAt b 3).toNat
    let answer (s : State) : Ans :=
      let r := rateOf code s
      .ok (be 2 code.toNat ++ [0] ++ be 1 r.burst ++ be 2 r.refill ++ be 1 r.tokens ++ be 1 (min 255 r.pending))
    if fam = 0x0F || 0x12 < fam || 1 < op || (op = 0 && burst = 0) then refuse almRange s
    else if op = 1 then done (answer s) s
    else
      let s := setRate { rateOf code s with burst := burst, refill := numAt b 4 2, tokens := burst, lastAt := now s } s
      done (answer s) (configNote q code.toNat s)

/-- An entry of a watch list names a word and unit there are, or is unused. -/
def listOk (e : Half × Half) : Bool := e.1 == 0xFFFF || decide (e.2.toNat < wordUnits e.1.toNat)

/-- CLEAR empties a watch point of its staged snapshots as well (R498); a flush that runs writes what is left of its items. -/
def clearStaged (w : Fin 16) (s : State) : State :=
  let keep (x : Staged) : Bool := match x with | .snapshot v _ _ => v ≠ w | .record _ => true
  modAlm (fun a =>
    { a with staging := a.staging.filter keep
             flush := a.flush.map fun f => { f with count := ((a.staging.take f.count).filter keep).length } }) s

/-- WATCH_CONFIG. -/
def opWatchConfig : OpSpec :=
  chipOp 240 [15] (fun b => onlyBits 1 0xE0 b && onlyBits 2 3 b && zeroAt [3, 14, 15] b) fun q s =>
    let b := q.pkt.payload
    let list := (List.range 56).map fun i => (halfAt b (16 + 4 * i), halfAt b (18 + 4 * i))
    if h : (byteAt b 0).toNat < 16 then
      let w : Fin 16 := ⟨(byteAt b 0).toNat, h⟩
      if list.all listOk then
        let flag := byteAt b 1
        let s := modWatch w (fun x =>
          { x with enable := flag.getLsbD 7, stopFull := flag.getLsbD 6, minSev := (byteAt b 2).setWidth 2
                   code := halfAt b 4, codeMask := halfAt b 6, src := halfAt b 8, srcMask := halfAt b 10
                   holdoff := numAt b 12 2, list := list, taken := 0 }) s
        let s := if flag.getLsbD 5 then
            modWatch w (fun x => { x with over_ := 0, lastAt := none }) (nvQueue 3 (watchBase w.val) [] none (clearStaged w s) 0x40000)
          else s
        done .ok (configNote q w.val s)
      else refuse almRange s
    else refuse almRange s

/-- VAULT_CLEAR (R493): it completes when staging has been flushed. -/
def opVaultClear : OpSpec :=
  { chipOp 16 [15] (zeroAt [4, 5, 6, 7]) (fun q s =>
      let b := q.pkt.payload
      let r := needRandom s
      let proof (i : Fin 32) := Crypto.cmac8 (rootValue i s) ([0x56] ++ be 4 r.2.alm.vnonce.toNat ++ b.take 8)
      if !r.1 then refuse stContained (modAlm (fun a => { a with vnonceDue := true }) r.2)
      else
        let t := newVnonce r.2
        match roleHolder 2 s with
        | some i =>
          if (rootstock i s).st != .established then refuse 0x0F43 t
          else if slice b 8 8 != proof i then refuse 0x0F42 t
          else if numAt b 0 4 ≠ s.alm.fill then refuse 0x0F41 t
          else (none, modAlm (fun a => { a with again := true, flushWait := a.flushWait ++ [q] }) t)
        | none => refuse 0x0F43 t) with
    inner := fun _ _ => [14] }

end Sys2Proof.Machine
end

