-- ==== Sys2Proof/Machine/Domains.lean ====
section
/-! DEFINITION. Power domains (chapter 04, Table 19-1): checks and prior work of turn-downs, what each domain's units do
when it leaves on or reaches it, DOMAIN_SET, internal returns, wake detectors of the always-on section, regulators. -/

namespace Sys2Proof.Machine

/-! ### A host ID left unregistered (R63, R87) -/

/-- The ID leaves every event subscription and its need bits clear. -/
def hostGone (h : Fin 14) (s : State) : State :=
  let s := modHost h (fun x => { x with reg := none, out := [] }) s
  let s := { s with ev := { s.ev with
      route := s.ev.route.map fun r => { r with hosts := r.hosts &&& ~~~(BitVec.ofNat 10 (2 ^ h.val)) }
      entries := if hlt : h.val < 10 then s.ev.entries.set h.val [] hlt else s.ev.entries
      ebw := if hlt : h.val < 10 then s.ev.ebw.set h.val none hlt else s.ev.ebw } }
  if hlt : h.val < 13 then clearNeed h.val (modNet (fun x => { x with leases := x.leases.set h.val none hlt }) s) else s

/-- A registration lapses (R63): LAPSED, event 236. -/
def hostLapses (h : Fin 14) (s : State) : State :=
  let was := s.hosts[h].lapsed
  raiseIf (!was) 236 (hostGone h (modHost h (fun x => { x with lapsed := true }) s))

/-! ### Units of a domain -/

def domOuts (d : Fin 16) : List (Fin 96) := ((List.range 96).map (Fin.ofNat 96)).filter fun n => outDomain n = d
def allBrs : List (Fin 8) := (List.range 8).map (Fin.ofNat 8)
def allVls : List (Fin 16) := (List.range 16).map (Fin.ofNat 16)
def isOutDom (d : Fin 16) : Bool := 6 ≤ d.val && d.val ≤ 9

/-- No inhibit stands against the demand of the cell. -/
def cellFree (n : Fin 96) (s : State) : Bool := demand s.outs[n] && !inhibited n s

/-- A cell in PWM or in inrush, or a turn-on that waits (reason 2h, Table 19-1). -/
def cellMoving (n : Fin 96) (s : State) : Bool :=
  let c := s.outs[n]
  !isSecondary n s && (c.st == .waitToken || c.st == .rising || c.env.isSome || (2 ≤ c.mode.toNat && !inhibited n s)
    || (c.st == .falling && cellFree n s))

/-- A cell commanded on or with its gate on (reason 7h). -/
def cellLoaded (n : Fin 96) (s : State) : Bool := !isSecondary n s && (s.outs[n].mode != 0 || gateOn s.outs[n])

/-- A bridge commanded on (R281) or not at rest; a tripped bridge is at rest (Table 19-1). -/
def brLoaded (k : Fin 8) (s : State) : Bool := !s.brs[k].atRest || (s.brs[k].demand && s.brs[k].st != .tripped)
def vlLoaded (n : Fin 16) (s : State) : Bool := s.vls[n].mode
def vlMoving (n : Fin 16) (s : State) : Bool :=
  let v := s.vls[n]
  v.st == .waitToken || v.st == .hdrRise || v.st == .clamp || v.st == .window
def fqLoaded (n : Fin 16) (s : State) : Bool := s.io.fq[n].mode

/-- How many units of the domain a forced turn-down turns off. -/
def loadCount (d : Fin 16) (s : State) : Nat :=
  if isOutDom d then ((domOuts d).filter (cellLoaded · s)).length
  else if d = 10 then (allBrs.filter (brLoaded · s)).length + (allVls.filter (vlLoaded · s)).length
  else if d = 12 then (allVls.filter (fqLoaded · s)).length
  else 0

/-! ### Table 4-7 -/

def chainOpen (s : State) : Bool :=
  !s.cmd.chains.isEmpty || (List.range 14).any fun h => s.hosts[Fin.ofNat 14 h].chain.open_

/-- The reason that refuses a turn-down from on, without FORCE (Table 4-7). -/
def downReason (d : Fin 16) (toRet : Bool) (s : State) : Nat :=
  if isOutDom d then
    if toRet then (if (domOuts d).any (cellMoving · s) then 2 else 0)
    else if (domOuts d).any (cellLoaded · s) then 7 else 0
  else if d = 10 then
    if toRet then (if allBrs.any (fun k => !s.brs[k].atRest) || allVls.any (vlMoving · s) then 2 else 0)
    else if allBrs.any (brLoaded · s) || allVls.any (vlLoaded · s) then 7 else 0
  else if 1 ≤ d.val && d.val ≤ 5 then (if netsAsleep d s then 0 else 3)
  else if d = 0 then (if !toRet && (!s.cmd.sched.isEmpty || chainOpen s) then 4 else 0)
  else if d = 12 then (if !toRet && allVls.any (fqLoaded · s) then 7 else 0)
  else if d = 14 then (if !toRet && !s.ks.updates.isEmpty then 5 else 0)
  else 0

/-- The reasons that FORCE overrides. -/
def forceable (r : Nat) : Bool := r = 3 || r = 4 || r = 7

/-! ### Leaving on -/

/-- Prior work of a forced turn-down to off: every unit off through its normal turn-off, commanded off by `host`
(Table 4-6, Table 19-1). -/
def turnUnitsOff (d : Fin 16) (host : Fin 16) (s : State) : State :=
  if isOutDom d then
    (domOuts d).foldl (fun s n =>
      if cellLoaded n s then stickOut n 0b0000001 (command n 0 false s.outs[n].vals host s) else s) s
  else if d = 10 then
    let s := allBrs.foldl (fun s k => if brLoaded k s then brApply k ⟨1, 0, 0, false⟩ host s else s) s
    allVls.foldl (fun s n => if vlLoaded n s then vlCommand n false host s else s) s
  else if d = 12 then allVls.foldl (fun s n => if fqLoaded n s then fqCommand n false host s else s) s
  else s

/-- A turn-off of D10 begins: a window ends NOT_MEASURED with cause 4, a clamp runs on (R293, R306). -/
def vlDomainEnd (n : Fin 16) (s : State) : State :=
  match s.vls[n].st with
  | .clamp => windowResult n 3 4 0 s
  | .window => vlGate n (modVl n (fun v => { v with st := .off }) (windowResult n 3 4 0 s))
  | _ => s

/-- Start a turn-down from on (R129, R139): forced prior work, record 0105h, and the transition. -/
def startDown (d : Fin 16) (toRet forced : Bool) (host : Fin 16) (s : State) : State :=
  let count := loadCount d s
  let s := if isOutDom d then (domOuts d).foldl (fun s n => cleanSync n s) s
    else if d = 10 then (List.range 4).foldl (fun s g => vhCleanSync (Fin.ofNat 4 g) s) s else s
  let s := if d = 15 then flushAll s else s
  let s := modDom d (fun x =>
    { x with st := if toRet then .toRet else .toOff, startedAt := now s, upAfter := false, returnTo := none
             intHeld := false }) s
  let s := if forced then
      let s := if 1 ≤ d.val && d.val ≤ 5 then forceSleep d host.val s else turnUnitsOff d host s
      note 0x0105 warning 12 d.val d.val count host.val (stickDom d 1 s)
    else s
  let s := if d = 10 && !toRet then allVls.foldl (fun s n => vlDomainEnd n s) s else s
  if !toRet && d ≠ 15 then wakeInternal 15 s else s

/-- The work that a transition waits for is done (Table 4-6, Table 19-1). -/
def downReady (d : Fin 16) (toRet : Bool) (s : State) : Bool :=
  if isOutDom d then (domOuts d).all fun n =>
    s.outs[n].st == .off || (toRet && s.outs[n].st == .on)
  else if d = 10 then
    if toRet then true
    else allBrs.all (fun k => s.brs[k].atRest) && allVls.all (fun n => s.vls[n].st == .off || s.vls[n].st == .tripped)
      && (List.range 4).all fun g => s.vhs[Fin.ofNat 4 g].st == .off
  else if d = 13 then s.acc.exch.isNone && s.acc.tp.isNone && !(s.acc.pollAt.any fun t =>
    decide (now s < t + tPair * (pollPairs s).length))
  else if d = 14 then s.ks.updates.isEmpty
  else if d = 15 then s.alm.writes.isEmpty
  else if d = 0 then !s.cmd.waiting.any (·.executing)
  else true

/-! ### Domain images (R130)

The spec gives the place of an image, its size, its CRC-32 and what it holds, and not its layout: two bytes of length, the RW
fields unit by unit, and the CRC-32 of both in the last four of the 16 KB (log entry 43). -/

def imageAddr (d : Fin 16) : Nat := 0x2C0000 + 0x4000 * d.val

def words (l : List Word) : List Byte := l.flatMap fun w => be 4 w.toNat

/-- The RW fields of the domain's units, and what R130 and Table 4-3 keep beside them. -/
def imageFields (d : Fin 16) (s : State) : List Byte :=
  if d = 0 then
    words [s.cmd.authPolicy, s.trl.cfg] ++ be 32 s.ev.mask.toNat
      ++ s.ev.route.toList.flatMap (fun r => be 2 ((if r.irqEn then 0x8000 else 0) + r.irqSel.toNat * 0x2000
        + r.pcp.toNat * 0x400 + r.hosts.toNat))
      ++ s.hosts.toList.flatMap (fun h => be 2 h.silence ++ (match h.reg with
        | some r => if r.bound then be 1 (128 + r.port.val) ++ be 6 r.mac.toNat ++ be 2 r.vlan.toNat else be 9 0
        | none => be 9 0))
      ++ s.rfx.entries.toList.flatMap (·.image)
      ++ s.net.filters.toList.flatMap (fun f => be 1 (128 * f.valid.toNat + 64 * f.ext.toNat + 32 * f.drop.toNat + f.port)
        ++ be 1 f.prio.toNat ++ be 4 f.id ++ be 4 f.mask ++ be 2 f.hosts.toNat)
      ++ s.net.chans.toList.flatMap (fun a => be 1 (128 * a.valid.toNat + 64 * a.tx.toNat + 32 * a.ext.toNat + a.port)
        ++ be 1 a.slot.val ++ be 4 a.id ++ be 2 a.window)
      ++ s.net.vlans.toList.flatMap (fun v => be 2 (32768 * v.valid.toNat + v.vid.toNat)
        ++ be 1 (16 * v.members.toNat + v.untag.toNat))
  else if d = 1 || d = 2 then words [s.net.eth[(Fin.ofNat 2 (d.val - 1) : Fin 2)].cfg]
  else if d = 3 || d = 4 then words ((List.range 3).map fun i => s.net.cans[(Fin.ofNat 6 (3 * (d.val - 3) + i) : Fin 6)].cfg)
  else if d = 5 then s.net.lins.toList.flatMap fun l => words [l.cfg] ++ (l.next.getD l.table).flatMap fun t =>
    be 1 (t.id.toNat + (if t.publish then 64 else 0) + (if t.classic then 128 else 0)) ++ be 1 t.len ++ be 2 t.delay ++ t.data
  else if isOutDom d then (domOuts d).flatMap fun n =>
    let c := s.outs[n]
    words [c.cfg, c.cfg1, c.cfg2] ++ be 1 (s.prune[outIdx n].cls.toNat + 4 * (c.sticky2 &&& 1).toNat)
  else if d = 10 then
    (allBrs.flatMap fun k => words [s.brs[k].cfg1, s.brs[k].cfg2, s.brs[k].cfg3]
      ++ be 4 (twos 32 s.brs[k].pos) ++ be 1 (s.prune[brIdx k].cls.toNat + (if s.brs[k].posValid then 4 else 0)))
      ++ (allVls.flatMap fun n => words [s.vls[n].cfg] ++ be 1 s.prune[vlIdx n].cls.toNat)
      ++ words (s.vhs.toList.map (·.cfg))
  else if d = 11 then words (s.io.sw.toList.map (·.cfg) ++ s.io.an.toList.flatMap fun a => [a.cfg2, a.cfg3])
  else if d = 12 then words (s.io.fi.toList.map (·.cfg) ++ s.io.fq.toList.map (·.cfg))
  else if d = 13 then words (s.acc.lf.toList.map (·.cfg))
  else if d = 15 then words [s.alm.cfg] ++ s.alm.rates.flatMap fun r => be 2 r.code.toNat ++ be 1 r.burst ++ be 2 r.refill
  else []

def imageBytes (d : Fin 16) (s : State) : List Byte := let b := imageFields d s; be 2 b.length ++ b

/-- The image goes to the arbiter, its CRC-32 last; a new image replaces one that was spoilt. -/
def saveImage (d : Fin 16) (s : State) : State :=
  let b := imageBytes d s
  let s := modDom d (fun x => { x with imageBad := false }) s
  let w (addr : Nat) (data : List Byte) (s : State) : State :=
    if d = 15 then { s with nv := Mem.write s.nv addr data } else nvQueue 5 addr data none s
  w (imageAddr d + 0x3FFC) (be 4 (crc32 b).toNat) (w (imageAddr d) b s)

/-- The CRC-32 that an image carries, and that of its bytes; those of a spoilt image are free (log entry 3). -/
def imageCrc (d : Fin 16) (s : State) : Word × Word :=
  let m := nvView s
  let n := numAt (Mem.readN m (imageAddr d) 2) 0 2
  (wordAt (Mem.readN m (imageAddr d + 0x3FFC) 4) 0,
   if s.dom.dom[d].imageBad then (Config.freeWord s.clk.free).setWidth 32 else crc32 (Mem.readN m (imageAddr d) (2 + n)))

/-- The image is not restored. -/
def imageFails (d : Fin 16) (s : State) : Bool :=
  s.dom.dom[d].imageBad || (imageCrc d s).1 != (imageCrc d s).2

/-! ### Off: what is lost, and what the image keeps (R130, Table 4-3) -/

def outOff (n : Fin 96) (s : State) : State :=
  let s := outMirrorNow n s
  let s := modPrune (outIdx n) (fun p => { p with pruned := false, cause := 0, seen := false }) s
  modOut n (fun c => { OutSt.fresh n with
    cfg := c.cfg, cfg1 := c.cfg1, cfg2 := c.cfg2, retry := fld c.cfg1 24 4, learned := c.learned
    sticky2 := c.sticky2 &&& 1, mirAt := c.mirAt, stateAt := now s, cleanAt := now s
    offSince := if c.st == .off then c.offSince else now s, uvOff := s.regs[outRegion n].uv }) s

def brOff (k : Fin 8) (s : State) : State :=
  let s := if s.brs[k].atRest then s else posLost k 4 s
  let s := brMirrorNow k s
  let s := modPrune (brIdx k) (fun p => { p with pruned := false, cause := 0, seen := false }) s
  let s := modBr k (fun b => { BrSt.fresh with
    cfg1 := b.cfg1, cfg2 := b.cfg2, cfg3 := b.cfg3, act1 := b.cfg1, act3 := b.cfg3, profile := b.profile
    pos := b.pos, posValid := b.posValid, stateAt := now s, uvOff := s.regs[(4 : Fin 7)].uv }) s
  modLeg (legA k) (fun _ => LegSt.fresh) (modLeg (legB k) (fun _ => LegSt.fresh) s)

def vlOff (n : Fin 16) (s : State) : State :=
  let s := vlMirrorNow n s
  let s := modPrune (vlIdx n) (fun p => { p with pruned := false, cause := 0, seen := false }) s
  modVl n (fun v => { VlSt.fresh with cfg := v.cfg, act := v.cfg, offAt := now s, uvOff := s.regs[(4 : Fin 7)].uv }) s

def vhOff (g : Fin 4) (s : State) : State :=
  modVh g (fun h => { VhSt.fresh with cfg := h.cfg, act := h.cfg, retry := fld h.cfg 23 4, stateAt := now s, cleanAt := now s }) s

/-- A region whose domain turns off loses its hot spot, thermal stage and restore list (R250, R257). -/
def regionOff (r : Fin 7) (s : State) : State :=
  modReg r (fun x => { x with therm := 0, hot := 0, hotIdx := 0, hotValid := false, temps := [], restore := []
                              releaseAt := none, coolAt := Vector.replicate 3 none }) s

/-- D00 off: queues, scheduler and chains go without reply, unbound registrations lapse, reflex timers and waits are
discarded; bound registrations, routing, policy and the reflex table stay (Table 4-3). -/
def engineOff (s : State) : State :=
  let s := (List.range 14).foldl (fun s i =>
    let h : Fin 14 := Fin.ofNat 14 i
    let s := if s.hosts[h].reg.any (fun r => !r.bound) then hostGone h s else s
    modHost h (fun x => { HostSt.fresh with
      reg := x.reg, silence := x.silence
      silenceAt := if x.silence = 0 then none else some (s.clk.cmdClock + x.silence * 10 * Config.ms) }) s) s
  let s := s.cmd.sched.foldl (fun s q => unstageUnits q s) (s.cmd.waiting.foldl (fun s q => unstageUnits q s) s)
  let s := modCmd (fun c => { c with sticky := 0, waiting := [], sched := [], highWater := 0, authWait := [], chains := [], replyWait := []
                                     restart := none }) s
  let ev := { s.ev with entries := Vector.replicate 10 [], ebw := Vector.replicate 10 none }
  let entries := s.rfx.entries.map fun e => { RfxEntry.fresh with image := e.image }
  let s := { s with ev := ev, rfx := { s.rfx with entries := entries, occs := [], overflow := false, discarded := 0, fired := [] } }
  let s := modNet (fun x => { x with fwd := x.fwd.map fun _ => { entries := [], at_ := none } }) s
  modTrl (fun x => { TrlSt.fresh with cfg := x.cfg, out := x.out }) s

/-- The port of a domain loses its link, and in off its buffers (Table 4-3). -/
def portDown (p : Fin 2) (toOff : Bool) (s : State) : State :=
  let s := setLink p 0 s
  let s := modEth p (fun x => if toOff then { EthPort.fresh p with cfg := x.cfg } else x) s
  if switchOn s then s else modNet (fun x => { x with fdb := [] }) s

/-- Controllers of D03 to D05 stop; in off their buffers and live fields go and schedules restart at entry 0. -/
def controllersDown (d : Fin 16) (toOff : Bool) (s : State) : State :=
  let s := (List.range 6).foldl (fun s i =>
    let c : Fin 6 := Fin.ofNat 6 i
    if canDomain c = d && toOff then modCan c (fun x => { CanPort.fresh with cfg := x.cfg }) s else s) s
  if d = 5 then (List.range 8).foldl (fun s i =>
    modLin (Fin.ofNat 8 i) (fun x =>
      if toOff then { LinPort.fresh with cfg := x.cfg, table := x.next.getD x.table }
      else { x with slotAt := none, awaiting := false }) s) s
  else s

/-- The domain has reached retention: what stops and what is held (Table 4-3). -/
def enterRet (d : Fin 16) (s : State) : State :=
  if d = 0 then (List.range 2).foldl (fun s k => modSide (Fin.ofNat 2 k) (fun x => { x with st := 0, unack := [] }) s) s
  else if d = 1 || d = 2 then portDown (Fin.ofNat 2 (d.val - 1)) false s
  else if d.val ≤ 5 then controllersDown d false s
  else if d = 11 then rakeDown false s
  else if d = 12 then allVls.foldl (fun s n => modFi n (fun x => { x with runAt := none }) s) s
  else s

/-- A region without governed units loses its heat when the last of its domains has turned off (R250). -/
def heatOff (d : Fin 16) (s : State) : State :=
  ([5, 6] : List (Fin 7)).foldl (fun s r =>
    if (regionDomains r).contains d && (regionDomains r).all (fun e => domState e s == .off) then regionOff r s else s) s

/-- The domain has reached off. -/
def enterOff (d : Fin 16) (s : State) : State :=
  let s := heatOff d s
  if d = 0 then engineOff s
  else if d = 1 || d = 2 then portDown (Fin.ofNat 2 (d.val - 1)) true s
  else if d.val ≤ 5 then controllersDown d true s
  else if isOutDom d then regionOff (Fin.ofNat 7 (d.val - 6)) ((domOuts d).foldl (fun s n => outOff n s) s)
  else if d = 10 then
    let s := allVls.foldl (fun s n => vlOff n s) (allBrs.foldl (fun s k => brOff k s) s)
    regionOff 4 ((List.range 4).foldl (fun s g => vhOff (Fin.ofNat 4 g) s) s)
  else if d = 11 then
    let s := rakeDown true s
    let s := (List.range 64).foldl (fun s n => modSw (Fin.ofNat 64 n) (fun x => { x with sticky := 0 }) s) s
    (List.range 12).foldl (fun s m => modAn (Fin.ofNat 12 m) (fun x => { x with sticky := 0, valid := false }) s) s
  else if d = 12 then
    let s := allVls.foldl (fun s n =>
      let s := fqMirrorNow n s
      let s := modFq n (fun x => { FqSt.fresh with cfg := x.cfg, mirAt := x.mirAt }) s
      modFi n (fun x => { FiSt.fresh with cfg := x.cfg }) s) s
    modFld (fun _ => FieldSt.fresh) s
  else if d = 13 then
    let s := (List.range 6).foldl (fun s i => modLf (Fin.ofNat 6 i) (fun x => { x with peak := 0, sticky := 0, stopped := false }) s) s
    modAcc (fun x => { x with sticky := 0, stickyTp := 0, verdict := 0, tpSerial := 0 }) s
  else if d = 14 then
    let s := keysOff s
    modKs (fun x => { x with slots := x.slots.map fun k => { k with sticky := 0 }, sticky := 0
                             roots := x.roots.map fun r => { r with sticky := 0 } }) s
  else modAlm (fun a => { a with staging := [], sticky := 0, watches := a.watches.map fun w => { w with sticky := 0 } }) s

/-! ### On -/

/-- An image that fails its CRC is not restored: RW fields at their reset values (R130). REF, THRESH and CYCLIC of the switch inputs,
the cyclic settings and held values lie in the always-on section (R320). -/
def loseImage (d : Fin 16) (s : State) : State :=
  let crc := imageCrc d s
  let s := modDom d (fun x => { x with imageBad := false }) (drew s)
  let s := note 0x0107 error 12 d.val d.val crc.1.toNat crc.2.toNat (stickDom d 0b100000 s)
  if d = 0 then
    let s := (List.range 14).foldl (fun s h => modHost (Fin.ofNat 14 h) (fun _ => HostSt.fresh) s) s
    let ev := { s.ev with mask := 0, route := Vector.replicate 256 EvRoute.fresh }
    let s := { s with ev := ev, rfx := RfxSt.fresh, cmd := { s.cmd with authPolicy := 0 } }
    let s := modNet (fun x =>
      { x with filters := Vector.replicate 64 Filter.fresh, vlans := NetSts.fresh.vlans
               chans := x.chans.map fun a => { AuthChan.fresh with counter := a.counter, dirty := a.dirty, wroteAt := a.wroteAt } }) s
    modTrl (fun x => { x with cfg := trlCfgFresh }) s
  else if d = 1 || d = 2 then
    let p : Fin 2 := Fin.ofNat 2 (d.val - 1)
    modEth p (fun _ => EthPort.fresh p) s
  else if d.val ≤ 4 then
    (List.range 6).foldl (fun s i =>
      let c : Fin 6 := Fin.ofNat 6 i
      if canDomain c = d then modCan c (fun _ => CanPort.fresh) s else s) s
  else if d = 5 then (List.range 8).foldl (fun s i => modLin (Fin.ofNat 8 i) (fun _ => LinPort.fresh) s) s
  else if isOutDom d then (domOuts d).foldl (fun s n =>
    modPrune (outIdx n) (fun _ => PruneSt.fresh) (modOut n (fun c => { OutSt.fresh n with offSince := c.offSince, mirAt := c.mirAt }) s)) s
  else if d = 10 then
    let s := allBrs.foldl (fun s k => modPrune (brIdx k) (fun _ => PruneSt.fresh) (modBr k (fun _ => BrSt.fresh) s)) s
    let s := allVls.foldl (fun s n => modPrune (vlIdx n) (fun _ => PruneSt.fresh) (modVl n (fun _ => VlSt.fresh) s)) s
    (List.range 4).foldl (fun s g => modVh (Fin.ofNat 4 g) (fun _ => VhSt.fresh) s) s
  else if d = 11 then
    modIo (fun x => { x with sw := x.sw.map fun y => { y with cfg := merge y.cfg SwSt.fresh.cfg 0x0FFF6000 }
                             an := x.an.map fun y => { y with cfg2 := AnSt.fresh.cfg2, cfg3 := AnSt.fresh.cfg3 } }) s
  else if d = 12 then modIo (fun x => { x with fi := x.fi.map fun _ => FiSt.fresh, fq := x.fq.map fun _ => FqSt.fresh }) s
  else if d = 13 then modAcc (fun x => { x with lf := Vector.ofFn LfDrv.fresh }) s
  else if d = 15 then modAlm (fun a => { a with rates := [], cfg := AlmSt.fresh.cfg }) s
  else s

/-- The block's conversions stand in this domain (R513, Table 17-2). -/
def blockDomain (b : Fin 25) : Fin 16 :=
  if b.val < 12 then Fin.ofNat 16 (6 + b.val / 3) else if b.val < 16 then 10 else if b.val < 18 then 11
  else if b.val = 18 then 12 else if b.val = 19 then 13 else if b.val = 20 || b.val = 24 then 0
  else if b.val = 21 then 1 else if b.val = 22 then 14 else 15

/-- A region's domain comes on from off: a stopped ADC resumes and the region's sensors are judged afresh (R248, R514). -/
def regionBack (d : Fin 16) (s : State) : State :=
  let s := (List.range 18).foldl (fun s i =>
    let b : Fin 25 := Fin.ofNat 25 i
    if blockDomain b = d then modBlk b (fun x => { x with selfFail := false, selfInj := false }) (recoverFault b 1 s) else s) s
  (List.range 7).foldl (fun s i =>
    let r : Fin 7 := Fin.ofNat 7 i
    if (regionDomains r).contains d && (regionDomains r).all (fun e => e = d || !domOn e s) then
      recoverFault (regionBlock r) 3 (modReg r (fun x => { x with invalid := [], deviant := [] }) s)
    else s) s

/-- No conversion since the domain has come on (Tables 5-9, 8-11, 9-8, 10-8, 10-11), and its block cycles start afresh (R187). -/
def readingsAfresh (d : Fin 16) (s : State) : State :=
  let s := (List.range 25).foldl (fun s i =>
    let b : Fin 25 := Fin.ofNat 25 i
    if blockDomain b = d then modSeq b (fun _ => AdcSeq.fresh) s else s) s
  if isOutDom d then (domOuts d).foldl (fun s n => modOut n (fun c => { c with rb := { c.rb with gotI := false, gotV := false } }) s) s
  else if d = 10 then
    let s := allBrs.foldl (fun s k => modBr k (fun b => { b with timeI := none, timeA := none, timeB := none }) s) s
    let s := allVls.foldl (fun s n => modVl n (fun v => { v with timeV := none }) s) s
    (List.range 4).foldl (fun s g => modVh (Fin.ofNat 4 g) (fun h => { h with timeI := none, timeV := none }) s) s
  else if d = 12 then allVls.foldl (fun s n => modFi n (fun x => { x with valid := false, runAt := none }) s) s
  else if d = 11 then (List.range 12).foldl (fun s m => modAn (Fin.ofNat 12 m) (fun x => { x with valid := false }) s) s
  else s

/-- The timers that stop in retention go on (R219): tRTY of the cells and headers. -/
def timersOn (d : Fin 16) (s : State) : State :=
  let t := s.dom.dom[d].retAt
  let shift (at_ : Nat) : Nat := at_ + (now s - max t at_)
  if isOutDom d then (domOuts d).foldl (fun s n => modOut n (fun c => { c with coolFrom := shift c.coolFrom }) s) s
  else if d = 10 then (List.range 4).foldl (fun s g => modVh (Fin.ofNat 4 g) (fun h => { h with coolFrom := shift h.coolFrom }) s) s
  else s

/-- Units of a region in undervoltage come on undervoltage-off (R245). -/
def uvHolds (r : Fin 7) (s : State) : State :=
  if s.regs[r].uv then
    (regionUnits r).foldl (fun s i =>
      if isOutIdx i then modOut (asOut i) (fun c => { c with uvOff := true }) s
      else if isBrIdx i then modBr (asBr i) (fun b => { b with uvOff := true }) s
      else modVl (asVl i) (fun v => { v with uvOff := true }) s) s
  else s

/-- The domain has reached on, from off or from retention. -/
def enterOn (d : Fin 16) (fromOff : Bool) (s : State) : State :=
  let s := if fromOff && imageFails d s then loseImage d s else s
  let s := if fromOff then regionBack d s else timersOn d s
  let s := readingsAfresh d s
  if isOutDom d then
    let r : Fin 7 := Fin.ofNat 7 (d.val - 6)
    let s := uvHolds r (if fromOff then (domOuts d).foldl (fun s n => loadLearned n s) s else s)
    let s := (domOuts d).foldl (fun s n => modOut n (fun c =>
      { c with cleanAt := now s, pwm := { c.pwm with waitFrom := if 2 ≤ c.mode.toNat then some (zone s) else none } }) s) s
    (domOuts d).foldl (fun s n => settle n s) (applyPruning r s)
  else if d = 10 then
    let s := uvHolds 4 (if fromOff then allBrs.foldl (fun s k => loadProfile k s) s else s)
    let s := (List.range 4).foldl (fun s g => modVh (Fin.ofNat 4 g) (fun h => { h with cleanAt := now s }) s) s
    let s := applyPruning 4 s
    allVls.foldl (fun s n => vlGate n s) (allBrs.foldl (fun s k => brGate k s) s)
  else if d = 11 then rakeUp s
  else if d = 14 then if fromOff then keysOn s else s
  else if d = 15 then if fromOff then ratesFull s else s
  else if 1 ≤ d.val && d.val ≤ 5 then netsUp d s
  else s

/-! ### The regulators and the root (R151 to R154) -/

/-- Every domain is in retention or off. -/
def allDown (s : State) : Bool := (List.range 16).all fun d =>
  domState (Fin.ofNat 16 d) s == .off || domState (Fin.ofNat 16 d) s == .ret

/-- No domain is on any more: the main regulator stops unless R153 holds it, the root stops, and D00 in retention with
packets in its scheduler arms the scheduler timer, in AO clock time (R151, R152). -/
def followRoot (s : State) : State :=
  if allDown s && s.dom.root && s.dom.rootAt.isNone then
    let s := loseSync { s with dom := { s.dom with mainReg := s.dom.lpForced, root := false } }
    let ts := if domState 0 s == .ret then s.cmd.sched.filterMap (·.effect) else []
    let timer := match ts with
      | [] => none
      | t :: r =>
        let left := r.foldl min t - zone s
        some (aoTime s + (left - 2 * Config.ms - left / 200))
    { s with dom := { s.dom with schedTimer := timer } }
  else s

/-- ROOT_RESTART_DONE (R151). -/
def rootRestartDone (s : State) : State :=
  match s.dom.rootAt with
  | some t => if t ≤ now s then { s with dom := { s.dom with root := true, rootAt := none } } else s
  | none => s

/-- LP_HANDOVER (R153): with no domain on the low-power load reaches 1.6 mA. -/
def lpHandover (loadUA : Nat) (deciC : Int) (s : State) : State :=
  let s := { s with dom := { s.dom with lpLoad := min 8191 loadUA, lpLowSince := none } }
  if allDown s && 1600 ≤ loadUA && !s.dom.mainReg then
    let held := (List.range 16).foldl (fun m d => if domState (Fin.ofNat 16 d) s == .ret then m + 2 ^ d else m) 0
    let s := { s with dom := { s.dom with mainReg := true, lpForced := true } }
    note 0x0104 warning 0 0 (min 8191 loadUA) held (twos 32 deciC) (stickReg 0b1000 s)
  else s

/-- LP_RELEASE (R153): the load has stayed below 1.2 mA for 100 ms. -/
def lpRelease (loadUA : Nat) (s : State) : State :=
  let low := if loadUA < 1200 then some (s.dom.lpLowSince.getD (now s)) else none
  let s := { s with dom := { s.dom with lpLoad := min 8191 loadUA, lpLowSince := low } }
  if s.dom.lpForced && low.any (fun t => decide (t + 100 * Config.ms ≤ now s)) then
    { s with dom := { s.dom with mainReg := false, lpForced := false, lpLowSince := none } }
  else s

/-! ### DOMAIN_TRANSITION_DONE (R129, R138) -/

def reachDown (d : Fin 16) (st : DomState) (s : State) : State :=
  let up := s.dom.dom[d].upAfter
  let s := modDom d (fun x => { x with st := st, upAfter := false, retAt := if st == .ret then now s else x.retAt }) s
  let s := if st == .off then enterOff d (saveImage d s) else enterRet d s
  if up then startUp d s else followRoot s

def reachOn (d : Fin 16) (fromOff : Bool) (s : State) : State :=
  if s.dom.root then enterOn d fromOff (modDom d (fun x => { x with st := .on, idleSince := now s }) s) else s

def domainTransitionDone (d : Fin 16) (s : State) : State :=
  match domState d s with
  | .toRet => if downReady d true s then reachDown d .ret s else s
  | .toOff => if downReady d false s then reachDown d .off s else s
  | .retToOn => reachOn d false s
  | .offToOn => if d = 15 || domOn 15 s then reachOn d true s else wakeInternal 15 s
  | _ => s

/-! ### DOMAIN_SET (R134 to R139) -/

/-- Payload fields of Table 4-4: target of a domain: 0 off, 1 retention, 2 on, 3 no change. -/
def dsTarget (t : Word) (d : Fin 16) : Nat := fld t (2 * d.val) 2

/-- Turn-downs of R135. -/
def turnDownOrder : List (Fin 16) := [13, 12, 11, 10, 9, 8, 7, 6, 5, 4, 3, 2, 1, 14, 15, 0]

/-- The reply-path domains of the request's host (R137). -/
def replyPathDomains (q : QPkt) (s : State) : List (Fin 16) :=
  if hlt : q.pkt.host.val < 14 then
    match (s.hosts[q.pkt.host.val]'hlt).reg with
    | some r => [Fin.ofNat 16 (1 + r.port.val), 0]
    | none => [0]
  else [0]

def modDSet (f : DSet → DSet) (s : State) : State := { s with dom := { s.dom with dset := s.dom.dset.map f } }

/-- A DOMAIN_SET refuses a domain: REFUSED and LAST_REFUSAL, both RC; event 235 when a bit of either sets (R161). -/
def refuseDom (d : Fin 16) (r : BitVec 4) (s : State) : State :=
  let x := s.dom.dom[d]
  raiseIf (fresh x.sticky 0b000010 || fresh x.lastRefusal r) 235
    (modDom d (fun x => { x with sticky := x.sticky ||| 0b000010, lastRefusal := r }) s)

/-- Record an outcome of Table 4-5 for a domain: 1 done, 2 deferred, 3 refused with its reason. -/
def dsOutcome (d : Fin 16) (o : Nat) (r : Nat) (s : State) : State :=
  let s := modDSet (fun x => { x with outcome := x.outcome.set d (BitVec.ofNat 2 o), reason := x.reason.set d (BitVec.ofNat 4 r) }) s
  if o = 3 then refuseDom d (BitVec.ofNat 4 r) s else s

/-- DOMAIN_SET begins (R135): attributes first; a target other than 11b cancels an internal return (R142). A reflex may not target D00
(R349); the spec names no status for one that does (log entry 23). -/
def domainSet (q : QPkt) (s : State) : Option Ans × State :=
  let b := q.pkt.payload
  let t := wordAt b 0
  if q.pkt.host = 11 && dsTarget t 0 ≠ 3 then refuse stBadParam s else
  let w := halfAt b 4
  let v := halfAt b 6
  let s := (List.range 16).foldl (fun s i =>
    let d : Fin 16 := Fin.ofNat 16 i
    let s := if w.getLsbD i then modDom d (fun x => { x with woa := v.getLsbD i }) s else s
    if dsTarget t d = 3 then s else modDom d (fun x => { x with returnTo := none, intHeld := false }) s) s
  let path := replyPathDomains q s
  let turns := turnUpOrder.filter (fun d => dsTarget t d = 2)
    ++ turnDownOrder.filter fun d => dsTarget t d ≤ 1 && !path.contains d
  let x : DSet :=
    { q := q, target := t, force := (byteAt b 8).getLsbD 0, turns := turns, outcome := Vector.replicate 16 0
      reason := Vector.replicate 16 0, started := 0, lastTurn := none, recorded := false }
  (none, { s with dom := { s.dom with dset := some x } })

def opDomainSet : OpSpec :=
  { chipOp 12 [] (fun b => zeroAt [9, 10, 11] b && onlyBits 8 1 b) (fun q s => domainSet q s) with doms := fun _ => [] }

def inTransition (d : Fin 16) (s : State) : Bool :=
  match domState d s with | .off | .ret | .on => false | _ => true

/-- Every transition that the request has started is over. -/
def dsSettled (x : DSet) (s : State) : Bool :=
  (List.range 16).all fun i => !x.started.getLsbD i || !inTransition (Fin.ofNat 16 i) s

/-- The turn-downs of the request among its reply-path domains, in order. -/
def pathDowns (x : DSet) (s : State) : List (Fin 16) :=
  let path := replyPathDomains x.q s
  turnDownOrder.filter fun d => path.contains d && dsTarget x.target d ≤ 1

/-- A reply-path domain to be turned down is in a transition, after which it is judged (R138). -/
def pathMoves (x : DSet) (s : State) : Bool := (pathDowns x s).any (inTransition · s)

/-- The turn of a domain cannot be taken yet: it is in a transition down to be judged after (R138), D14's update must
commit (R469), or D15 comes after everything else (Table 4-6). -/
def turnWaits (x : DSet) (d : Fin 16) (s : State) : Bool :=
  let t := dsTarget x.target d
  if t = 2 then false
  else inTransition d s || (d = 14 && t = 1 && !s.ks.updates.isEmpty)
    || (d = 15 && (x.turns.any (· ≠ 15) || !dsSettled x s || pathMoves x s))

/-- The checks of the reply-path domains and the records of the request (R137, Table 4-17). -/
def dsFinish (s : State) : State :=
  match s.dom.dset with
  | none => s
  | some x =>
    if x.recorded then s
    else
      let own (d : Fin 16) : Nat :=
        let t := dsTarget x.target d
        let r := if domState d s == .off then 1 else downReason d (t = 1) s
        if forceable r && x.force then 0 else r
      let todo := (pathDowns x s).filter fun d => match domState d s with
        | .ret => dsTarget x.target d ≠ 1
        | .off => dsTarget x.target d ≠ 0
        | _ => true
      let s := todo.foldl (fun s d => if own d = 0 then s else dsOutcome d 3 (own d) s) s
      let refused := (List.range 16).any fun i => ((s.dom.dset.getD x).outcome[Fin.ofNat 16 i]) == 3
      let s := todo.foldl (fun s d => if own d ≠ 0 then s else if refused then dsOutcome d 3 8 s else dsOutcome d 1 0 s) s
      let x := s.dom.dset.getD x
      let mask (o : Nat → Bool) : Nat := (List.range 16).foldl (fun m i => if o (x.outcome[Fin.ofNat 16 i]).toNat then m + 2 ^ i else m) 0
      let state := (List.range 16).foldl (fun m i =>
        let d : Fin 16 := Fin.ofNat 16 i
        let o := (x.outcome[d]).toNat
        m + 4 ^ i * (if o = 1 || o = 2 then dsTarget x.target d else (domState d s).code)) 0
      let s := note 0x0101 info 0 0 (mask fun o => o = 1 || o = 2) state x.q.pkt.host.val s
      let reasons := (List.range 16).foldl (fun m i => m + 16 ^ i * (x.reason[Fin.ofNat 16 i]).toNat) 0
      let s := if mask (· = 3) = 0 then s
        else note 0x0102 warning 0 0 (mask (· = 3)) (reasons % 2 ^ 32) (reasons / 2 ^ 32) s
      modDSet (fun x => { x with recorded := true }) s

/-- One domain's turn (R135, R138, R139). -/
def dsTurn (x : DSet) (d : Fin 16) (s : State) : State :=
  let t := dsTarget x.target d
  let drop := modDSet fun x => { x with turns := x.turns.filter (· ≠ d) }
  let start := modDSet fun x => { x with started := x.started ||| BitVec.ofNat 16 (2 ^ d.val), lastTurn := some (now s) }
  if t = 2 then
    match domState d s with
    | .on => drop s
    | st =>
      if s.boot.condition = 3 then dsOutcome d 3 6 (drop s)
      else
        let s := dsOutcome d (if st == .toOff || st == .toRet then 2 else 1) 0 (start (drop s))
        startUp d s
  else
    match domState d s with
    | .off => if t = 1 then dsOutcome d 3 1 (drop s) else drop s
    | .ret => if t = 1 then drop s else startUp d (start s)
    | _ =>
      let r := downReason d (t = 1) s
      if r ≠ 0 && !(forceable r && x.force) then dsOutcome d 3 r (drop s)
      else
        let s := dsOutcome d 1 0 (start (drop s))
        let s := if d = 15 then dsFinish s else s
        startDown d (t = 1) (r ≠ 0) x.q.pkt.host s

/-- DOMAIN_SET_TURN (R135): the first domain whose turn has come, at most one each 10 us. -/
def domainSetTurn (s : State) : State :=
  match s.dom.dset with
  | some x =>
    if x.lastTurn.any (fun t => decide (now s < t + 10 * Config.us)) then s
    else match x.turns.find? fun d => !turnWaits x d s with
      | some d => dsTurn x d s
      | none => s
  | none => s

/-- Reply data (Table 4-5). -/
def dsData (x : DSet) (s : State) : List Byte :=
  let pack (w : Nat) (f : Fin 16 → Nat) : Nat := (List.range 16).foldl (fun m i => m + 2 ^ (w * i) * f (Fin.ofNat 16 i)) 0
  be 4 (pack 2 fun d => (x.outcome[d]).toNat) ++ be 8 (pack 4 fun d => (x.reason[d]).toNat)
    ++ be 4 (pack 2 fun d => (domState d s).code)

/-- A reply marked for DOMAIN_SET has not left yet. -/
def markedReply (s : State) : Bool :=
  s.cmd.replyWait.any (·.mark == .domainSet) || s.hosts.toList.any fun h => h.out.any (·.mark == .domainSet)

/-- The instants of the reply-path turn-downs, from the leaving of the reply on (R137). -/
def replyPathArm (s : State) : State :=
  let t := now s + Config.tAfterReply
  let l := s.dom.replyPath.map fun e => { e with at_ := some (e.at_.getD t) }
  { s with dom := { s.dom with replyPath := l } }

/-- DOMAIN_SET_REPLY (R136, R137). -/
def domainSetReply (s : State) : State :=
  match s.dom.dset with
  | none => s
  | some x =>
    if !x.turns.isEmpty || !dsSettled x s || pathMoves x s then s
    else
      let s := dsFinish s
      let x := s.dom.dset.getD x
      let os := x.outcome.toList
      let refused := (os.filter (· == 3)).length
      let ans : Ans := ⟨if refused ≠ 0 then stPartial else if os.contains 2 then stDeferred else 0, BitVec.ofNat 16 refused, dsData x s⟩
      let down := (pathDowns x s).filter fun d => x.outcome[d] == 1
      let l : List PathDown := down.map fun d =>
        let toRet := decide (dsTarget x.target d = 1)
        ⟨d, toRet, downReason d toRet s ≠ 0, x.q.pkt.host, none⟩
      let s := { s with dom := { s.dom with dset := none, replyPath := l } }
      let s := complete x.q ans s .domainSet
      if markedReply s then s else replyPathArm s

/-- REPLY_PATH_TURNDOWN (R137): 100 us after the reply has left, one each 10 us. -/
def replyPathTurndown (s : State) : State :=
  match s.dom.replyPath with
  | e :: rest =>
    if e.at_.any (fun t => decide (t ≤ now s)) && !inTransition e.dom s then
      let rest := rest.map fun x => { x with at_ := x.at_.map (max (now s + 10 * Config.us)) }
      let s' := { s with dom := { s.dom with replyPath := rest } }
      match domState e.dom s with
      | .on => startDown e.dom e.toRet e.forced e.host s'
      | .ret => if e.toRet then s' else startUp e.dom s
      | _ => s'
    else s
  | [] => s

/-! ### Internal returns (R142) -/

/-- The work of an internally woken domain is done. -/
def workDone (d : Fin 16) (s : State) : Bool :=
  if d = 0 then
    s.cmd.waiting.isEmpty && s.cmd.authWait.isEmpty && s.cmd.replyWait.isEmpty && s.rfx.fired.isEmpty && !chainOpen s
      && !(s.rfx.entries.toList.any fun e => e.timerAt.isSome || e.waiting.isSome)
      && !(s.cmd.sched.any fun q => q.pkt.host = 11)
  else if d = 13 then s.acc.exch.isNone && s.acc.tp.isNone && !polling s
  else if d = 14 then s.cmd.authWait.isEmpty && s.cmd.replyWait.isEmpty && s.net.authRx.isEmpty && !s.ks.reload
  else if d = 15 then s.alm.flush.isNone && s.alm.writes.isEmpty && !s.alm.again && s.ks.updates.isEmpty && !s.ks.reload
      && !((List.range 16).any fun i => domState (Fin.ofNat 16 i) s == .offToOn)
  else true

/-- INTERNAL_WAKE_RETURN. -/
def internalWakeReturn (d : Fin 16) (s : State) : State :=
  match s.dom.dom[d].returnTo with
  | none => s
  | some r =>
    let s' := modDom d (fun x => { x with returnTo := none, intHeld := false }) s
    if domState d s != .on || !workDone d s || now s < s.dom.dom[d].idleSince + Config.tIWH then s
    else if r == .ret then
      if downReason d true s ≠ 0 then modDom d (fun x => { x with intHeld := true, idleSince := now s }) s
      else startDown d true false 13 s'
    else if d = 0 && !s.cmd.sched.isEmpty then modDom d (fun x => { x with intHeld := true, idleSince := now s }) s
    else if downReason d false s ≠ 0 then modDom d (fun x => { x with intHeld := true, idleSince := now s }) s
    else startDown d false false 13 s'

/-! ### Wake detectors of the always-on section (R141, R144 to R150) -/

/-- WAKE_LAND_EDGE (R144): an edge that is followed by 50 us at the new level fires; a shorter pulse only moves the level from
which the next edge is seen. -/
def wakeLandEdge (l : Fin 2) (level : Bool) (held : Nat) (s : State) : State :=
  if s.dom.wakeLevel[l] == level then s
  else
    let s := { s with dom := { s.dom with wakeLevel := s.dom.wakeLevel.set l level } }
    if held < 50 * Config.us then s else detect 8 l.val s

def modWake (code idx : Nat) (w : WakeCfg) (s : State) : State :=
  { s with dom := { s.dom with wake := s.dom.wake.set (wakeSlot code idx) w } }

/-- TIMER_WAKE_EXPIRY (R147). -/
def timerWakeExpiry (s : State) : State :=
  match s.dom.timerAt with
  | some t =>
    if t ≤ aoTime s then
      let w := s.dom.wake[wakeSlot 9 0]
      let s := detect 9 0 { s with dom := { s.dom with timerAt := none } }
      modWake 9 0 { enable := false, set := w.set } s
    else s
  | none => s

/-- SCHEDULER_TIMER_FIRE (R152): detector 0Ah, wake set D00. -/
def schedulerTimerFire (s : State) : State :=
  match s.dom.schedTimer with
  | some t => if t ≤ aoTime s then fireDetector 0x0A 0 1 { s with dom := { s.dom with schedTimer := none } } else s
  | none => s

/-! ### WAKE_CONFIG, LAST_WAKE, TIMER_WAKE (R146 to R150) -/

/-- Indices of detectors 01h to 09h (Table 4-9). -/
def wakeIndices (code : Nat) : Nat := [0, 6, 6, 8, 2, 64, 6, 1, 2, 1].getD code 0

def opWakeConfig : OpSpec :=
  chipOp 6 [] (fun b => zeroAt [3] b && onlyBits 2 1 b) fun q s =>
    let b := q.pkt.payload
    let code := (byteAt b 0).toNat
    let idx := (byteAt b 1).toNat
    let en := (byteAt b 2).getLsbD 0
    let set : BitVec 16 := halfAt b 4 ||| 1
    if wakeIndices code = 0 || (idx ≠ 0xFF && wakeIndices code ≤ idx) then refuse stBadParam s
    else if code = 9 then
      if en then done .ok (if s.dom.timerAt.isSome then modWake 9 0 { enable := true, set := set } s
        else modWake 9 0 { (s.dom.wake[wakeSlot 9 0]) with set := set } s)
      else done .ok (modWake 9 0 { enable := false, set := set } { s with dom := { s.dom with timerAt := none } })
    else
      let is := (List.range (wakeIndices code)).filter fun i => idx = 0xFF || i = idx
      done .ok (is.foldl (fun s i => modWake code i { enable := en, set := set } s) s)

def opLastWake : OpSpec :=
  chipOp 0 [] (fun _ => true) fun _ s =>
    let l := s.dom.lastWake
    done (.ok ([l.source, l.index] ++ be 2 l.count.toNat ++ be 6 l.life.toNat ++ be 2 l.domains.toNat
      ++ be 1 (if l.duringDown then 1 else 0) ++ [l.concurrent] ++ be 2 0)) s

def opTimerWake : OpSpec :=
  chipOp 6 [] (fun _ => true) fun q s =>
    let b := q.pkt.payload
    let ms := numAt b 0 4
    if ms = 0 then
      let w := s.dom.wake[wakeSlot 9 0]
      done .ok (modWake 9 0 { enable := false, set := w.set } { s with dom := { s.dom with timerAt := none } })
    else done .ok (modWake 9 0 { enable := true, set := halfAt b 4 ||| 1 }
      { s with dom := { s.dom with timerAt := some (aoTime s + ms * Config.ms) } })

end Sys2Proof.Machine
end

