-- ==== Sys2Proof/Machine/Faults.lean ====
section
/-! DEFINITION. The conversion slots of the block ADCs, the checkers of Table 17-2, the fatal path, and fault injection
(R187, R304, R511 to R525). -/

namespace Sys2Proof.Machine

/-! ### ADC slots (R187, R304, R513) -/

/-- Keep a unit's readings as they stood at the start of its block's cycle. -/
def holdRb (b : Fin 25) (same : HeldRb → Bool) (h : HeldRb) (s : State) : State :=
  if s.adc[b].any same then s else { s with adc := s.adc.set b (h :: s.adc[b]) }

/-- Put one held reading back. -/
def restoreRb (s : State) (h : HeldRb) : State :=
  match h with
  | .out n rb => modOut n (fun c => { c with rb := rb }) s
  | .br k cur va vb i a b =>
    modBr k (fun x => { x with current := cur, va := va, vb := vb, timeI := i, timeA := a, timeB := b }) s
  | .vl n volt t => modVl n (fun v => { v with volt := volt, timeV := t }) s
  | .vh g cur volt i v => modVh g (fun h => { h with current := cur, volt := volt, timeI := i, timeV := v }) s
  | .an m x => modAn m (fun y => { y with convs := x.convs, code := x.code, valid := x.valid, below := x.below
                                          above := x.above, convAt := x.convAt }) s

def HeldRb.isOut (n : Fin 96) : HeldRb → Bool | .out m _ => decide (m = n) | _ => false
def HeldRb.isBr (k : Fin 8) : HeldRb → Bool | .br j _ _ _ _ _ _ => decide (j = k) | _ => false
def HeldRb.isVl (n : Fin 16) : HeldRb → Bool | .vl m _ _ => decide (m = n) | _ => false
def HeldRb.isVh (g : Fin 4) : HeldRb → Bool | .vh m _ _ _ _ => decide (m = g) | _ => false
def HeldRb.isAn (m : Fin 12) : HeldRb → Bool | .an j _ => decide (j = m) | _ => false

/-- The block has an ADC with a self-check slot (Table 17-2). -/
def hasAdc (b : Fin 25) : Bool := b.val < 16 || b.val = 17
/-- The block's ADC converts: its domain is on and its contained fault is not in force. -/
def adcRuns (b : Fin 25) (s : State) : Bool := hasAdc b && domOn (blockDomain b) s && !inForce b 1 s

/-- A slot of a block's cycle (R187, R304): the current or the voltage of the unit at a position, or one of the two checks. -/
inductive SlotKind where
  | current (i : Nat)
  | voltage (i : Nat)
  | selfCheck
  | pump
  deriving DecidableEq, Repr

/-- The slot at a place of the block's cycle: 18 slots of a block of eight cells or legs; 14 of a valve block, whose valves have a drain
voltage only. -/
def slotAt (b : Fin 25) (pos : Nat) : SlotKind :=
  if b.val < 14 then
    if pos < 16 then (if pos % 2 = 0 then .current (pos / 2) else .voltage (pos / 2)) else if pos = 16 then .selfCheck else .pump
  else if pos < 8 then .voltage pos
  else if pos < 12 then (if pos % 2 = 0 then .current (8 + (pos - 8) / 2) else .voltage (8 + (pos - 8) / 2))
  else if pos = 12 then .selfCheck else .pump

def cycleLen (b : Fin 25) : Nat := if b.val < 14 then 18 else 14

/-- The cell of an OUT block at a position. -/
def blockCell (b : Fin 25) (i : Nat) : Fin 96 := Fin.ofNat 96 (8 * b.val + i)

/-- How long a conversion waits for an on-phase (R187). -/
def tPwmWait : Nat := 10 * Config.ms

/-- The next slot of a block, and whether it is inserted into the cycle (R187): the lowest unit that has tripped or latched first, then a
cell in PWM whose conversion waits and whose on-phase allows it. -/
def dueSlot (b : Fin 25) (s : State) : SlotKind × Bool :=
  let q := s.seqs[b]
  match q.tripped.min? with
  | some i => (.current i, true)
  | none =>
    match ((q.waits.filter fun w => decide (now s ≤ w.2) && inOnPhase (blockCell b w.1) s).map (·.1)).min? with
    | some i => (.current i, true)
    | none => (slotAt b q.pos, false)

/-- The slot has been used: an inserted one leaves the cycle where it stands. -/
def slotDone (b : Fin 25) (k : SlotKind) (inserted : Bool) (s : State) : State :=
  modSeq b (fun q => if inserted then
      match k with
      | .current i => { q with tripped := q.tripped.filter (· ≠ i), waits := q.waits.filter (·.1 ≠ i) }
      | _ => q
    else { q with pos := (q.pos + 1) % cycleLen b }) s

/-- A conversion of the unit at position `i` of a block's cycle. -/
def adcConvert (b : Fin 25) (k : SlotKind) (uA mV tj vs : Int) (s : State) : State :=
  if b.val < 12 then
    match k with
    | .current i =>
      let n := blockCell b i
      cellCurrent n uA tj (holdRb b (·.isOut n) (.out n s.outs[n].rb) s)
    | .voltage i =>
      let n := blockCell b i
      cellVoltage n mV tj vs (holdRb b (·.isOut n) (.out n s.outs[n].rb) s)
    | _ => s
  else if b.val < 14 then
    let held (n : Fin 16) : State :=
      let x := s.brs[legBridge n]
      holdRb b (·.isBr (legBridge n)) (.br (legBridge n) x.current x.va x.vb x.timeI x.timeA x.timeB) s
    match k with
    | .current i => let n : Fin 16 := Fin.ofNat 16 (8 * (b.val - 12) + i); legCurrent n (uA / 1000) tj (held n)
    | .voltage i => let n : Fin 16 := Fin.ofNat 16 (8 * (b.val - 12) + i); legVoltage n mV tj (held n)
    | _ => s
  else if b.val < 16 then
    let held (g : Fin 4) : State :=
      let h := s.vhs[g]
      holdRb b (·.isVh g) (.vh g h.current h.volt h.timeI h.timeV) s
    match k with
    | .current i => let g : Fin 4 := Fin.ofNat 4 (2 * (b.val - 14) + (i - 8)); headerCurrent g (uA / 1000) tj (held g)
    | .voltage i =>
      if i < 8 then
        let n : Fin 16 := Fin.ofNat 16 (8 * (b.val - 14) + i)
        valveReading n mV tj (holdRb b (·.isVl n) (.vl n s.vls[n].volt s.vls[n].timeV) s)
      else let g : Fin 4 := Fin.ofNat 4 (2 * (b.val - 14) + (i - 8)); headerVoltage g mV tj (held g)
    | _ => s
  else s

/-- The slot of a unit. The regular current slot of a cell in PWM converts nothing outside an on-phase that is long enough, and its
conversion then waits (R187). -/
def cellSlot (b : Fin 25) (i : Nat) (uA mV tj vs : Int) (s : State) : State :=
  let d := dueSlot b s
  if d.1 = .current i || d.1 = .voltage i then
    let s' := slotDone b d.1 d.2 s
    let n := blockCell b i
    if b.val < 12 && d == (.current i, false) && pwmCell n s && !inOnPhase n s then
      modSeq b (fun q => { q with waits := (i, now s + tPwmWait) :: q.waits.filter (·.1 ≠ i) }) s'
    else adcConvert b d.1 uA mV tj vs s'
  else s

/-- The FAULT_CLEAR that waits for slots of this block (R522). -/
def clearSlot (b : Fin 25) (ok : Bool) (s : State) : State :=
  match s.flt.clear.find? (fun x => x.2.1 = b) with
  | none => s
  | some (q, _, n) =>
    let rest := s.flt.clear.filter (fun x => x.2.1 ≠ b)
    if !ok then complete q (.err stContained) { s with flt := { s.flt with clear := rest } }
    else if n ≤ 1 then
      let s := recoverFault b 1 { s with flt := { s.flt with clear := rest } }
      complete q (.ok) (blockRecord 0x1007 info 0 b 1 q.pkt.host.val false s)
    else { s with flt := { s.flt with clear := rest ++ [(q, b, n - 1)] } }

/-- A self-check slot (R513): the first failing slot discards the conversions of its cycle, the next one decides. -/
def selfCheck (b : Fin 25) (ok : Bool) (s : State) : State :=
  if inForce b 1 s then
    if s.flt.clear.any (fun x => x.2.1 = b) then
      let r := injTake 1 b s
      clearSlot b (ok && !r.1) r.2
    else s
  else
    let r := injTake 1 b s
    let x := r.2.flt.blocks[b]
    let held := r.2.adc[b]
    let s := { r.2 with adc := r.2.adc.set b [] }
    if ok && !r.1 then
      let s := modBlk b (fun x => { x with selfFail := false, selfInj := false }) s
      let s := if x.selfFail then correctedFault b 1 x.selfInj s else s
      clearSlot b true s
    else
      let s := held.foldl restoreRb s
      if x.selfFail then
        containedFault b 1 0 true (x.selfInj || r.1) (modBlk b (fun x => { x with selfFail := false, selfInj := false }) s)
      else modBlk b (fun x => { x with selfFail := true, selfInj := r.1 }) s

/-- ADC_SLOT (R187, R304): the next slot of the block. A row of another slot than the one that comes next, or a conversion of a block whose
ADC is stopped, changes nothing (log entry 8); nor does what a charge-pump slot finds. The analog block's self-check stands in no order. -/
def adcSlot (b : Fin 25) (slot : AdcSlot) (s : State) : State :=
  let on := hasAdc b && domOn (blockDomain b) s
  let due (k : SlotKind) : Bool := dueSlot b s == (k, false)
  match slot with
  | .cell i uA mV tj vs => if adcRuns b s && b.val < 16 then cellSlot b i.val uA mV tj vs s else s
  | .selfCheck ok =>
    if on && (b.val = 17 || inForce b 1 s) then selfCheck b ok s
    else if on && due .selfCheck then selfCheck b ok (slotDone b .selfCheck false s)
    else s
  | .chargePump _ => if adcRuns b s && b.val < 16 && due .pump then slotDone b .pump false s else s

/-- ANALOG_CONVERSION (R323): a conversion of block 17. -/
def analogSlot (m : Fin 12) (code : BitVec 12) (s : State) : State :=
  analogConversion m code.toNat (if adcRuns 17 s then holdRb 17 (·.isAn m) (.an m s.io.an[m]) s else s)

/-! ### What a restart discards (R85, R108, R517) -/

def muteQ (q : QPkt) : QPkt := { q with pkt := { q.pkt with replyWanted := false }, chain := none }

/-- Scheduled packets held or staged (Table 3-10). -/
def schedCount (s : State) : Nat :=
  ((s.cmd.sched ++ s.cmd.waiting).filter (fun q => q.pkt.time.isSome && q.effect.isSome)).length

/-- Every packet in every queue, in the scheduler, in a chain and in every outgoing buffer goes without reply (R85). Work a
unit has begun goes on, and its packet gets no reply any more. -/
def discardPackets (s : State) : State :=
  let n := schedCount s
  let s := s.cmd.sched.foldl (fun s q => unstageUnits q s) (s.cmd.waiting.foldl (fun s q => unstageUnits q s) s)
  let hosts := s.hosts.map fun x => { x with out := [], chain := ChainSt.fresh }
  let s := { s with hosts := hosts, boot := { s.boot with discarded := n }, rfx := { s.rfx with fired := [] } }
  let s := modCmd (fun c => { c with waiting := [], sched := [], authWait := [], chains := [], replyWait := [], restart := none }) s
  let s := { s with dom := { s.dom with dset := none, replyPath := s.dom.replyPath.filter (·.at_.isSome) } }
  let s := modAcc (fun a => { a with waits := [], exch := a.exch.map fun e => { e with q := muteQ e.q }
                                     tp := a.tp.map fun t => { t with q := muteQ t.q } }) s
  let s := modNet (fun x => { x with txWait := [] }) s
  let s := modTrl (fun x => { x with reqs := [], bcasts := [], working := [] }) s
  let s := modKs (fun k => { k with updates := k.updates.map fun u => (u.1, muteQ u.2) }) s
  let flush := s.alm.flush.map fun f => { f with waits := f.waits.map muteQ }
  let writes := s.alm.writes.map fun w => { w with q := w.q.map muteQ }
  let s := modAlm (fun a => { a with flushWait := a.flushWait.map muteQ, flush := flush, writes := writes }) s
  { s with flt := { s.flt with clear := s.flt.clear.map fun x => (muteQ x.1, x.2) } }

/-! ### Fatal faults (R516 to R518) -/

def fatalChecker (c : BitVec 6) : Bool := c == 0x10 || c == 0x12 || c == 0x14 || c == 0x15

/-- 10 s in life ticks of 4 us. -/
def tenSec : Nat := 2500000

/-- A key store update that a fatal fault finds before step 4 is abandoned: its target copy is invalid (R554). -/
def abandonUpdates (s : State) : State :=
  let target := storeAddr (!s.ks.copyB)
  let t := updateOver [] s
  if s.ks.writing then { t with nv := Mem.write t.nv (target + 8) (be 8 0) } else t

/-- A PLAN_WRITE, or a PLAN_COMMIT whose mark is not written, leaves the target copy uncommitted (R122, R124, R554): the write that
clears the mark goes first and is taken to be in the die, the others are not made. -/
def abandonPlan (s : State) : State :=
  let l := s.alm.writes.filter fun w => w.cls = 6 && w.data == be 4 0
  modAlm (fun a => { a with writes := a.writes.filter (·.cls ≠ 6) }) { s with nv := l.foldl (fun m w => w.apply m) s.nv }

/-- Work in progress when a fatal fault stops the engine (Table 19-6). -/
def fatalWork (s : State) : State :=
  modAcc (fun a => { a with exch := a.exch.map fun e => { e with dead := true }, tp := a.tp.map fun t => { t with dead := true } })
    (abandonPlan (abandonUpdates s))

/-- Fatal hold (R517): the engine's packets go, ready is taken away. -/
def fatalHold (checker : BitVec 6) (ticks : Nat) (s : State) : State :=
  let s := fatalWork (discardPackets s)
  let s := { s with boot := { s.boot with condition := 3 }, cmd := { s.cmd with ready := false } }
  record 0x1004 critical 3 0 0 checker.toNat ticks 0 s

/-- The engine stops and a warm restart of this cause starts (R107, R108, R85); within a cold bring-up the cold sequence
goes on (R98). -/
def warmBegin (cause : Nat) (s : State) : State :=
  if s.boot.condition = 1 then s
  else
    let s := discardPackets s
    { s with boot := { s.boot with condition := 2, phase := 5, cause := cause, lastCause := cause, startAt := now s }
             cmd := { s.cmd with ready := false } }

/-- A fatal fault (R516). -/
def fatalNow (checker : BitVec 6) (inj : Bool) (s : State) : State :=
  let recent := s.flt.fatals.filter fun t => decide (s.clk.life.toNat < t.toNat + tenSec)
  let l := recent ++ [s.clk.life]
  let third := decide (3 ≤ l.length)
  let s := { s with flt := { s.flt with fatals := l, fatalCount := if third then 3 else s.flt.fatalCount
                                        lastFatal := checker, lastBlock := 20 } }
  let s := stickBlk 20 (if inj then 12 else 4) (firstFault 20 3 checker s)
  let s := blockRecord 0x1003 critical 3 20 checker.toNat l.length inj s
  let s := if inj then stickFatal 1 s else s
  if third then
    let first := (recent.head?.getD s.clk.life)
    fatalHold checker ((s.clk.life.toNat - first.toNat) % 2 ^ 32) s
  else
    let s := if s.boot.condition = 1 then s else fatalWork (stickFatal 2 s)
    let s := if checker == 0x15 && !inj && s.boot.condition != 1 then { s with dom := { s.dom with root := false } } else s
    warmBegin 5 s

/-- FATAL_FAULT: a fatal checker fires while the root runs. In fatal hold the engine is stopped already. -/
def fatalFault (checker : BitVec 6) (s : State) : State :=
  if fatalChecker checker && s.dom.root && s.boot.condition != 3 then
    let r := injTake checker 20 s
    fatalNow checker r.1 r.2
  else s

/-! ### Correctable and contained errors (R513, R514) -/

/-- A non-volatile line that cannot be read fails the check of the entry that holds it: a record reads torn, any other entry
fails its check code. -/
def loseLine (addr : Nat) (m : Memory) : Memory :=
  let a := addr / 32 * 32
  if 0x300000 ≤ a then Mem.write m (if 0x800000 ≤ a && a < 0xC00000 then a / 256 * 256 else a) (be 4 0)
  else Mem.write m a [Mem.read m a ^^^ 0xFF]

def dropNth {α : Type} (k : Nat) (l : List α) : List α := l.take k ++ l.drop (k + 1)

/-- Which item an uncorrectable error of a shared memory hits is not stated: a free choice (log entry 3). -/
def freePick (n : Nat) (s : State) : Nat := (Config.freeWord s.clk.free).toNat % max 1 n

/-- The request in a trellis frame: a packet whose reply and unsolicited bits are clear. -/
def trlRequest (f : List Byte) : Option Packet :=
  let body := f.drop 8
  if byteAt f 0 == 1 && (byteAt body 2).toNat < 64 then some (parsePacket 10 (body.take (numAt f 6 2))) else none

/-- A packet lost in the trellis buffers (R529): which one is a free choice among those that wait for an acknowledgement. A
request with REPLY_WANTED is answered with FAULT_CONTAINED, any other packet sets DISCARD. -/
def trellisLoss (s : State) : State :=
  let all := ([0, 1] : List (Fin 2)).flatMap fun k => (s.trl.sides[k].unack.filter fun t => byteAt t.bytes 0 == 1).map (k, ·)
  match all[freePick all.length s]? with
  | none => s
  | some (k, t) =>
    let s := modSide k (fun x => { x with unack := x.unack.filter (· ≠ t) }) (drew s)
    let host := (byteAt t.bytes 4).toNat % 16
    match trlRequest t.bytes with
    | some p =>
      if p.replyWanted then
        let r := replyPacket p stContained 0 [] s.boot.member none
        if isLead s then
          let s := modTrl (fun x => { x with reqs := x.reqs.filter fun q => !(q.host.val = host && q.pkt.tag == p.tag
            && q.pkt.hostSeq == p.hostSeq && q.pkt.opcode == p.opcode && !q.bcast) }) s
          let h : Fin 16 := Fin.ofNat 16 host
          pushOut h ⟨0, packetBytes { r with host := h }, 0, now s, .none⟩ s
        else (trlSendTo trlPacket 0 host (packetBytes r) s).2
      else stickTrl 0b000000010 s
    | none => stickTrl 0b000000010 s

/-- The discarded item of Table 17-2, checker 13h. -/
def eccDiscard (place : EccPlace) (s : State) : State :=
  match place with
  | .switchSram => stickEth (Fin.ofNat 2 (freePick 2 s)) 0x20 (drew s)
  | .keySram => modAcc (fun a => { a with cache := dropNth (freePick a.cache.length s) a.cache }) (drew s)
  | .stagingSram =>
    let k := freePick s.alm.staging.length s
    let hit := s.alm.staging[k]?
    let s := modAlm (fun a =>
      { a with staging := dropNth k a.staging
               flush := a.flush.map fun f => if k < f.count then { f with count := f.count - 1 } else f }) (drew s)
    match hit with
    | some x => countDrop x.head s
    | none => s
  | .trellisSram => trellisLoss s
  | _ => s

def eccBlock : EccPlace → Fin 25
  | .engineSram => 20
  | .switchSram => 21
  | .keySram => 22
  | .stagingSram => 23
  | .trellisSram => 24
  | .nonVolatile _ => 23
  | .domainImage _ => 23

/-- SRAM code of Table 17-7. -/
def sramCode (b : Fin 25) : Nat := b.val - 20

/-- ECC_ERROR. -/
def eccError (place : EccPlace) (double : Bool) (s : State) : State :=
  let b := eccBlock place
  let nvKind := match place with
    | .nonVolatile _ | .domainImage _ => true
    | _ => false
  let code : BitVec 6 := if nvKind then (if double then 0x17 else 0x16) else if !double then 0x11
    else if b = 20 then 0x12 else 0x13
  if s.boot.phase < 4 then s
  else if code == 0x12 && s.boot.condition = 3 then s
  else
    let r := injTake code b s
    let s := r.2
    if !double then correctedFault b code r.1 s
    else if code == 0x12 then fatalNow 0x12 r.1 s
    else
      let s := containedFault b code (if nvKind then 0 else sramCode b) false r.1 s
      match place with
      | .nonVolatile a => { s with nv := loseLine a s.nv }
      | .domainImage d => modDom d (fun x => { x with imageBad := true }) s
      | p => eccDiscard p s

/-- SUPPLY_CROSSCHECK_FAULT: the channels differ by more than 0.5 V for 1 ms, or an injection makes them. -/
def supplyCrosscheckFault (r : Fin 7) (diff : Nat) (s : State) : State :=
  let b := regionBlock r
  if 3 ≤ s.boot.phase && !inForce b 2 s then
    let j := injTake 2 b s
    if j.1 || 500 < diff then
      containedFault b 2 diff true j.1 (modReg r (fun x => { x with crossBad := true, crossAt := some (now s) }) j.2)
    else s
  else s

/-- A continuous injection of the cross-check holds the channels apart. -/
def crossInjected (b : Fin 25) (s : State) : Bool :=
  s.flt.inject.any fun j => armed j && j.checker == 2 && j.block = b && j.cont

/-- SUPPLY_CROSSCHECK_RECOVER: the channels have agreed for 1 s (R514). -/
def supplyCrosscheckRecover (r : Fin 7) (s : State) : State :=
  let b := regionBlock r
  if inForce b 2 s && !crossInjected b s && s.regs[r].crossAt.all (fun t => decide (t + Config.sec ≤ now s)) then
    recoverFault b 2 (modReg r (fun x => { x with crossBad := false, crossAt := none }) s)
  else s

/-- ENTROPY_HEALTH_FAIL. -/
def entropyHealthFail (s : State) : State :=
  if domOn 14 s then
    let r := injTake 0x18 22 s
    let s := if inForce 22 0x18 r.2 then r.2 else containedFault 22 0x18 0 true r.1 r.2
    { s with flt := { s.flt with entropyBad := true } }
  else s

/-! ### Injection (R519 to R523) -/

/-- Table 17-2: the blocks a checker exists in. -/
def checkerIn (c b : Nat) : Bool :=
  match c with
  | 0x01 => b < 16 || b = 17
  | 0x02 | 0x03 => [0, 3, 6, 9, 12, 16, 20].contains b
  | 0x10 | 0x12 | 0x14 | 0x15 => b = 20
  | 0x11 => 20 ≤ b && b ≤ 24
  | 0x13 => 21 ≤ b && b ≤ 24
  | 0x16 | 0x17 => b = 23
  | 0x18 => b = 22
  | 0x20 => b = 24
  | _ => false

/-- Marked continuous in Table 17-7. -/
def contChecker (c : Nat) : Bool := [0x01, 0x02, 0x11, 0x16, 0x18, 0x20].contains c

/-- TARGET is in range (Table 17-7). -/
def targetOk (c : Nat) (b : Fin 25) (t : Nat) : Bool :=
  match c with
  | 0x02 => t = (blockRegion b).val
  | 0x03 => let g := gridShape (blockRegion b); decide (t < g.1 * g.2)
  | 0x11 | 0x12 | 0x13 => t = sramCode b
  | _ => true

/-- MODE 02h: a one-shot that has not fired sets ENDED_UNFIRED. -/
def injectCancel (s : State) : State :=
  match s.flt.inject with
  | none => s
  | some j =>
    let s := if crossInjected j.block s then
        modReg (blockRegion j.block) (fun x => { x with crossAt := x.crossAt.map fun _ => now s }) s else s
    let s := if j.cont then s else stickInj 2 s
    injectEnd j 3 s

def faultInject (q : QPkt) (s : State) : Option Ans × State :=
  let p := q.pkt.payload
  let c := numAt p 0 1
  let bn := numAt p 1 1
  let mode := numAt p 2 1
  let t := numAt p 3 1
  let ms := numAt p 4 2
  let b : Fin 25 := Fin.ofNat 25 bn
  if q.pkt.host = 11 || q.pkt.host = 12 then refuse stBadParam s
  else if mode = 2 then done .ok (injectCancel s)
  else if 25 ≤ bn || !checkerIn c bn || (mode = 1 && !contChecker c) || !targetOk c b t
      || (mode = 1 && (ms = 0 || 10000 < ms)) then refuse 0x1040 s
  else if s.flt.inject.isSome then refuse 0x1041 s
  else if inForce b (BitVec.ofNat 6 c) s then refuse 0x1042 s
  else
    let fatal := fatalChecker (BitVec.ofNat 6 c)
    let waits := fatal && q.pkt.replyWanted && takesReply q.pkt.host
    let j : Inject := { checker := BitVec.ofNat 6 c, block := b, cont := decide (mode = 1), target := t
                        endAt := now s + ms * Config.ms, armWait := waits
                        armAt := if fatal && !waits then some (now s + Config.tAfterReply) else none, fired := 0 }
    let s := stickInj 1 { s with flt := { s.flt with inject := some j } }
    done .ok (note 0x1005 info 0 0 (c * 256 + bn) mode q.pkt.host.val s)

/-- The domain of the block a packet names; block 21 lies in the switch, in D01 and D02. -/
def injDoms (i : Nat) (p : Packet) : List (Fin 16) :=
  let b := numAt p.payload i 1
  if 25 ≤ b || b = 21 then [] else [blockDomain (Fin.ofNat 25 b)]
def injAny (i : Nat) (p : Packet) : List (Fin 16) := if numAt p.payload i 1 = 21 then [1, 2] else []

def opFaultInject : OpSpec :=
  { chipOp 8 [] (fun b => zeroAt [6, 7] b) faultInject with
    parOk := fun b => numAt b 2 1 ≤ 2, doms := fun p => injDoms 1 p, anyOf := fun p => injAny 1 p }

def faultClear (q : QPkt) (s : State) : Option Ans × State :=
  let bn := numAt q.pkt.payload 0 1
  let b : Fin 25 := Fin.ofNat 25 bn
  if q.pkt.host = 11 || q.pkt.host = 12 || 25 ≤ bn then refuse stBadParam s
  else if !inForce b 1 s then done ⟨0, 1, []⟩ s
  else (none, { s with flt := { s.flt with clear := s.flt.clear ++ [(q, b, 2)] } })

def opFaultClear : OpSpec :=
  { chipOp 4 [] (fun b => zeroAt [1, 2, 3] b) faultClear with
    doms := fun p => injDoms 0 p, anyOf := fun p => injAny 0 p }

/-- INJECTION_ARM (R521): 100 us after the reply has left. -/
def injectionArm (s : State) : State :=
  match s.flt.inject with
  | some j => if j.armAt.any (fun t => decide (t ≤ now s)) then
      { s with flt := { s.flt with inject := some { j with armAt := none } } } else s
  | none => s

/-- INJECTION_DURATION_END (R520). -/
def injectionDurationEnd (s : State) : State :=
  match s.flt.inject with
  | some j =>
    if j.cont && decide (j.endAt ≤ now s) then
      let s := if crossInjected j.block s then
          modReg (blockRegion j.block) (fun x => { x with crossAt := x.crossAt.map fun _ => now s }) s else s
      injectEnd j 2 s
    else s
  | none => s

end Sys2Proof.Machine
end

