-- ==== Sys2Proof/Machine/Boot.lean ====
section
/-! DEFINITION. Bring-up, restarts and the planting plan (chapter 03): the start causes and phases, the plan copies, the
restore from the output state mirror, and the opcodes of family 12h. -/

namespace Sys2Proof.Machine

/-! ### What a cold start loses and keeps (R12, R99, R100) -/

/-- Every domain off, the regulators of the root off; the wake configuration, the last-wake record and the levels of the wake
lands stay in the always-on section. -/
def domsCold (d : DomSt) : DomSt :=
  { DomSt.fresh with
    dom := d.dom.map fun _ => { DomOne.fresh with st := .off }, wake := d.wake, timerAt := d.timerAt, lastWake := d.lastWake
    wakeLevel := d.wakeLevel, mainReg := false, root := false, lpLoad := d.lpLoad }

/-- What recorder metadata in the non-volatile die keeps (Table 16-2). -/
def almCold (a : AlmSt) : AlmSt :=
  { AlmSt.fresh with
    seq := a.seq, intents := a.intents, lastIntent := a.lastIntent, check := a.check, fill := a.fill, epoch := a.epoch
    fullDone := a.fullDone, watches := a.watches.map fun w => { w with sticky := 0 }
    rings := a.rings.map fun r => { r with refused := false }, vnonce := a.vnonce, vnonceDue := a.vnonceDue, batch := a.batch }

/-- A region at its reset values but for its supply monitor, which the always-on section keeps running (R31, R100, R242). -/
def monitored (r : RegSt) : RegSt :=
  { RegSt.fresh with vs := r.vs, level := r.level, lowAt := r.lowAt, uv := r.uv, uvAt := r.uvAt, uvLow := r.uvLow }

/-- A cold start: every unit at its reset value and every domain off; the configuration of the always-on section stays until
phase 3 begins. -/
def volatileLost (s : State) : State :=
  let f := State.reset
  let zone := { ZoneSt.fresh s.zone.time with frac := s.zone.frac }
  let ev := { EvSt.fresh with held := s.ev.held }
  let io := { IoSt.fresh with sw := s.io.sw, cyc := s.io.cyc }
  let net := { NetSts.fresh with nets := s.net.nets, wufs := s.net.wufs, leases := s.net.leases, vs5Low := s.net.vs5Low }
  let acc := { AccSt.fresh with cfg := s.acc.cfg, park := s.acc.park, stopped := s.acc.stopped, polls := s.acc.polls
                                lastPoll := s.acc.lastPoll }
  let regs := s.regs.map fun r => { monitored r with cfg1 := r.cfg1, cfg2 := r.cfg2 }
  let outs := Vector.ofFn fun n : Fin 96 =>
    { OutSt.fresh n with offSince := if s.outs[n].st == .off then s.outs[n].offSince else now s }
  { f with outs := outs, pending := s.pending, clk := s.clk, zone := zone, ev := ev, boot := s.boot, dom := domsCold s.dom
           alm := almCold s.alm, nv := s.nv, regs := regs, io := io, net := net, acc := acc }

/-- The start of phase 3 (R100): the configuration of the always-on section starts again, held events clear (R596), the
main regulator and the clocks start. -/
def phase3 (s : State) : State :=
  let ev := { s.ev with held := [] }
  let dom := { s.dom with wake := wakeFresh, timerAt := none, mainReg := true }
  let net := { NetSts.fresh with vs5Low := s.net.vs5Low }
  let regs := s.regs.map monitored
  { s with ev := ev, dom := dom, io := IoSt.fresh, net := net, acc := AccSt.fresh, regs := regs
           boot := { s.boot with phase := 3, selfFails := 0 } }

/-- A cold cause: the lowest of coinciding ones is recorded (R98). -/
def coldCause (c : Nat) (s : State) : Nat :=
  if s.boot.condition = 1 && s.boot.phase ≠ 0 then min s.boot.lastCause c else c

/-- A cold bring-up starts at a phase with a cause; supply that fails during PLAN_WRITE leaves the target copy uncommitted (R124). -/
def coldStart (phase cause : Nat) (s : State) : State :=
  let c := coldCause cause s
  let s := volatileLost (abandonPlan s)
  { s with boot := { s.boot with phase := phase, condition := 1, cause := c, lastCause := c, selfFails := 0, startAt := now s } }

/-! ### Start causes and phases (Tables 3-1, 3-2) -/

/-- The supply is gone, or has been too low for the always-on section (R98, R155): everything volatile is lost. -/
def brownOut (s : State) : State :=
  let s := coldStart 1 1 (flushTorn s)
  { s with clk := { s.clk with life := 0, lifeFrac := 0, aoTrim := 0, wall := 0, wallFrac := 0 }, zone := ZoneSt.fresh 0
           ev := EvSt.fresh, io := IoSt.fresh, net := { NetSts.fresh with vs5Low := s.net.vs5Low }, acc := AccSt.fresh
           regs := s.regs.map fun r => { RegSt.fresh with vs := r.vs }
           dom := { domsCold DomSt.fresh with wakeLevel := s.dom.wakeLevel }
           alm := { s.alm with batch := [] }, boot := { s.boot with discarded := 0 } }

/-- POWER_ON: VS6 above 4.5 V in phase 1. -/
def powerOn (vs6MV : Nat) (s : State) : State :=
  if s.boot.phase ≤ 1 && 4500 < vs6MV then
    let c := if s.boot.phase = 0 then 0 else s.boot.lastCause
    { s with boot := { s.boot with phase := 2, condition := 1, cause := c, lastCause := c, startAt := now s } }
  else s

/-- VS6_UNDERVOLTAGE: below 3.0 V. A power-fail flush that runs ends first (R488). -/
def vs6Undervoltage (vs6MV : Nat) (s : State) : State :=
  if vs6MV < 3000 && 2 ≤ s.boot.phase then
    if s.alm.flush.any (·.powerFail) then modAlm (fun a => { a with brown := some vs6MV }) s else brownOut s
  else s

/-- LP_BROWN_OUT (R155). -/
def lpBrownOut (s : State) : State :=
  if 2 ≤ s.boot.phase then
    if s.alm.flush.any (·.powerFail) then modAlm (fun a => { a with brown := some 0 }) s else brownOut s
  else s

/-- FLUSH_END with a brown-out that waited for it (R488). -/
def flushEndBrown (s : State) : State :=
  let s := flushEnd s
  if s.alm.brown.isSome && !s.alm.flush.any (·.powerFail) then brownOut s else s

/-- RESET_N_ASSERT: the land has been low for tRSW. Every output and every domain is off (R99). -/
def resetNAssert (s : State) : State :=
  if s.boot.resetLow.isSome then s
  else
    let s' := if s.boot.phase ≤ 2 then s
      else
        let s := volatileLost s
        { s with boot := { s.boot with phase := 3, condition := 1, cause := coldCause 2 s, lastCause := coldCause 2 s } }
    { s' with boot := { s'.boot with resetLow := some (now s) } }

/-- RESET_N_RELEASE: phase 3 begins; in phases 1 and 2 the bring-up goes on. -/
def resetNRelease (s : State) : State :=
  if s.boot.resetLow.isNone then s
  else
    let s := { s with boot := { s.boot with resetLow := none } }
    if s.boot.phase = 3 then
      let s := phase3 s
      { s with boot := { s.boot with startAt := now s } }
    else s

/-- ALWAYS_ON_START: the end of phase 2; phase 3 waits while RESET_N is low. -/
def alwaysOnStart (s : State) : State := if s.boot.phase = 2 then phase3 s else s

/-- PLL_LOCK: the end of phase 3, with the member straps (R526); in a warm restart after a stopped clock the root runs
again. -/
def pllLock (straps : BitVec 2) (s : State) : State :=
  if s.boot.condition = 1 && s.boot.phase = 3 && s.boot.resetLow.isNone then
    { s with dom := { s.dom with root := true, mainReg := true }, boot := { s.boot with phase := 4, member := straps } }
  else if s.boot.condition = 2 && !s.dom.root then { s with dom := { s.dom with root := true, mainReg := true, rootAt := none } }
  else s

/-- PLL_LOCK_TIMEOUT: phase 3 repeats and nothing is recorded (R102). -/
def pllLockTimeout (s : State) : State := s

/-! ### The plan image (R111 to R114) -/

def planBase (copyB : Bool) : Nat := if copyB then 0x60000 else 0
def planSize : Nat := 0x60000
def planMark : Word := 0x434D4954

/-- Length of the packet that starts here (R39). -/
def packetLen (b : List Byte) : Nat :=
  16 + (if (byteAt b 0).getLsbD 2 then 8 else 0) + numAt b 6 2 + (if (byteAt b 0).getLsbD 1 then 8 else 0)

/-- HDR_CRC is right (R42, R44). -/
def hdrCrcOk (b : List Byte) : Bool := crc16 (b.take 14) == halfAt b 14

/-- The bytes are exactly `n` packets back to back with correct HDR_CRC. -/
def walkPackets : Nat → List Byte → Bool
  | 0, b => b.isEmpty
  | n + 1, b => 16 ≤ b.length && hdrCrcOk b && packetLen b ≤ b.length && walkPackets n (b.drop (packetLen b))

/-- A plan copy as its header and body read. -/
structure PlanCopy where
  head : List Byte
  body : List Byte

def PlanCopy.len (c : PlanCopy) : Nat := numAt c.head 12 4
def PlanCopy.count (c : PlanCopy) : Nat := numAt c.head 6 2
def PlanCopy.version (c : PlanCopy) : Word := wordAt c.head 8
def PlanCopy.gen (c : PlanCopy) : Word := wordAt c.head 16
def PlanCopy.committed (c : PlanCopy) : Bool := wordAt c.head 60 == planMark
def PlanCopy.lenOk (c : PlanCopy) : Bool := 16 ≤ c.len && c.len ≤ 393152

def readPlan (copyB : Bool) (m : Memory) : PlanCopy :=
  let h := Mem.readN m (planBase copyB) 64
  let n := numAt h 12 4
  ⟨h, if 16 ≤ n && n ≤ 393152 then Mem.readN m (planBase copyB + 64) n else []⟩

/-- The checks of R113 but the mark's: the Table 3-8 code of the first that fails. -/
def planCheck (c : PlanCopy) : Option Half :=
  if wordAt c.head 0 != 0x485A5031 || halfAt c.head 4 != 1 || !c.lenOk || !allZero (slice c.head 24 24) then some 0x1240
  else if !walkPackets c.count c.body then some 0x1241
  else if crc32 (c.head.take 48 ++ c.body) != wordAt c.head 48 then some 0x1242
  else none

/-- The checks of phase 6: ROOTSTOCK_GEN and CMAC under the plan rootstock (R113, R451). -/
def planSigned (c : PlanCopy) (s : State) : Option Half :=
  match roleHolder 1 s with
  | none => some 0x1243
  | some i =>
    if (rootstock i s).st != .established || (rootstock i s).gen != c.gen then some 0x1243
    else if Crypto.cmac8 (rootValue i s) (c.head.take 48 ++ c.body) != slice c.head 52 8 then some 0x1244
    else none

def planNote (code : Half) (sev : BitVec 2) (p1 p2 p3 : Nat) (s : State) : State := note code sev 0 0 p1 p2 p3 s

/-- Phase 4 of one copy: its state of Table 3-9 and whether it passed. -/
def planPhase4 (copyB : Bool) (s : State) : BitVec 2 × Bool × State :=
  let c := readPlan copyB s.nv
  if !c.committed then (1, false, s)
  else
    match planCheck c with
    | none => (0, true, s)
    | some e => (2, false, planNote 0x1202 warning (if copyB then 1 else 0) e.toNat c.version.toNat s)

/-- NV_CHECK (R102, R499, R500, R466, R113). -/
def nvCheck (started : Bool) (s : State) : State :=
  if s.boot.condition = 1 && s.boot.phase = 4 then
    if !started then fatalHold 0 0 s
    else
      let targets := s.alm.intents[s.alm.lastIntent].targets
      let open_ := !s.alm.intents[s.alm.lastIntent].done
      let s := almanacRepair s
      let s := if s.boot.lastCause ≤ 1 then lifeResume (if open_ then targets else []) s.boot.lastCause s else s
      let s := newVnonce (selectStore s)
      let a := planPhase4 false s
      let b := planPhase4 true a.2.2
      let s := b.2.2
      { s with plan := { PlanSt.fresh with stateA := a.1, stateB := b.1, passedA := a.2.1, passedB := b.2.1
                                           sticky := s.plan.sticky }
               boot := { s.boot with phase := 5 } }
  else s

/-- SELF_TEST (R102, R103): every domain is on at the start of phase 6, and every unit at its reset value with its learned
values loaded; undervoltage and the stages of the regions act on them (R245, R257). -/
def selfTest (pass : Bool) (s : State) : State :=
  if s.boot.condition = 1 && s.boot.phase = 5 then
    if pass then
      let dom := { s.dom with dom := s.dom.dom.map fun d => { DomOne.fresh with sticky := d.sticky, idleSince := now s } }
      let s := { s with dom := dom, boot := { s.boot with phase := 6, selfFails := 0 } }
      let s := modKs (fun k => { k with reload := k.slots.any (·.st == .loaded) }) s
      let s := ((List.range 96).map (Fin.ofNat 96)).foldl (fun s n => loadLearned n s) (allBrs.foldl (fun s k => loadProfile k s) s)
      (List.range 5).foldl (fun s r => applyPruning (Fin.ofNat 7 r) (uvHolds (Fin.ofNat 7 r) s)) s
    else if 1 ≤ s.boot.selfFails then fatalHold 0 0 s
    else { s with boot := { s.boot with selfFails := 1 } }
  else s

/-- Phase 6 checks a copy that passed phase 4 (R114, R127). -/
def planJudge (copyB : Bool) (s : State) : BitVec 2 × State :=
  let c := readPlan copyB s.nv
  match planSigned c s with
  | none => (0, s)
  | some e => (if e == 0x1243 then 3 else 2, planNote 0x1202 warning (if copyB then 1 else 0) e.toNat c.version.toNat s)

/-- PLAN_PHASE (R114, R125): every candidate is checked; the first valid one is chosen. -/
def planPhase (s : State) : State :=
  if s.boot.condition = 1 && s.boot.phase = 6 && !s.plan.picked then
    let p := s.plan
    let va := (readPlan false s.nv).version.toNat
    let vb := (readPlan true s.nv).version.toNat
    let bFirst := p.passedB && (!p.passedA || decide (va < vb))
    let ra := if p.passedA then planJudge false s else (p.stateA, s)
    let rb := if p.passedB then planJudge true ra.2 else (p.stateB, ra.2)
    let s := rb.2
    let okA := p.passedA && ra.1 == 0
    let okB := p.passedB && rb.1 == 0
    let s := { s with plan := { s.plan with stateA := ra.1, stateB := rb.1, picked := true } }
    if okA || okB then
      let useB := okB && (!okA || bFirst)
      let c := readPlan useB s.nv
      let s := { s with plan := { s.plan with noPlan := false, copyB := useB, targetB := !useB, version := c.version
                                              next := some (0, 0) } }
      let s := if useB != bFirst then stickPlan 0b1000 s else s
      planNote 0x1201 info (if useB then 1 else 0) c.version.toNat c.count s
    else
      let s := { s with plan := { s.plan with noPlan := true, copyB := false, targetB := false, version := 0, next := none } }
      planNote 0x1204 error ra.1.toNat rb.1.toNat 0 s
  else s

/-- A packet of the plan has not completed (R115). -/
def planBusy (s : State) : Bool :=
  s.cmd.waiting.any (fun q => q.pkt.host = 12) || s.cmd.sched.any (fun q => q.pkt.host = 12)
    || s.cmd.chains.any (fun c => c.waiting.any (fun q => q.pkt.host = 12))

/-- The plan has no packet left. -/
def planOver (s : State) : Bool :=
  match s.plan.next with
  | none => true
  | some (_, i) => decide ((readPlan s.plan.copyB s.nv).count ≤ i)

/-- Without a plan event 237 is enabled, routed to IRQ0 and raised (R125). -/
def noPlanEvent (s : State) : State :=
  if s.plan.noPlan then
    let r := s.ev.route[(237 : Fin 256)]
    { s with ev := { s.ev with mask := s.ev.mask ||| (1 <<< 237), route := s.ev.route.set 237 { r with irqEn := true, irqSel := 0 } } }
  else s

/-- BRINGUP_READY (R101, R110, R126): the held events are raised when the command is done (R596). -/
def bringupReady (s : State) : State :=
  if s.boot.condition = 1 && s.boot.phase = 6 && s.plan.picked && planOver s && !planBusy s then
    let c := s.boot.lastCause
    let s := planNote 0x1210 info c ((now s - s.boot.startAt) / 1000) (if c = 3 then s.boot.discarded else 0) s
    let s := noPlanEvent s
    let s := raise 239 (raiseIf (s.plan.noPlan || s.plan.sticky != 0) 237 s)
    let s := { s with plan := { s.plan with next := none } }
    { s with cmd := { s.cmd with ready := true }, boot := { s.boot with phase := 7, condition := 0, discarded := 0 } }
  else s

/-! ### Restarts (R85, R107 to R110) -/

/-- A reply with this mark has not left. -/
def markWaits (m : ReplyMark) (s : State) : Bool :=
  s.cmd.replyWait.any (·.mark == m) || s.hosts.toList.any fun h => h.out.any (·.mark == m)

/-- RESTART_BEGIN: an accepted RESTART whose reply has left, has not been fetched in time, or was discarded. -/
def restartBegin (s : State) : State :=
  match s.cmd.restart with
  | none => s
  | some r =>
    if r.at_.any (fun t => decide (t ≤ now s)) || (r.waiting && !markWaits .restart s) then
      if r.cold then
        let n := schedCount s
        let s := phase3 (coldStart 3 3 s)
        { s with boot := { s.boot with discarded := n } }
      else warmBegin 4 s
    else s

/-- WARM_RESTART: staging is flushed first, with D15 woken for it; then the warm self-test runs (R107). A failing lockstep
test is a fatal fault of checker 10h. -/
def warmRestart (pass : Bool) (s : State) : State :=
  if s.boot.condition = 2 && s.boot.phase = 5 && s.dom.root then
    let dirty := !s.alm.staging.isEmpty || !s.alm.intake.isEmpty || s.alm.flush.isSome
    if dirty && !domOn 15 s then wakeInternal 15 s
    else
      let s := if domOn 15 s then flushAll s else s
      if pass then { s with boot := { s.boot with phase := 6 } } else fatalNow 0x10 false s
  else s

/-- WARM_READY (R110). -/
def warmReady (s : State) : State :=
  if s.boot.condition = 2 && s.boot.phase = 6 then
    let s := raise 239 (planNote 0x1211 warning s.boot.lastCause s.boot.discarded 0 s)
    { s with cmd := { s.cmd with ready := true }, boot := { s.boot with phase := 7, condition := 0, discarded := 0 } }
  else s

/-! ### Family 12h (R118 to R123) -/

/-- The live state of a plan copy (Table 3-9). -/
def planState (copyB : Bool) (st : BitVec 2) (s : State) : State :=
  { s with plan := { s.plan with stateA := if copyB then s.plan.stateA else st, stateB := if copyB then st else s.plan.stateB } }

/-- A copy that passes every other check is valid or orphaned by the plan rootstock's generation (R113, R126, R462). -/
def planFollow (copyB : Bool) (s : State) : State :=
  let st := if copyB then s.plan.stateB else s.plan.stateA
  if st == 0 || st == 3 then
    match planSigned (readPlan copyB s.nv) s with
    | none => planState copyB 0 s
    | some e => planState copyB (if e == 0x1243 then 3 else 2) s
  else s

/-- PLAN_WRITE (R122): the mark of the target copy goes first; the reply comes when the data is in. -/
def opPlanWrite : OpSpec :=
  { lenOk := fun b => 9 ≤ b.length && b.length ≤ 1024, resOk := zeroAt [4, 5, 6, 7], units := fun _ _ => [.chip]
    doms := fun _ => []
    act := .whole fun q _ s =>
      let b := q.pkt.payload
      let off := numAt b 0 4
      let data := b.drop 8
      if q.pkt.host = 12 || planSize < off + data.length || (off < 64 && 60 < off + data.length) then refuse stBadParam s
      else
        let base := planBase s.plan.targetB
        (none, nvQueue 6 (base + off) data (some q) (nvQueue 6 (base + 60) (be 4 0) none (planState s.plan.targetB 1 s))) }

/-- The checks of PLAN_COMMIT in order (R123). -/
def commitCheck (c : PlanCopy) (s : State) : Option Half :=
  match planCheck c with
  | some e => some e
  | none =>
    match planSigned c s with
    | some e => some e
    | none => if !s.plan.noPlan && c.version.toNat ≤ s.plan.version.toNat then some 0x1245 else none

/-- PLAN_COMMIT: the mark is its last write, and it completes when that is done. The CMAC wakes D14 (R142). -/
def opPlanCommit : OpSpec :=
  { chipOp 4 [] (zeroAt [0, 1, 2, 3]) (fun q s =>
      if q.pkt.host = 12 then refuse stBadParam s
      else
        let c := readPlan s.plan.targetB s.nv
        match commitCheck c s with
        | some e => refuse e (stickPlan 0b0001 s)
        | none =>
          (none, nvQueue 6 (planBase s.plan.targetB + 60) (be 4 planMark.toNat) (some q) s)) with
    inner := fun p _ => if p.host = 12 then [] else [14, 15] }

/-- How a unit's restoration ends (R120). -/
inductive Restored where
  | yes
  | skip
  | no
  deriving DecidableEq, Repr

/-- A packet of the module's own actions, host 13. -/
def ownQ (payload : List Byte) (s : State) : QPkt := mkQ (hostPacket 0 0 13 payload s) [] s

/-- What a unit's mirror holds: the present state while a change waits to be written (R119), else its newest valid entry. -/
def mirrorState (u : UnitRef) (s : State) : Option (List Byte) :=
  match u with
  | .out n => if s.outs[n].mirPend then some (outMirror s.outs[n]) else mirrored u s
  | .vl n => if s.vls[n].mirPend then some (vlMirror s.vls[n]) else mirrored u s
  | .fq n => if s.io.fq[n].mirPend then some (fqMirror s.io.fq[n]) else mirrored u s
  | .leg n => if s.brs[legBridge n].mirPend then some (brMirror s.brs[legBridge n]) else mirrored u s
  | _ => none

/-- Apply one mirrored state as host 13, as the unit's own command would; exclusive pairs are not checked (R308), and a bridge gets the
rest state of its entry, with the position of an entry at rest (R283). A unit with a valid entry whose domain is not on, or whose
command is refused, counts neither as restored nor as skipped (R120, log entry 42). -/
def restoreUnit (u : UnitRef) (s : State) : Restored × State :=
  match mirrorState u s with
  | none => (.skip, s)
  | some e =>
    if !(unitDomain u).all (fun d => domOn d s) then (.no, s)
    else
      let on := (byteAt e 0).getLsbD 0
      match u with
      | .out n =>
        let flags : Byte := if (byteAt e 1).getLsbD 0 then 1 else 0
        let b := be 12 (2 ^ n.val) ++ [byteAt e 0, flags, 0, 0] ++ slice e 3 12
        let r := outSetCell (ownQ b s) n b s
        (if refusing r.1 then .no else .yes, r.2)
      | .vl n =>
        let v := s.vls[n]
        if on && (v.st == .tripped || v.marked || s.vhs[vlGroup n].prot == .latched) then (.no, s)
        else (.yes, vlCommand n on 13 s)
      | .fq n => (.yes, fqCommand n on 13 s)
      | .leg n =>
        let mode := if 2 ≤ (byteAt e 0).toNat then 1 else (byteAt e 0).toNat
        let k := legBridge n
        let s := brApply k ⟨mode, 0, 0, false⟩ 13 s
        (.yes, if (byteAt e 0).toNat ≤ 1 && (byteAt e 1).getLsbD 0 then
            modBr k (fun b => { b with pos := (wordAt e 11).toInt, posValid := true }) s else s)
      | _ => (.no, s)

/-- The units a MIRROR_RESTORE selects, in the order of R120. -/
def restoreUnits (b : List Byte) : List UnitRef :=
  ((List.range 96).filter (numAt b 0 12).testBit).map (fun n => .out (Fin.ofNat 96 n))
    ++ ((List.range 16).filter (numAt b 12 2).testBit).map (fun n => .vl (Fin.ofNat 16 n))
    ++ ((List.range 16).filter (numAt b 14 2).testBit).map (fun n => .fq (Fin.ofNat 16 n))
    ++ ((List.range 8).filter (numAt b 16 1).testBit).map (fun k => .leg (Fin.ofNat 16 (2 * k)))

/-- One unit's turn, with the counts of restored and skipped units. -/
def restoreStep (acc : State × Nat × Nat) (u : UnitRef) : State × Nat × Nat :=
  let r := restoreUnit u acc.1
  match r.1 with
  | .yes => (r.2, acc.2.1 + 1, acc.2.2)
  | .skip => (r.2, acc.2.1, acc.2.2 + 1)
  | .no => (r.2, acc.2.1, acc.2.2)

/-- MIRROR_RESTORE (R119, R120). The mirror is read through D15. -/
def opMirrorRestore : OpSpec :=
  { chipOp 20 [] (fun b => onlyBits 17 0x0F b && zeroAt [18, 19] b) (fun q s =>
      let b := q.pkt.payload
      let causes := (byteAt b 17).toNat % 16
      if !(4 ≤ s.boot.lastCause) && causes.testBit s.boot.lastCause then
        let r := (restoreUnits b).foldl restoreStep (s, 0, 0)
        let s := if r.2.2 ≠ 0 then stickPlan 0b0100 r.1 else r.1
        done ⟨0, BitVec.ofNat 16 r.2.1, []⟩ (planNote 0x1205 info r.2.1 r.2.2 causes s)
      else done .ok s) with
    inner := fun _ _ => [15] }

end Sys2Proof.Machine
end

