-- ==== Sys2Proof/Machine/Host00.lean ====
section
/-! DEFINITION. Family 00h (R81 to R88): status words, restart, event routing and mask, hosts, policy and the scheduler. -/

namespace Sys2Proof.Machine

def opNop : OpSpec := chipOp 0 [] (fun _ => true) fun _ s => done .ok s

/-- IDENTIFY (Table 2-9). -/
def identifyData (s : State) : List Byte :=
  let size := ((List.range 4).filter (presentMask s).testBit).length
  be 2 Config.partCode.toNat ++ [Config.stepping, Config.romVersion] ++ be 8 Config.serial.toNat
    ++ be 6 Config.endpointMac.toNat ++ be 1 (16 * s.boot.member.toNat + size)
    ++ [if s.plan.noPlan then 0xFF else if s.plan.copyB then 1 else 0]
    ++ be 4 (if s.plan.noPlan then 0 else s.plan.version.toNat) ++ be 8 (zone s)

def opIdentify : OpSpec := chipOp 0 [] (fun _ => true) fun _ s => done (.ok (identifyData s)) s

/-! ### READ_STATUS and CLEAR_STATUS (R83, R84) -/

/-- WORD_ID is defined, COUNT in range, and the last unit exists. -/
def statusRange (b : List Byte) : Bool :=
  let n := numAt b 4 1
  let u := wordUnits (numAt b 0 2)
  1 ≤ n && n ≤ 253 && u ≠ 0 && numAt b 2 2 + n ≤ u

/-- The unit indices a request names. -/
def statusIndices (b : List Byte) : List Nat := (List.range (numAt b 4 1)).map (· + numAt b 2 2)

def statusUnits (p : Packet) (_ : State) : List UnitRef :=
  if statusRange p.payload then ((statusIndices p.payload).map (wordUnit (numAt p.payload 0 2))).eraseDups else [.chip]

/-- The domain of a word read through the chip queue. -/
def statusDoms (p : Packet) : List (Fin 16) :=
  if statusRange p.payload then
    let id := numAt p.payload 0 2
    let i := numAt p.payload 2 2
    if wordUnit id i = .chip then (wordDomain id i).toList else []
  else []

/-- The words of the units that execute; those of refused units read 0 (R71). -/
def statusData (b : List Byte) (us : List UnitRef) (s : State) : List Byte :=
  let id := numAt b 0 2
  b.take 6 ++ ((statusIndices b).map fun i => if wordUnit id i ∈ us then be 4 (readWord id i s).toNat else be 4 0).flatten

def statusClear (b : List Byte) (us : List UnitRef) (s : State) : State :=
  let id := numAt b 0 2
  (statusIndices b).foldl (fun s i => if wordUnit id i ∈ us then clearWord id i (wordAt b 6) s else s) s

def statusSpec (len : Nat) (f : QPkt → List UnitRef → State → Option Ans × State) : OpSpec :=
  { lenOk := fun b => b.length = len, resOk := zeroAt [5], parOk := statusRange, units := statusUnits
    doms := statusDoms, act := .whole f }

def opReadStatus : OpSpec := statusSpec 6 fun q us s => done (.ok (statusData q.pkt.payload us s)) s

def opClearStatus : OpSpec := statusSpec 10 fun q us s =>
  done (.ok (statusData q.pkt.payload us s)) (statusClear q.pkt.payload us s)

/-! ### RESTART (R85, R118) -/

def restartOp (q : QPkt) (s : State) : Option Ans × State :=
  if q.pkt.host = 12 then refuse stBadParam s
  else
    let waits := q.pkt.replyWanted && takesReply q.pkt.host
    let at_ : Option Nat := if !waits then some (now s + Config.tAfterReply)
      else if q.pkt.host.val < 2 then some (now s + Config.tReplyLimit) else none
    done .ok (modCmd (fun c => { c with restart := some ⟨(byteAt q.pkt.payload 3).getLsbD 0, waits, at_⟩ }) s)

def opRestart : OpSpec := chipOp 4 [] (fun b => zeroAt [0, 1, 2] b && onlyBits 3 1 b) restartOp

/-! ### EVENT_ROUTE and EVENT_MASK (R86) -/

def routeAt (b : List Byte) (i : Nat) : EvRoute :=
  let x := byteAt b (4 + 4 * i)
  ⟨x.getLsbD 7, BitVec.ofNat 2 (x.toNat / 32), BitVec.ofNat 2 (x.toNat / 8), BitVec.ofNat 10 (numAt b (6 + 4 * i) 2)⟩

def routeRes (b : List Byte) : Bool :=
  zeroAt [2, 3] b && (List.range (numAt b 1 1)).all fun i =>
    onlyBits (4 + 4 * i) 0xF8 b && zeroAt [5 + 4 * i] b && onlyBits (6 + 4 * i) 0x03 b

def opEventRoute : OpSpec :=
  { chipOp 0 [] routeRes (fun q s =>
      let b := q.pkt.payload
      let first := numAt b 0 1
      let routes := (List.range (numAt b 1 1)).foldl
        (fun (v : Vector EvRoute 256) i => v.set (Fin.ofNat 256 (first + i)) (routeAt b i)) s.ev.route
      done .ok { s with ev := { s.ev with route := routes } }) with
    lenOk := fun b => 4 ≤ b.length && b.length = 4 + 4 * numAt b 1 1
    parOk := fun b => 1 ≤ numAt b 1 1 && numAt b 0 1 + numAt b 1 1 ≤ 256 }

def opEventMask : OpSpec :=
  { chipOp 34 [] (zeroAt [1]) (fun q s =>
      let b := q.pkt.payload
      let m : BitVec 256 := BitVec.ofNat 256 (numAt b 2 32)
      let new := match (byteAt b 0).toNat with
        | 0 => m
        | 1 => s.ev.mask ||| m
        | 2 => s.ev.mask &&& ~~~m
        | _ => s.ev.mask
      done (.ok (be 32 new.toNat)) { s with ev := { s.ev with mask := new } }) with
    parOk := fun b => numAt b 0 1 ≤ 3 }

/-! ### Hosts (R87, R88) -/

/-- Host ID 2 to 9. -/
def ethHost (n : Nat) : Bool := 2 ≤ n && n ≤ 9

/-- The pair is registered under this ID. -/
def holdsPair (mac : BitVec 48) (vlan : BitVec 12) (h : HostSt) : Bool := h.reg.any fun r => r.mac == mac && r.vlan == vlan

/-- HOST_BIND. Members 1 to 3 register no Ethernet host (R532) and answer BAD_PARAM, for which R532 names no status (log entry
42). -/
def hostBind (q : QPkt) (s : State) : Option Ans × State :=
  let b := q.pkt.payload
  let h : Fin 14 := Fin.ofNat 14 (numAt b 0 1)
  let mac : BitVec 48 := BitVec.ofNat 48 (numAt b 4 6)
  let vlan : BitVec 12 := BitVec.ofNat 12 (numAt b 2 2)
  if !isLead s then refuse stBadParam s
  else
    let others := ((List.range 14).map (Fin.ofNat 14)).filter fun k => k ≠ h && holdsPair mac vlan s.hosts[k]
    let s := others.foldl (fun s k => hostGone k s) s
    done .ok (modHost h (fun x => { x with reg := some ⟨mac, vlan, Fin.ofNat 2 (numAt b 1 1), true⟩ }) s)

def opHostBind : OpSpec :=
  { chipOp 12 [] (fun b => onlyBits 2 0x0F b && zeroAt [10, 11] b) hostBind with
    parOk := fun b => ethHost (numAt b 0 1) && numAt b 1 1 ≤ 1 }

def opHostRelease : OpSpec :=
  { chipOp 4 [] (zeroAt [1, 2, 3]) (fun q s =>
      let h : Fin 14 := Fin.ofNat 14 (numAt q.pkt.payload 0 1)
      if s.hosts[h].reg.isSome then done .ok (hostGone h s) else refuse stHostUnknown s) with
    parOk := fun b => ethHost (numAt b 0 1) }

def opHostSilence : OpSpec :=
  { chipOp 4 [] (zeroAt [1]) (fun q s =>
      let b := q.pkt.payload
      let n := numAt b 2 2
      let at_ : Option Nat := if n = 0 then none else some (s.clk.cmdClock + n * 10 * Config.ms)
      done .ok (modHost (Fin.ofNat 14 (numAt b 0 1)) (fun x => { x with silence := n, silenceAt := at_ }) s)) with
    parOk := fun b => numAt b 0 1 ≤ 9 }

/-! ### AUTH_POLICY and SCHED_CANCEL (R65, R81) -/

def opAuthPolicy : OpSpec := chipOp 4 [] (fun b => zeroAt [0] b && onlyBits 1 0x07 b) fun q s =>
  let w := wordAt q.pkt.payload 0
  done (.ok (be 4 w.toNat)) (modCmd (fun c => { c with authPolicy := w }) s)

def cancelled (b : List Byte) (q : QPkt) : Bool :=
  q.pkt.host.val = numAt b 0 1 && (numAt b 1 1 = 1 || q.pkt.tag == halfAt b 2)

/-- SCHED_CANCEL. MODE 00h removes every packet of the host under the tag; the later packets of a removed packet's chain are
answered with CHAIN_BROKEN and are not counted (log entry 42). -/
def schedCancel (b : List Byte) (s : State) : Nat × State :=
  let out := s.cmd.sched.filter (cancelled b)
  let s := modCmd (fun c => { c with sched := c.sched.filter (!cancelled b ·) }) s
  (out.length, out.foldl (fun s q => complete q (.err stTimeStepped 1) s) s)

def opSchedCancel : OpSpec :=
  { chipOp 4 [] (fun _ => true) (fun q s =>
      let r := schedCancel q.pkt.payload s
      done (.ok (be 2 0 ++ be 2 r.1)) r.2) with
    parOk := fun b => numAt b 0 1 ≤ 13 && numAt b 1 1 ≤ 1 }

end Sys2Proof.Machine
end

