-- ==== Sys2Proof/Machine/OpTable.lean ====
section
/-! DEFINITION. TRELLIS_CONFIG (R546) and the opcode families of Table 2-2: which opcodes are defined and how each acts
(R46). -/

namespace Sys2Proof.Machine

/-- A ring that is not closed sets RING_BROKEN (Table 18-3). -/
def ringCheck (s : State) : State :=
  if fld s.trl.cfg 30 2 = 1 && !ringClosed s then stickTrl 0b001000000 s else s

/-- TRELLIS_CONFIG. -/
def opTrellisConfig : OpSpec :=
  chipOp 4 [] (fun b => onlyBits 1 0xFC b && zeroAt [2, 3] b) fun q s =>
    let w := wordAt q.pkt.payload 0
    if !isLead s then refuse 0x1141 s
    else if 1 < fld w 30 2 || !w.getLsbD 26 || fld w 18 8 = 0 then refuse 0x1140 s
    else done .ok (ringCheck (trlNote 0x1107 info (self s) w.toNat q.pkt.host.val 0 (modTrl (fun x => { x with cfg := w }) s)))

/-- The opcodes of Table 2-2's families. -/
def opSpec (op : Half) : Option OpSpec :=
  match op.toNat with
  | 0x0000 => some opNop
  | 0x0001 => some opIdentify
  | 0x0002 => some opReadStatus
  | 0x0003 => some opClearStatus
  | 0x0004 => some opRestart
  | 0x0005 => some opEventRoute
  | 0x0006 => some opEventMask
  | 0x0007 => some opHostBind
  | 0x0008 => some opHostRelease
  | 0x0009 => some opAuthPolicy
  | 0x000A => some opSchedCancel
  | 0x000B => some opHostSilence
  | 0x0100 => some opDomainSet
  | 0x0101 => some opWakeConfig
  | 0x0102 => some opLastWake
  | 0x0103 => some opTimerWake
  | 0x0200 => some opOutSet
  | 0x0201 => some opOutConfig
  | 0x0202 => some opOutRead
  | 0x0203 => some opGangSet
  | 0x0204 => some opOutCas
  | 0x0300 => some opProtConfig
  | 0x0301 => some opLatchClear
  | 0x0302 => some opEnvelopeLearn
  | 0x0400 => some opRegionConfig
  | 0x0401 => some opPruneClassSet
  | 0x0402 => some opModuleBudget
  | 0x0500 => some opBrMove
  | 0x0501 => some opBrConfig
  | 0x0502 => some opBrRead
  | 0x0503 => some opBrClear
  | 0x0504 => some opBrPosition
  | 0x0505 => some opBrLearn
  | 0x0600 => some opValveSet
  | 0x0601 => some opValveConfig
  | 0x0602 => some opHeaderConfig
  | 0x0603 => some opValveRead
  | 0x0604 => some opValveClear
  | 0x0605 => some opValveExcl
  | 0x0700 => some opSwConfig
  | 0x0701 => some opSwRead
  | 0x0702 => some opAnConfig
  | 0x0703 => some opAnRead
  | 0x0704 => some opCyclicConfig
  | 0x0800 => some opFqSet
  | 0x0801 => some opFieldConfig
  | 0x0802 => some opFieldRead
  | 0x0900 => some opReflexWrite
  | 0x0901 => some opReflexEnable
  | 0x0902 => some opReflexRead
  | 0x0A00 => some opPortConfig
  | 0x0A01 => some opVlanWrite
  | 0x0A02 => some opLinSchedule
  | 0x0A03 => some opFilterWrite
  | 0x0A04 => some opAuthChannel
  | 0x0A05 => some opFrameSend
  | 0x0B00 => some opTimeRead
  | 0x0B01 => some opTimeConfig
  | 0x0B02 => some opTimeSet
  | 0x0B03 => some opWallSet
  | 0x0C00 => some opDormConfig
  | 0x0C01 => some opDormNeed
  | 0x0C02 => some opDormKeep
  | 0x0C03 => some opDormWuf
  | 0x0D00 => some opChallenge
  | 0x0D01 => some opTpChallenge
  | 0x0D02 => some opAccessConfig
  | 0x0D03 => some opTokenEnrol
  | 0x0D04 => some opTokenLoad
  | 0x0D05 => some opTokenRemove
  | 0x0D06 => some opTokenRevoke
  | 0x0D07 => some opProxVerdict
  | 0x0D08 => some opAccessPoll
  | 0x0E00 => some opRootstockEstablish
  | 0x0E01 => some opRootstockInvalidate
  | 0x0E02 => some opKeyLoad
  | 0x0E03 => some opKeyClear
  | 0x0E04 => some opKeyAttest
  | 0x0F00 => some opAlmanacWindow
  | 0x0F01 => some opAlmanacFlush
  | 0x0F02 => some opAlmanacConfig
  | 0x0F03 => some opAlmanacRate
  | 0x0F04 => some opWatchConfig
  | 0x0F05 => some opVaultClear
  | 0x1000 => some opFaultInject
  | 0x1001 => some opFaultClear
  | 0x1100 => some opTrellisConfig
  | 0x1200 => some opPlanWrite
  | 0x1201 => some opPlanCommit
  | 0x1202 => some opMirrorRestore
  | _ => none

end Sys2Proof.Machine
end

