-- ==== Sys2Proof/Machine/Accept.lean ====
section
/-! DEFINITION. From a packet's arrival to its execution: the acceptance checks of Table 2-7, chains (R74), the scheduler
(R75 to R80), the unit queues' heads, authentication (R65 to R68), and the timers of hosts (R63, R88). -/

namespace Sys2Proof.Machine

/-- A packet that fails a check of Table 2-7 completes without having been queued (R69), under a number no queued packet has;
its reply is the acceptance reply (R78). -/
def reject (q : QPkt) (code detail : Half) (s : State) : State :=
  complete { q with seq := s.cmd.arrivals, ranLate := true, late := false } (.err code detail) s

/-- A packet as it arrives, not authenticated yet. -/
def arriving (p : Packet) (src : Option EthSrc) (s : State) : QPkt :=
  { mkQ p [] s with authOk := false, pcp := src.elim 0 (·.pcp), src := src }

/-! ### Steps 2 to 4 -/

/-- The first failure of steps 2 to 4: `resBad` says that a reserved header bit is set, `lenBad` that the length exceeds
1,024 or the carrier. Bytes that a payload too short for its opcode lacks read 00h here (log entry 42). -/
def staticFail (p : Packet) (resBad lenBad : Bool) (s : State) : Option Half :=
  match opSpec p.opcode with
  | none => some stBadOpcode
  | some spec =>
    if lenBad then some stBadLength
    else if resBad || !(p.member.toNat ≤ 3 || p.member == 15)
        || (if p.auth then 0x3F < p.keySlot.toNat else p.keySlot != 0xFF) then some stBadParam
    else if !spec.resOk p.payload || (spec.units p s).isEmpty then some stBadParam
    else none

/-! ### Admission (steps 9 to 11) -/

/-- The zone instant T of a scheduled packet. -/
def execTime (p : Packet) : Nat := p.time.elim 0 (·.toNat)

/-- A cell command that creates demand at T (R184). -/
def outDemandAt (n : Fin 96) (b : List Byte) (t : Nat) (s : State) : Bool :=
  let c := s.outs[n]
  let mode : BitVec 2 := BitVec.ofNat 2 (byteAt b 12).toNat
  let v : PwmVals := if (byteAt b 13).getLsbD 1 then c.vals else ⟨numAt b 16 4, numAt b 20 4, numAt b 24 4⟩
  if mode == 1 then true
  else if mode.toNat ≤ 1 || mode == c.mode || (byteAt b 13).getLsbD 0 || !pwmRange (outClass n) mode v then false
  else
    let r := pwmOnNs mode v (tPMN (outClass n) (slewOf c))
    decide ((t : Int) < periodStart mode (stagger c) n v t + r.1)

/-- The OUT_SET payload that a packet brings to cell `n`, and whether it is one: of OUT_CAS while its comparison passes (R175). -/
def outSetOf (q : QPkt) (n : Fin 96) (s : State) : Option (List Byte) :=
  let b := q.pkt.payload
  if q.pkt.opcode == 0x0200 then some b
  else if q.pkt.opcode == 0x0204 && s.outs[n].mode.toNat = (byteAt b 1).toNat then some (b.drop 4)
  else none

/-- The token request of a staged turn-on (R184, R241, R175). -/
def stageToken (q : QPkt) (u : UnitRef) (t : Nat) (s : State) : State :=
  let b := q.pkt.payload
  match u with
  | .out n =>
    let c := s.outs[n]
    let rests := c.st == .off || c.st == .falling || c.st == .demag
    if (outSetOf q n s).any (outDemandAt n · t s) && !isSecondary n s && rests && !demand c && c.tok == .none
        && !inhibited n s && !isHot n s then
      modOut n (fun c => { c with tok := .waiting (now s) false, tokDue := some t, staged := true }) s
    else s
  | .leg n =>
    let k := legBridge n
    let x := s.brs[k]
    let c : BrCmd := ⟨(byteAt b 1).toNat, numAt b 2 2, (wordAt b 4).toInt, (byteAt b 8).getLsbD 0⟩
    if q.pkt.opcode == 0x0500 && moveDemand c x.pos && (x.st == .coast || x.st == .brake || x.st == .stopping) && x.tok == .none
        && !brInhibited k s then
      modBr k (fun x => { x with tok := .waiting (now s) false, tokDue := some t, staged := true }) s
    else s
  | .vl n =>
    let v := s.vls[n]
    if q.pkt.opcode == 0x0600 && (byteAt b 2).toNat = 1 && v.st == .off && v.tok == .none && !vlInhibited n s then
      modVl n (fun v => { v with tok := .waiting (now s) false, tokDue := some t, staged := true }) s
    else s
  | _ => s

/-- Staging is the instant of step 12 of Table 2-7 (R75): the unit's own refusal, and its parameters. What is accepted takes
effect at T, and is judged again there, since the spec gives a unit that has changed since no other outcome (log entry 42);
OUT_CAS compares at T (R175). -/
def stageJudge (spec : OpSpec) (q : QPkt) (u : UnitRef) (s : State) : Option (UnitRes × State) :=
  match spec.act with
  | .perUnit f _ =>
    let r := f q u s
    if r.1.refused && q.pkt.opcode != 0x0204 then some r else none
  | .whole _ => none

/-- Staging of one unit: the checks of step 12 (R75), and the token request. -/
def stageUnit (spec : OpSpec) (seq : Nat) (s : State) (u : UnitRef) : State :=
  match s.cmd.waiting.find? (·.seq = seq) with
  | none => s
  | some q =>
    let ds := unitDoms spec q u s
    match domChecks ds s with
    | .stall => wakeAll ds s
    | .refuse c =>
      let q := { q with todo := q.todo.filter (· ≠ u), results := q.results ++ [⟨u, c, 0, domOutcome c⟩] }
      if q.todo.isEmpty then finishParts spec q (putQ q s) else putQ q s
    | .go =>
      if !spec.parOk q.pkt.payload then complete q (.err stBadParam) s
      else match stageJudge spec q u s with
        | some r =>
          let q := { q with todo := q.todo.filter (· ≠ u), results := q.results ++ [r.1] }
          if q.todo.isEmpty then finishParts spec q (putQ q r.2) else putQ q r.2
        | none => stageToken q u (q.effect.getD 0) s

/-- A scheduled packet goes to the heads of its queues (R75). -/
def stage (q : QPkt) (s : State) : State :=
  match opSpec q.pkt.opcode with
  | none => s
  | some spec =>
    let q := { q with staged := true, todo := q.units, results := [] }
    let s := modCmd (fun c => { c with sched := c.sched.filter (·.seq ≠ q.seq), waiting := c.waiting ++ [q] }) s
    q.units.foldl (stageUnit spec q.seq) s

/-- A packet joins the queues of its units, or none of them (R71). -/
def enqueue (q : QPkt) (s : State) : State :=
  if q.units.any (fun u => decide (Config.queueCap ≤ queueLoad u s)) then reject q stBusy 1 (stickCmd 0x010 s)
  else modCmd (fun c => { c with waiting := c.waiting ++ [q], arrivals := c.arrivals + 1 }) s

/-- Step 10 (R77). -/
def schedule (q : QPkt) (s : State) : State :=
  let t := execTime q.pkt
  if t < zone s then enqueue { q with late := true, ranLate := true } s
  else if zone s + 10 * Config.sec < t then reject q stBadParam 0 s
  else if Config.schedCap ≤ schedLoad s then reject q stBusy 2 (stickCmd 0x020 s)
  else
    let q := { q with effect := some t }
    let s := noteLoad (modCmd (fun c => { c with sched := c.sched ++ [q], arrivals := c.arrivals + 1 }) s)
    let s := sendReply q 0 1 [] none .none s
    if t ≤ zone s + Config.tSQL then stage q s else s

/-- Steps 9 to 11. A later packet of a scheduled chain goes to the heads of its queues (R74). -/
def admitPkt (q : QPkt) (head : Bool) (s : State) : State :=
  match opSpec q.pkt.opcode with
  | none => s
  | some spec =>
    let units := spec.units q.pkt s
    let q := { q with seq := s.cmd.arrivals, todo := units, units := units }
    if !spec.lenOk q.pkt.payload then reject q stBadLength 0 s
    else if head then
      modCmd (fun c => { c with waiting := c.waiting ++ [{ q with staged := true }], arrivals := c.arrivals + 1 }) s
    else if q.pkt.time.isSome then schedule q s
    else enqueue q s

/-! ### Step 8: chains (R74, R534) -/

def chainHost (p : Packet) : Fin 14 := Fin.ofNat 14 p.host.val

def setChain (h : Fin 14) (c : ChainSt) (s : State) : State := modHost h (fun x => { x with chain := c }) s

/-- The chain of a host breaks: its waiting packets are answered, the next ones belong to it until one with CHAIN clear. -/
def breakChain (h : Fin 14) (s : State) : State :=
  let c := s.hosts[h].chain
  let run := s.cmd.chains.find? (·.id = c.id)
  let s := setChain h { c with open_ := false, broken := true } s
  let s := modCmd (fun x => { x with chains := x.chains.filter (·.id ≠ c.id) }) s
  let s := match run with
    | some r => r.waiting.foldl (fun s q => answerBroken q s) s
    | none => s
  stickCmd 0x080 s

/-- The packet that ends a broken chain. -/
def endBroken (p : Packet) (s : State) : State :=
  if p.chain then s else setChain (chainHost p) ChainSt.fresh s

/-- A packet breaks its chain and fails with this status. -/
def breakWith (q : QPkt) (code detail : Half) (s : State) : State :=
  endBroken q.pkt (reject q code detail (breakChain (chainHost q.pkt) s))

/-- A packet rejected at steps 2 to 7 is a packet of its host's chain all the same: it has completed with another status than OK
or DEFERRED, so every later packet of the chain is answered with CHAIN_BROKEN, and with CHAIN clear it is the last one (R74). The
packets before it that wait for their turn keep it. -/
def rejectEarly (q : QPkt) (code detail : Half) (s : State) : State :=
  let h := chainHost q.pkt
  let c := s.hosts[h].chain
  let s := reject q code detail s
  if c.broken then endBroken q.pkt s
  else if c.open_ || q.pkt.chain then
    let done_ (r : ChainRun) : Bool := c.open_ && decide (r.id = c.id) && r.prev.isSome && r.waiting.isEmpty
    let s := modCmd (fun x => { x with chains := x.chains.filter (!done_ ·) }) s
    endBroken q.pkt (stickCmd 0x080 (setChain h { c with open_ := false, broken := true } s))
  else s

/-- A chain starts with this packet. -/
def openChain (q : QPkt) (s : State) : State :=
  let id := s.cmd.chainNext
  let s := setChain (chainHost q.pkt) ⟨true, false, 1, id, q.pkt.member, now s⟩ s
  let run : ChainRun := ⟨id, q.pkt.host, q.pkt.time.isSome, none, []⟩
  modCmd (fun c => { c with chains := c.chains ++ [run], chainNext := id + 1 }) s

def modRun (id : Nat) (f : ChainRun → ChainRun) (s : State) : State :=
  modCmd (fun c => { c with chains := c.chains.map fun r => if r.id = id then f r else r }) s

/-- A further packet of an open chain. -/
def chainJoin (q : QPkt) (s : State) : State :=
  let h := chainHost q.pkt
  let c := s.hosts[h].chain
  let q := { q with chain := some c.id }
  let s' := setChain h (if q.pkt.chain then { c with count := c.count + 1, lastAt := now s } else ChainSt.fresh) s
  match s.cmd.chains.find? (·.id = c.id) with
  | none => admitPkt { q with chain := none } false s'
  | some r =>
    if r.prev.isSome && r.waiting.isEmpty then admitPkt q r.sched (modRun c.id (fun r => { r with prev := none }) s')
    else noteLoad (modRun c.id (fun r => { r with waiting := r.waiting ++ [q] }) s')

/-- Step 8. -/
def chainStep (q : QPkt) (s : State) : State :=
  let h := chainHost q.pkt
  let c := s.hosts[h].chain
  if c.broken then endBroken q.pkt (answerBroken { q with ranLate := true } s)
  else if c.open_ then
    let sched := s.cmd.chains.any fun r => decide (r.id = c.id) && r.sched
    if Config.chainCap ≤ c.count || q.pkt.time.isSome then breakWith q stBadParam 0 s
    else if sched && Config.schedCap ≤ schedLoad s then breakWith q stBusy 2 (stickCmd 0x020 s)
    else chainJoin q s
  else if q.pkt.chain then
    let id := s.cmd.chainNext
    admitPkt { q with chain := some id } false (openChain q s)
  else admitPkt q false s

/-- CHAIN_NEXT_ADMIT. -/
def chainNextAdmit (host : Fin 14) (s : State) : State :=
  match s.cmd.chains.find? (fun r => r.host.val = host.val && r.prev.isSome && !r.waiting.isEmpty) with
  | none => s
  | some r =>
    match r.waiting with
    | [] => s
    | q :: rest =>
      if engineRuns s then admitPkt q r.sched (modRun r.id (fun r => { r with prev := none, waiting := rest }) s) else s

/-- CHAIN_TIMEOUT: 10 ms since the last packet of an open chain. -/
def chainTimeout (host : Fin 14) (s : State) : State :=
  let c := s.hosts[host].chain
  if c.open_ && decide (c.lastAt + Config.tChain ≤ now s) then breakChain host s else s

/-! ### Step 7: authentication (R65 to R68) -/

/-- The opcode needs AUTH: always by its owner, or by the policy of its family; IDENTIFY never. -/
def needsAuth (p : Packet) (s : State) : Bool :=
  alwaysAuth p.opcode p.host || (s.cmd.authPolicy.getLsbD (p.opcode.toNat / 256) && p.opcode != 0x0001)

/-- The slot attribute an authenticated opcode asks for (Table 15-2): RANGING for PROX_VERDICT, CMD for every other. -/
def authAttr (op : Half) : Nat := if op == 0x0D07 then 3 else 0

/-- The checks of R66 from step 2 on. -/
def authCheck (q : QPkt) (s : State) : State :=
  let k : Fin 64 := Fin.ofNat 64 q.pkt.keySlot.toNat
  let x := s.ks.slots[k]
  let fail (code detail : Half) (s : State) : State := rejectEarly q code detail (stickCmd 0x004 s)
  if x.st == .orphaned then fail stOrphaned 0 (opAborted k 1 q.pkt.host.val s)
  else if x.st == .empty then fail stAuthFail 1 s
  else if !x.attr.getLsbD (authAttr q.pkt.opcode) then fail stAuthFail 1 (stickSlot k 0x01 s)
  else if x.seqS == 0xFFFFFFFF then fail stAuthFail 1 (stickSlot k 0x02 s)
  else if Crypto.cmac8 x.key (cmacMessage q.pkt) != q.pkt.cmac then fail stAuthFail 2 (touch 14 s)
  else if !replayOk x q.pkt.hostSeq then rejectEarly q stReplay 0 (stickCmd 0x008 (touch 14 s))
  else
    let s := acceptSeq k q.pkt.hostSeq (touch 14 s)
    let s := if q.pkt.hostSeq == 0xFFFFFFFF then stickSlot k 0x02 s else s
    chainStep { q with authOk := true } s

/-- Step 7 without AUTH. -/
def plainStep (q : QPkt) (s : State) : State :=
  if needsAuth q.pkt s then rejectEarly q stAuthFail 3 (stickCmd 0x004 s) else chainStep q s

/-- Step 7. An authenticated packet waits until D14 is on and its slots are reloaded (R66); the packets of a chain stay in their
order behind one of it that waits. -/
def authStep (q : QPkt) (s : State) : State :=
  if q.pkt.auth then
    if cryptoReady s && s.cmd.authWait.isEmpty then authCheck q s
    else wakeInternal 14 (modCmd (fun c => { c with authWait := c.authWait ++ [q] }) s)
  else if s.cmd.authWait.any (fun w => w.pkt.chain && w.pkt.host = q.pkt.host) then
    modCmd (fun c => { c with authWait := c.authWait ++ [q] }) s
  else plainStep q s

/-- PACKET_AUTH_CHECK. -/
def packetAuthCheck (s : State) : State :=
  match s.cmd.authWait with
  | [] => s
  | q :: rest =>
    if !engineRuns s then s
    else if cryptoReady s then
      (if q.pkt.auth then authCheck else plainStep) q (modCmd (fun c => { c with authWait := rest }) s)
    else wakeInternal 14 s

/-! ### Step 6: forwarding (R532 to R537) -/

/-- MEMBER_TIMEOUT × 0.5 ms. -/
def memberTimeout (s : State) : Nat := fld s.trl.cfg 18 8 * 500 * Config.us
def expected (m : Nat) (s : State) : Bool := s.trl.cfg.getLsbD (26 + m)

/-- A reply of the lead in a member's name (R535). -/
def memberReply (host : Fin 16) (p : Packet) (pcp : BitVec 3) (m : Fin 4) (code detail : Half) (s : State) : State :=
  if p.replyWanted then
    let r := replyPacket p code detail [] (BitVec.ofNat 2 m.val) none
    pushOut host ⟨0, packetBytes r, pcp, now s, .none⟩ s
  else s

/-- Send a packet to a member, or wake one that is expected and not reachable (R541): a trellis wake on a side is a frame of
no bytes. With REPLY_WANTED it is tracked. -/
def sendToMember (host : Fin 16) (p : Packet) (pcp : BitVec 3) (m : Fin 4) (bcast : Bool) (s : State) : State :=
  let body := packetBytes { p with host := 0 }
  let track (r : TrlReq) (s : State) : State := if p.replyWanted then modTrl (fun x => { x with reqs := x.reqs ++ [r] }) s else s
  match pathTo m s with
  | some k =>
    let s := if bcast then s else trlSend k trlPacket m.val (self s).val host.val body s
    track ⟨m, host, p, pcp, some (now s + memberTimeout s), none, bcast, false, []⟩ s
  | none =>
    if expected m.val s && !s.trl.dup then
      modTrl (fun x => { x with reqs := x.reqs ++ [⟨m, host, p, pcp, none, some (now s), bcast, false, body⟩]
                                out := x.out ++ [(0, []), (1, [])] }) s
    else
      let s := memberReply host p pcp m stMemberTimeout 1 s
      if bcast then bcastAnswer m.val host p.tag p.hostSeq false false s else s

/-- A packet for another member (R533, R534, R536). -/
def forward (q : QPkt) (s : State) : State :=
  let p := q.pkt
  let h := chainHost p
  let c := s.hosts[h].chain
  let m : Fin 4 := Fin.ofNat 4 p.member.toNat
  if c.broken then endBroken p (answerBroken { q with ranLate := true } s)
  else if p.replyWanted && 64 ≤ (s.trl.reqs.filter (·.pkt.replyWanted)).length then rejectEarly q stBusy 4 (stickTrl 0b000000100 s)
  else
    let s := if p.chain then
        (if c.open_ then setChain h { c with count := c.count + 1, lastAt := now s } s
         else modCmd (fun x => { x with chainNext := x.chainNext + 1 }) (setChain h ⟨true, false, 1, s.cmd.chainNext, p.member, now s⟩ s))
      else setChain h ChainSt.fresh s
    sendToMember p.host p q.pcp m false s

/-- A broadcast (R537): the lead's own copy, one frame on each side, and with REPLY_WANTED a tracked request per member of
EXPECT; for a member of EXPECT that sleeps the packet is held (R541). -/
def broadcast (q : QPkt) (s : State) : State :=
  let p := q.pkt
  let body := packetBytes { p with host := 0 }
  let open_ : BitVec 4 := BitVec.ofNat 4 (fld s.trl.cfg 26 4)
  let s := if p.replyWanted then modTrl (fun x => { x with bcasts := x.bcasts ++ [⟨p.host, p, q.pcp, open_, 0, 0⟩] }) s else s
  let s := trlSend 1 trlPacket 15 (self s).val p.host.val body (trlSend 0 trlPacket 15 (self s).val p.host.val body s)
  let members := ((List.range 4).map (Fin.ofNat 4)).filter fun m => m ≠ self s && expected m.val s
  let s := members.foldl (fun s m => sendToMember p.host p q.pcp m true s) s
  authStep q s

/-- Step 6 of Table 2-7. -/
def memberStep (q : QPkt) (s : State) : State :=
  let p := q.pkt
  let own := p.member == s.boot.member.setWidth 4
  let c := s.hosts[chainHost p].chain
  if c.open_ && c.member != p.member then breakWith q stBadParam 0 s
  else if p.member == 15 && p.chain then breakWith q stBadParam 0 s
  else if own then authStep q s
  else if p.member == 15 then (if isLead s then broadcast q s else authStep q s)
  else if !isLead s then rejectEarly q stBadParam 0 s
  else forward q s

/-! ### Arrival (R61 to R63, R87, R88) -/

/-- A packet of the host passed its header check: its timers restart, and its registration follows the port. -/
def hostSeen (h : Fin 14) (port : Option (Fin 2)) (s : State) : State :=
  modHost h (fun x =>
    { x with reg := x.reg.map fun r => { r with port := port.getD r.port }
             lapseAt := s.clk.cmdClock + Config.tLapse
             silenceAt := if x.silence = 0 then x.silenceAt else some (s.clk.cmdClock + x.silence * 10 * Config.ms) }) s

/-- Steps 2 to 12 for a packet of a host with an ID. -/
def arrive (p : Packet) (src : Option EthSrc) (resBad lenBad : Bool) (s : State) : State :=
  let q := arriving p src s
  match staticFail p resBad lenBad s with
  | some code => rejectEarly q code 0 s
  | none => memberStep q s

/-- A packet of the reflex table or the planting plan: steps 5 to 7 do not apply (R115, R348). -/
def arriveInside (p : Packet) (resBad : Bool) (s : State) : State :=
  let q := arriving p none s
  match staticFail p resBad (decide (1024 < p.payload.length)) s with
  | some code => rejectEarly q code 0 s
  | none => chainStep q s

/-- HOST_LAPSE (R63). -/
def hostLapse (h : Fin 14) (s : State) : State :=
  if s.hosts[h].reg.any (fun r => !r.bound) && decide (s.hosts[h].lapseAt ≤ s.clk.cmdClock) then hostLapses h s else s

/-- HOST_SILENCE_EXPIRY (R88). -/
def hostSilenceExpiry (h : Fin 14) (s : State) : State :=
  let x := s.hosts[h]
  if x.silenceAt.any (fun t => decide (t ≤ s.clk.cmdClock)) then
    let s := modHost h (fun x => { x with silent := true, silenceAt := none }) s
    raise 236 (modCmd (fun c => { c with sticky := c.sticky ||| 0x800 }) s)
  else s

/-! ### Execution from the queues and the scheduler -/

/-- The gate command of a scheduled turn-on or turn-off, and that alone, starts tD50 before T on a cell with an edge reference
(R170): a change of MODE that the packet will make, and what its demand is at T (R184). -/
def earlyEdge (q : QPkt) (u : UnitRef) (s : State) : State :=
  match u, q.effect with
  | .out n, some t =>
    let c := s.outs[n]
    match outSetOf q n s with
    | some b =>
      let mode : BitVec 2 := BitVec.ofNat 2 (byteAt b 12).toNat
      let want := outDemandAt n b t s
      if c.early.isNone && decide (t ≤ zone s + edgeLead n s) && domOn (outDomain n) s && !isSecondary n s && mode != c.mode
          && (mode == 0 || c.prot == .none) && want != demand c then
        settle n (modOut n (fun c => { c with early := some want }) s)
      else s
    | none => s
  | _, _ => s

/-- Execute the head of one unit's queue when its effect is due. -/
def runHead (u : UnitRef) (s : State) : State :=
  match queueHead u s with
  | none => s
  | some q =>
    match opSpec q.pkt.opcode with
    | none => s
    | some spec => if effectDue q s then runPart spec q u s else earlyEdge q u s

/-- QUEUED_PACKET_EXECUTE (R70, R72). While D00 leaves on only a packet in execution goes on (R132). -/
def queuedPacketExecute (u : UnitRef) (s : State) : State :=
  if engineRuns s || engineLeaves s && (queueHead u s).any (·.executing) then runHead u s else s

/-- SCHEDULED_STAGING: the first packet, by T, PRIORITY and arrival, whose T − tSQL has come (R75, R76). -/
def scheduledStaging (s : State) : State :=
  if engineRuns s then
    let due := s.cmd.sched.filter fun q => decide (q.effect.getD 0 ≤ zone s + Config.tSQL)
    match firstQ (due.map fun q => { q with staged := true }) with
    | some q => stage q s
    | none => s
  else s

/-- Packets in the order of R76. -/
def sortQ : Nat → List QPkt → List QPkt
  | 0, _ => []
  | n + 1, l => match firstQ l with
    | none => []
    | some q => q :: sortQ n (l.filter (·.seq ≠ q.seq))

/-- SCHEDULED_EFFECT: staged packets whose T has come take effect in their order (R75, R76). -/
def scheduledEffect (s : State) : State :=
  if engineRuns s then
    let l := s.cmd.waiting.filter fun q => q.staged && q.effect.isSome
    (sortQ l.length l).foldl (fun s q => q.todo.foldl (fun s u =>
      if (queueHead u s).any (·.seq = q.seq) then runHead u s else s) s) s
  else s

/-- REPLY_CMAC_BUILD (R47): the first reply that waits for D14. -/
def replyCmacBuild (s : State) : State :=
  match s.cmd.replyWait with
  | [] => s
  | r :: rest =>
    if cryptoReady s then buildAuthReply r.pkt r.slot r.src r.pcp r.mark (modCmd (fun c => { c with replyWait := rest }) s)
    else wakeInternal 14 s

/-- The write of the highest class that waits, in order (R504). -/
def firstWrite : List NvWrite → Option NvWrite
  | [] => none
  | w :: r => match firstWrite r with
    | none => some w
    | some x => if x.cls < w.cls then some x else some w

def dropWrite (w : NvWrite) : List NvWrite → List NvWrite
  | [] => []
  | x :: r => if x = w then r else x :: dropWrite w r

/-- The answer of a packet that a write completes: PLAN_WRITE, or PLAN_COMMIT with its mark written, whose copy is valid from
then on (R122, R123, R126). -/
def writeAnswer (q : QPkt) (s : State) : State :=
  if q.pkt.opcode == 0x1201 then
    let v := (readPlan s.plan.targetB s.nv).version.toNat
    complete q (.ok (be 4 v)) (note 0x1206 info 0 0 (if s.plan.targetB then 1 else 0) v q.pkt.host.val (planState s.plan.targetB 0 s))
  else complete q .ok s

/-- NV_WRITE_DONE: record flushes come first (R504). The body of a key store update is in once its own write is (R465). -/
def nvWriteDone (s : State) : State :=
  if (domState 15 s).answer == .on && s.alm.flush.isNone then
    match firstWrite s.alm.writes with
    | none => s
    | some w =>
      let s := touch 15 { s with nv := w.apply s.nv, alm := { s.alm with writes := dropWrite w s.alm.writes } }
      let s := if w.cls = 5 && w.addr = storeAddr (!s.ks.copyB) then modKs (fun k => { k with written := true }) s else s
      match w.q with
      | some q => writeAnswer q s
      | none => s
  else s

/-- The firings of this core cycle, in order: with ACT the stored packet is admitted as host 11, then the other steps (R347, R348). -/
def admitFired (s : State) : State :=
  s.rfx.fired.foldl (fun s f =>
    let s := if rfxAct f.2.1 && engineRuns s then arriveInside (storedPacket f.1 f.2.1 s) false s else s
    firedRest f.1 f.2.1 f.2.2 s) { s with rfx := { s.rfx with fired := [] } }

/-! ### The planting plan's packets (R112, R115 to R117) -/

/-- A plan packet breaks R112. -/
def planForbidden (b : List Byte) : Bool :=
  let f := byteAt b 0
  f.toNat / 16 ≠ 1 || f.getLsbD 2 || f.getLsbD 1 || byteAt b 12 != 0xFF || byteAt b 13 != 0

/-- Run the heads that hold a packet of the plan. -/
def runPlanHeads (s : State) : State :=
  match s.cmd.waiting.find? (fun q => q.pkt.host = 12) with
  | none => s
  | some q => q.units.foldl (fun s u => if (queueHead u s).any (·.seq = q.seq) then runHead u s else s) s

/-- PLAN_PACKET: the next packet of the chosen copy, once the previous one has completed. -/
def planPacket (s : State) : State :=
  if s.boot.condition = 1 && s.boot.phase = 6 && engineRuns s && !planBusy s then
    match s.plan.next with
    | none => s
    | some (off, i) =>
      let c := readPlan s.plan.copyB s.nv
      if c.count ≤ i then s
      else
        let b := c.body.drop off
        let s := { s with plan := { s.plan with next := some (off + packetLen b, i + 1) } }
        let p := { parsePacket 12 b with prio := 0, replyWanted := false }
        if p.member != s.boot.member.setWidth 4 && p.member != 15 then s
        else if planForbidden b then rejectEarly (arriving p none s) stBadParam 0 s
        else runPlanHeads (arriveInside p (headerReserved b) s)
  else s

end Sys2Proof.Machine
end

