-- ==== Sys2Proof/Machine/Ports.lean ====
section
/-! DEFINITION. The ports of the command engine: SPI transactions (R50 to R54, R106), command frames at the Ethernet endpoint
(R57, R58, R61, R62, R141), outgoing frames (R59), event packets (R95, R96), the interrupt and attention lands, and the
internal switch (R362 to R365). -/

namespace Sys2Proof.Machine

/-! ### The leaving of an outgoing packet -/

/-- What starts when a marked reply has left (R85, R137, R521). -/
def replyLeft (m : ReplyMark) (s : State) : State :=
  let t := now s + Config.tAfterReply
  match m with
  | .none => s
  | .restart => modCmd (fun c => { c with restart := c.restart.map fun r => { r with waiting := false, at_ := some t } }) s
  | .domainSet => replyPathArm s
  | .inject =>
    { s with flt := { s.flt with inject := s.flt.inject.map fun j =>
        if j.armWait then { j with armWait := false, armAt := some t } else j } }

/-- The packets of a buffer in the order they leave (R97). -/
def outOrder (l : List OutPkt) : List OutPkt :=
  l.filter (·.rank = 0) ++ l.filter (·.rank = 1) ++ l.filter (·.rank = 2)

/-- A packet with the CRC-32 that follows it on SPI (R50). -/
def withTrailer (b : List Byte) : List Byte := b ++ be 4 (crc32 b).toNat

/-! ### The header check (R56) -/

/-- The reply of R56: TAG bytes as received, 00h for those that were not. -/
def badHeaderReply (h : Fin 16) (b : List Byte) (detail : Half) (s : State) : Packet :=
  { host := h, replyWanted := false, auth := false, chain := false, member := s.boot.member.setWidth 4, prio := 0
    opcode := 0x8000, tag := (byteAt b 4) ++ (byteAt b 5), hostSeq := 0, keySlot := 0xFF, time := none
    payload := be 2 stBadHeader.toNat ++ be 2 detail.toNat, cmac := [] }

/-- The sticky bit of a failed header check. -/
def headerStick (detail : Half) (s : State) : State := stickCmd (if detail == 2 then 0x002 else 0x001) s

/-- What fails in the 16 header bytes, if anything; `b` starts with the header and may end inside it. -/
def headerFail (b : List Byte) : Option Half :=
  if b.length < 16 then some 3 else if !hdrCrcOk b || (byteAt b 0).toNat / 16 ≠ 1 then some 1 else none

/-! ### SPI (R50 to R54, R106) -/

/-- The fixed NOT_READY reply with its CRC-32 (Table 3-4). -/
def notReadyReply (port : Fin 2) (s : State) : List Byte :=
  let phase := if s.boot.condition = 1 then s.boot.phase else if s.boot.condition = 2 then 5 else 0
  let head := be 1 0x10 ++ be 1 (16 * s.boot.member.toNat) ++ be 2 0x8000 ++ be 2 0 ++ be 2 0 ++ be 2 stNotReady.toNat
    ++ be 1 s.boot.condition ++ be 1 phase ++ be 1 0xFF ++ be 1 port.val
  withTrailer (head ++ be 2 (crc16 head).toNat)

/-- How an SPI port answers a transaction (Table 3-3, Table 4-3, Table 17-4). While RESET_N is low it is silent, while SPIx_ATTN and
the IRQ lands stand high as in phases 3 to 6 (log entry 42). -/
inductive SpiMode where
  | silent
  | fixed
  | live
  deriving DecidableEq, Repr

def spiMode (s : State) : SpiMode :=
  if s.boot.phase < 3 || s.boot.resetLow.isSome then .silent
  else if s.boot.condition = 1 || s.boot.condition = 3 then .fixed
  else if (domState 0 s).answer != .on then .silent
  else if ready s && s.boot.condition = 0 then .live else .fixed

/-- A packet that reaches the engine over SPI, with its CRC-32 (R51). While a restart is awaited it is discarded (R85). Where both
the header and the CRC-32 fail the header is judged first, as it comes first: detail 0001h (R56, log entry 42). -/
def spiReceive (port : Fin 2) (b : List Byte) (s : State) : State :=
  let h16 : Fin 16 := Fin.ofNat 16 port.val
  let bad (d : Half) (s : State) : State :=
    pushOut h16 ⟨0, packetBytes (badHeaderReply h16 b d s), 0, now s, .none⟩ (headerStick d s)
  let n := packetLen b
  if b.isEmpty || byteAt b 0 == 0xFF || s.cmd.restart.isSome then s
  else match headerFail b with
    | some d => bad d s
    | none =>
      if b.length < n + 4 || crc32 (b.take n) != wordAt b n then bad 2 s
      else arrive (parsePacket h16 b) none (headerReserved b) (decide (1024 < numAt b 6 2))
        (hostSeen (Fin.ofNat 14 port.val) none s)

/-- The first packet of a buffer leaves with a transaction long enough for it and its CRC-32; one that is cut short stays first
in the buffer (R52, R53). -/
def spiSend (port : Fin 2) (n : Nat) (s : State) : State :=
  let h : Fin 14 := Fin.ofNat 14 port.val
  match outOrder s.hosts[h].out with
  | [] => modCmd (fun c => { c with lastOut := List.replicate n 0xFF }) s
  | o :: rest =>
    let w := withTrailer o.bytes
    let s := modCmd (fun c => { c with lastOut := (w ++ List.replicate n 0xFF).take n }) s
    if w.length ≤ n then replyLeft o.mark (modHost h (fun x => { x with out := rest }) s)
    else modHost h (fun x => { x with out := { o with rank := 0 } :: rest }) s

/-- SPI_TRANSACTION: `bytes` is what the host shifts in while SPIx_CS_N is low. -/
def spiTransaction (port : Fin 2) (bytes : List Byte) (s : State) : State :=
  match spiMode s with
  | .silent => s
  | .fixed =>
    modCmd (fun c => { c with lastOut := (notReadyReply port s ++ List.replicate bytes.length 0xFF).take bytes.length }) s
  | .live => spiReceive port bytes (spiSend port bytes.length s)

/-! ### The levels of the attention and interrupt lands (R54, R94, R105, Table 17-4) -/

inductive LandLevel where
  | low
  | high
  | highZ
  deriving DecidableEq, Repr

/-- SPIx_ATTN. -/
def attnLevel (port : Fin 2) (s : State) : LandLevel :=
  if s.boot.phase < 3 then .highZ
  else if s.boot.condition ≠ 0 || !ready s then .high
  else if s.hosts[(Fin.ofNat 14 port.val : Fin 14)].out.isEmpty then .high else .low

/-- IRQn. -/
def irqLevel (n : Fin 4) (s : State) : LandLevel :=
  if s.boot.phase < 3 then .highZ
  else if s.boot.condition = 3 then .low
  else if s.boot.condition = 1 then .high
  else if (List.range 256).any (fun e => s.ev.pending.getLsbD e && (route e s.ev).irqEn && (route e s.ev).irqSel.toNat = n.val)
    then .low else .high

/-! ### Command frames at the endpoint (R57, R58, R61, R62, R141, R532) -/

/-- The host ID of a source. -/
def sourceHost (src : EthSrc) (s : State) : Option (Fin 14) :=
  ((List.range 14).map (Fin.ofNat 14)).find? fun h => holdsPair src.mac src.vlan s.hosts[h]

/-- The lowest free host ID from 2 to 9 (R61). -/
def freeHost (s : State) : Option (Fin 14) :=
  ((List.range 14).map (Fin.ofNat 14)).find? fun h => ethHost h.val && s.hosts[h].reg.isNone

/-- A packet that fails its header check (R56). -/
def ethBadHeader (src : EthSrc) (b : List Byte) (d : Half) (s : State) : State :=
  let s := headerStick d s
  match sourceHost src s with
  | some h =>
    let h16 : Fin 16 := Fin.ofNat 16 h.val
    pushOut h16 ⟨0, packetBytes (badHeaderReply h16 b d s), src.pcp, now s, .none⟩ s
  | none => directReply src (badHeaderReply 0 b d s) s

/-- A packet of an Ethernet source that passed its header check: `over` says that it runs past the end of the payload. -/
def ethPacket (src : EthSrc) (b : List Byte) (over_ : Bool) (s : State) : State :=
  let lenBad := over_ || decide (1024 < numAt b 6 2)
  let resBad := headerReserved b
  match sourceHost src s with
  | some h => arrive (parsePacket (Fin.ofNat 16 h.val) b) (some src) resBad lenBad (hostSeen h (some src.port) s)
  | none =>
    let p := parsePacket 0 b
    let direct (code detail : Half) (s : State) : State :=
      if p.replyWanted then directReply src (replyPacket p code detail [] s.boot.member none) s else s
    match staticFail p resBad lenBad s with
    | some code => direct code 0 s
    | none =>
      match freeHost s with
      | none => direct stBusy 3 (stickCmd 0x040 s)
      | some h =>
        let s := modHost h (fun x => { x with reg := some ⟨src.mac, src.vlan, src.port, false⟩ }) s
        arrive (parsePacket (Fin.ofNat 16 h.val) b) (some src) resBad lenBad (hostSeen h (some src.port) s)

/-- The packets of a frame in order; `n` bounds their number (R58). -/
def parseFrame (src : EthSrc) : Nat → List Byte → State → State
  | 0, _, s => s
  | n + 1, b, s =>
    if b.isEmpty || byteAt b 0 == 0 then s
    else match headerFail b with
      | some d => ethBadHeader src b d s
      | none =>
        let over_ := decide (b.length < packetLen b)
        let s := ethPacket src b over_ s
        if over_ then s else parseFrame src n (b.drop (packetLen b)) s

/-- A command frame that the engine takes. -/
def takeFrame (src : EthSrc) (b : List Byte) (s : State) : State := parseFrame src b.length b s

def endpointDrop (p : Fin 2) (s : State) : State := stickEth p 0x02 s

/-- Frames pass the port: its domain is on and it is neither in a test mode nor asleep (R360, R405, Table 4-3). -/
def portPasses (p : Fin 2) (s : State) : Bool := domOn (portDomain p) s && !portShut p s

/-- ENDPOINT_FRAME_WAKE: a command frame while D00 is down. With wake-on-access set the frame is a firing of detector 0Ch and is
buffered, up to 8 per port (R141); else it is discarded. -/
def endpointFrameWake (src : EthSrc) (b : List Byte) (s : State) : State :=
  if !portPasses src.port s || (domState 0 s).answer == .on then s
  else if !isLead s || !s.dom.dom[(0 : Fin 16)].woa then endpointDrop src.port s
  else
    let s := if s.boot.condition ≠ 3 && (s.dom.frames.filter (·.port = src.port)).length < 8 then
        { s with dom := { s.dom with frames := s.dom.frames ++ [⟨src.port, src.mac, src.vlan, src.pcp, b⟩] } }
      else endpointDrop src.port s
    fireDetector 0x0C src.port.val (1 ||| BitVec.ofNat 16 (2 ^ (1 + src.port.val))) s

/-- ETH_COMMAND_FRAME: a frame of EtherType 88B5h addressed to the endpoint arrives at a port. -/
def ethCommandFrame (src : EthSrc) (b : List Byte) (s : State) : State :=
  if !portPasses src.port s || s.boot.condition = 1 then s
  else if (domState 0 s).answer != .on then endpointFrameWake src b s
  else if !isLead s || !ready s || s.boot.condition ≠ 0 then endpointDrop src.port s
  else if s.cmd.restart.isSome then s
  else takeFrame src b s

/-! ### Outgoing frames (R59) -/

/-- As many packets as one frame of 1,500 bytes takes. -/
def fitFrame : Nat → List OutPkt → List OutPkt × List OutPkt
  | _, [] => ([], [])
  | room, o :: r =>
    if o.bytes.length ≤ room then ((o :: (fitFrame (room - o.bytes.length) r).1), (fitFrame (room - o.bytes.length) r).2)
    else ([], o :: r)

def maxPcp (l : List OutPkt) : BitVec 3 := l.foldl (fun m o => if m.toNat < o.pcp.toNat then o.pcp else m) 0

/-- ETH_OUTGOING_FRAME: the first waiting packets of an Ethernet host leave in one frame. -/
def ethOutgoingFrame (h : Fin 14) (s : State) : State :=
  match s.hosts[h].reg with
  | none => s
  | some r =>
    let (a, rest) := fitFrame 1500 (outOrder s.hosts[h].out)
    if a.isEmpty || !domOn (portDomain r.port) s || (domState 0 s).answer != .on then s
    else
      let pcp := maxPcp a
      let s := modHost h (fun x => { x with out := rest }) s
      let s := sendFrame (Fin.ofNat 3 r.port.val) pcp (endpointFrame r.mac r.vlan pcp (a.map (·.bytes)).flatten) s
      a.foldl (fun s o => replyLeft o.mark s) s

/-! ### Event packets (R95 to R97, R532, R538) -/

/-- An entry of an event packet (Table 2-19). -/
def eventEntry (e : EvEntry) : List Byte :=
  be 1 e.event ++ be 1 (16 * e.member.toNat) ++ be 1 e.rep ++ be 1 0 ++ be 8 e.zone

/-- The highest EVT_PCP of the entries, as a PCP (Table 2-11). -/
def entriesPcp (es : List EvEntry) (s : State) : BitVec 3 :=
  BitVec.ofNat 3 (2 * es.foldl (fun m e => max m (route e.event s.ev).pcp.toNat) 0)

def eventPacket (h : Fin 10) (es : List EvEntry) (s : State) : List Byte :=
  packetBytes (hostPacket 0x4001 3 (Fin.ofNat 16 h.val) (be 4 es.length ++ (es.map eventEntry).flatten) s)

/-- Packets of 85 entries each while the host's buffer takes them; the rest of the entries wait (R96, R97). -/
def eventPackets (h : Fin 10) : Nat → State → State
  | 0, s => s
  | n + 1, s =>
    let h14 : Fin 14 := Fin.ofNat 14 h.val
    let es := s.ev.entries[h]
    if es.isEmpty then { s with ev := { s.ev with ebw := s.ev.ebw.set h none } }
    else if (isLead s || h.val < 2) && Config.outCap ≤ s.hosts[h14].out.length then s
    else
      let a := es.take Config.entriesPerPacket
      let s := { s with ev := { s.ev with entries := s.ev.entries.set h (es.drop Config.entriesPerPacket) } }
      eventPackets h n (toHost h14 ⟨2, eventPacket h a s, entriesPcp a s, now s, .none⟩ s)

/-- EVENT_PACKET_BUILD: the collection window of a host has ended. -/
def eventPacketBuild (h : Fin 10) (s : State) : State :=
  if domOn 0 s && ready s && s.ev.ebw[h].any (fun t => decide (t + Config.tEBW ≤ now s)) then
    eventPackets h (s.ev.entries[h].length + 1) s
  else s

/-! ### The internal switch (R362 to R365) -/

/-- The time function's address (R362, R366). -/
def timeMac : BitVec 48 := 0x0180C200000E
/-- 01-80-C2-00-00-00 to 01-80-C2-00-00-0F. -/
def reservedMac (m : BitVec 48) : Bool := m >>> 4 == 0x0180C200000
/-- A group address. -/
def groupMac (m : BitVec 48) : Bool := m.getLsbD 40

def vlanOf (vid : BitVec 12) (s : State) : Option VlanEntry := s.net.vlans.toList.find? fun v => v.valid && v.vid == vid

/-- Learn the source of a frame (R362): a pair that is known moves, a new one needs one of the 512 entries that have not aged
out. -/
def learnMac (mac : BitVec 48) (vid : BitVec 12) (port : Fin 3) (s : State) : State :=
  let same (e : FdbEntry) : Bool := (e.mac == mac && e.vlan == vid) || decide (e.at_ + 300 * Config.sec ≤ now s)
  let rest := s.net.fdb.filter (!same ·)
  if groupMac mac || 512 ≤ rest.length then s else modNet (fun x => { x with fdb := rest ++ [⟨mac, vid, port, now s⟩] }) s

/-- The learned port of an address that has not aged out. -/
def lookupMac (mac : BitVec 48) (vid : BitVec 12) (s : State) : Option (Fin 3) :=
  (s.net.fdb.find? fun e => e.mac == mac && e.vlan == vid && decide (now s < e.at_ + 300 * Config.sec)).map (·.port)

/-- The ports a frame leaves through, of the members of its VLAN: the port of its destination, else every one but the port of
arrival. The endpoint's own address is the endpoint's. -/
def egressPorts (dst : BitVec 48) (vid : BitVec 12) (from_ : Fin 3) (members : BitVec 3) (s : State) : List (Fin 3) :=
  let known := if dst == Config.endpointMac then some 2 else if groupMac dst then none else lookupMac dst vid s
  ([0, 1, 2] : List (Fin 3)).filter fun p => p ≠ from_ && members.getLsbD p.val && known.all (· = p)

/-- A frame comes to the endpoint (R365). -/
def toEndpoint (p : Fin 2) (f : EthFrame) (pcp : BitVec 3) (s : State) : State :=
  if f.etherType == 0x88B5 && f.dst == Config.endpointMac then
    ethCommandFrame ⟨p, f.src, f.tag.elim 0 (·.2), pcp⟩ f.payload s
  else endpointDrop p s

/-- The tag a frame has at an egress port (R364). -/
def egressTag (p : Fin 3) (vid : BitVec 12) (pcp : BitVec 3) (v : VlanEntry) : Option (BitVec 3 × BitVec 12) :=
  if v.untag.getLsbD p.val then none else some (pcp, vid)

/-- SWITCH_FRAME: a frame of `len` bytes arrives at a port (2 the endpoint); `full` marks the egress ports whose queue has no
room for it. -/
def switchFrame (port : Fin 3) (f : EthFrame) (len : Nat) (fcsOk : Bool) (full : BitVec 3) (s : State) : State :=
  let p : Fin 2 := Fin.ofNat 2 port.val
  let outer := decide (port.val < 2)
  let stick (m : BitVec 8) (s : State) : State := if outer then stickEth p m s else s
  if !switchOn s || (outer && !portPasses p s) then s
  else if !fcsOk then stick 0x20 s
  else if len < 64 || 1522 < len then stick 0x10 s
  else if f.dst == timeMac || reservedMac f.dst then s
  else
    let cfg := s.net.eth[p].cfg
    let filter := outer && cfg.getLsbD 29
    let pcp : BitVec 3 := f.tag.elim (if outer then BitVec.ofNat 3 (fld cfg 26 3) else 0) (·.1)
    let vid : BitVec 12 := f.tag.elim (if filter then BitVec.ofNat 12 (fld cfg 14 12) else 0) (·.2)
    let entry := vlanOf vid s
    if filter && !entry.any (fun v => v.members.getLsbD port.val) then stick 0x04 s
    else
      let s := learnMac f.src vid port s
      let members := if filter then entry.elim 0 (·.members) else 7
      (egressPorts f.dst vid port members s).foldl (fun s e =>
        if e = 2 then (if full.getLsbD 2 then s else toEndpoint p f pcp s)
        else
          let ep : Fin 2 := Fin.ofNat 2 e.val
          if !portPasses ep s then s
          else if full.getLsbD e.val then stickEth ep 0x08 s
          else
            let tag := if filter then entry.elim f.tag (egressTag e vid pcp) else f.tag
            sendFrame e pcp { f with tag := tag } s) s

end Sys2Proof.Machine
end

