-- ==== Sys2Proof/Machine/Trellis.lean ====
section
/-! DEFINITION. The trellis (chapter 18): the link and its sides, paths, forwarded requests and their replies, events and
frames of members, time frames, and the lead's loss. -/

namespace Sys2Proof.Machine

def otherSide (k : Fin 2) : Fin 2 := if k = 0 then 1 else 0

/-! ### Replies to forwarded requests (R533 to R537, R542) -/

/-- A packet's header with another host ID (R42, R533). -/
def retarget (host : Nat) (b : List Byte) : List Byte :=
  let head := b.take 13 ++ be 1 host
  head ++ be 2 (crc16 head).toNat ++ b.drop 16

/-- The lead answers a request in the member's name, and counts it in its broadcast. -/
def answerReq (r : TrlReq) (code detail : Half) (s : State) : State :=
  let s := memberReply r.host r.pkt r.pcp r.member code detail s
  if r.bcast then bcastAnswer r.member.val r.host r.pkt.tag r.pkt.hostSeq false false s else s

def dropReq (r : TrlReq) (s : State) : State := modTrl (fun x => { x with reqs := x.reqs.filter (· ≠ r) }) s

/-- A member is lost to the lead (R542): kind 1 side down, 2 not woken. -/
def memberLost (m : Fin 4) (kind : Nat) (s : State) : State :=
  let rs := s.trl.reqs.filter (·.member = m)
  let n := (rs.filter (·.pkt.replyWanted)).length
  let rtt := s.trl.sides[(if s.trl.viaB.getLsbD m.val then 1 else 0 : Fin 2)].rtt
  let s := rs.foldl (fun s r => answerReq r stMemberTimeout 1 (dropReq r s)) s
  record 0x1102 error 2 17 m.val rtt kind n (stickLost m (stickTrl 0b010000000 s))

/-- Requests held for a member that has come up are sent to it, a broadcast's copy too; with REPLY_WANTED the member timer starts
(R535, R541). -/
def sendHeld (m : Fin 4) (s : State) : State :=
  match pathTo m s with
  | none => s
  | some k =>
    (s.trl.reqs.filter fun r => r.member = m && r.wakeAt.isSome).foldl (fun s r =>
      let s := trlSend k trlPacket m.val (self s).val r.host.val r.held s
      let r' := { r with due := some (now s + memberTimeout s), wakeAt := none, held := [] }
      if !r.pkt.replyWanted then dropReq r s else
      modTrl (fun x => { x with reqs := x.reqs.map fun y => if y = r then r' else y }) s) s

/-- A member has become reachable (R542). -/
def memberFound (m : Fin 4) (s : State) : State :=
  let b := s.trl.viaB.getLsbD m.val
  sendHeld m (trlNote 0x1101 info m (s.trl.hops[m]) (if b then 1 else 0) s.trl.sides[(if b then 1 else 0 : Fin 2)].rtt s)

/-! ### Paths (R527, R530) -/

/-- A side leads to a member. -/
def sideReaches (k : Fin 2) (m : Fin 4) (s : State) : Bool := s.trl.sides[k].st == 2 && s.trl.sides[k].reach.getLsbD m.val

/-- Whether a member is reached through side B, and the links to it. Link status frames give no distance: among two members
behind a neighbour, and between two sides of equal length, the choice is free (log entry 3). -/
def pathOf (m : Fin 4) (free : Bool) (s : State) : Bool × Nat :=
  let a := sideReaches 0 m s
  let b := sideReaches 1 m s
  let peer (k : Fin 2) : Bool := decide (s.trl.sides[k].peer = some m)
  let viaB := if a && b then peer 1 || (!peer 0 && free) else b
  let k : Fin 2 := if viaB then 1 else 0
  let far := ((List.range 4).filter fun i => sideReaches k (Fin.ofNat 4 i) s && i ≠ (self s).val
    && s.trl.sides[k].peer ≠ some (Fin.ofNat 4 i)).length
  (viaB, if peer k then 1 else if (a && b) || far ≤ 1 then 2 else if free then 3 else 2)

/-- Recompute every path; members found and lost are the lead's to report (R542). -/
def repath (s : State) : State :=
  let old := s.trl.present
  let w := Config.freeWord s.clk.free
  let s := drew s
  let ms := ((List.range 4).map (Fin.ofNat 4)).filter (· ≠ self s)
  let new : BitVec 4 := ms.foldl (fun x m => if sideReaches 0 m s || sideReaches 1 m s then x ||| BitVec.ofNat 4 (2 ^ m.val) else x) 0
  let path (m : Fin 4) : Bool × Nat := pathOf m (w.getLsbD m.val) s
  let viaB : BitVec 4 := ms.foldl (fun x m => if new.getLsbD m.val && (path m).1 then x ||| BitVec.ofNat 4 (2 ^ m.val) else x) 0
  let hops := Vector.ofFn fun m : Fin 4 => if new.getLsbD m.val then (path m).2 else 0
  let gone := ms.filter fun m => old.getLsbD m.val && !new.getLsbD m.val
  let came := ms.filter fun m => !old.getLsbD m.val && new.getLsbD m.val
  let s := if isLead s then gone.foldl (fun s m => memberLost m 1 s) s else s
  let s := modTrl (fun x => { x with present := new, viaB := viaB, hops := hops }) s
  ringCheck (if isLead s then came.foldl (fun s m => memberFound m s) s else s)

/-- Link status frames on both sides: the members reachable through this module (Table 18-1). -/
def announceOn (k : Fin 2) (s : State) : State :=
  let o := s.trl.sides[otherSide k]
  let bits := (if o.st == 2 then o.reach else 0) ||| BitVec.ofNat 4 (2 ^ (self s).val)
  trlSend k trlStatus 15 (self s).val 0 (be 1 bits.toNat) s

def announce (s : State) : State := announceOn 1 (announceOn 0 s)

/-- DUPLICATE (R531): the neighbour of a side has the module's own number; the lead records it. -/
def followDup (s : State) : State :=
  let hit (k : Fin 2) : Bool := decide (s.trl.sides[k].peer = some (self s))
  let dup := hit 0 || hit 1
  let s' := modTrl (fun x => { x with dup := dup }) s
  if dup && !s.trl.dup && isLead s then trlNote 0x1106 error (self s) (self s).val (if hit 0 then 0 else 1) 0 s' else s'

/-- A side is up: paths change (R530). -/
def sideUp (k : Fin 2) (s : State) : State := repath (announce (modSide k (fun x => { x with st := 2 }) s))

/-- A side goes down (R529, R530): record 1103h, and 1104h for the members that another way still reaches. -/
def sideDown (k : Fin 2) (s : State) : State :=
  let x := s.trl.sides[k]
  let n := x.unack.foldl (fun m t => max m t.resends) 0
  let was := s.trl.present &&& (if k = 0 then ~~~s.trl.viaB else s.trl.viaB)
  let s := stickTrl 0b100000000 (trlNote 0x1103 warning (x.peer.getD (self s)) k.val n 0 s)
  let s := modSide k (fun x => { TrlSide.fresh with sentAt := x.sentAt, lastAt := x.lastAt }) s
  let s := repath (announce (followDup s))
  let moved := was &&& s.trl.present
  if moved != 0 then trlNote 0x1104 warning (self s) k.val moved.toNat 0 s else s

/-- TRELLIS_SIDE_DOWN: no valid frame for tTLD = 1 ms. -/
def trellisSideDown (k : Fin 2) (s : State) : State :=
  let x := s.trl.sides[k]
  if trlOn s && x.st != 0 && decide (x.lastAt + Config.ms ≤ now s) then
    if x.st == 2 then sideDown k s else modSide k (fun x => { TrlSide.fresh with sentAt := x.sentAt, lastAt := x.lastAt }) s
  else s

/-! ### Heartbeats and resends (R529, R530) -/

/-- TRELLIS_HEARTBEAT: every tTHB = 100 us while nothing else is sent. -/
def trellisHeartbeat (k : Fin 2) (s : State) : State :=
  if trlOn s && decide (s.trl.sides[k].sentAt + 100 * Config.us ≤ now s) then
    trlSend k trlHeartbeat 15 (self s).val 0 [] s
  else s

/-- TRELLIS_RESEND: the oldest frame without acknowledgement for tTRT = 20 us is sent again, three times at most. -/
def trellisResend (k : Fin 2) (s : State) : State :=
  match s.trl.sides[k].unack with
  | [] => s
  | t :: rest =>
    if !trlOn s || now s < t.at_ + 20 * Config.us then s
    else if 3 ≤ t.resends then sideDown k s
    else
      let s := modSide k (fun x => { x with unack := { t with at_ := now s, resends := t.resends + 1 } :: rest, sentAt := now s }) s
      modTrl (fun x => { x with out := x.out ++ [(k, t.bytes)] }) s

/-! ### Time across the stack (R539) -/

/-- TIME_FRAME_SEND: the lead, every 1 ms on each up side; in fatal hold too (R544). -/
def timeFrameSend (s : State) : State :=
  if isLead s && trlOn s && decide (s.trl.timeSent + Config.ms ≤ now s) then
    let body := be 8 (zone s) ++ be 4 s.clk.wall.toNat ++ be 1 s.zone.state.code
    modTrl (fun x => { x with timeSent := now s }) (trlSend 1 trlTime 15 0 0 body (trlSend 0 trlTime 15 0 0 body s))
  else s

def syncOf (n : Nat) : SyncState := if n = 1 then .locking else if n = 2 then .locked else if n = 3 then .holdover else .free

/-- A member disciplines its zone time to a time frame that came over side `k`; it copies the lead's SYNC_STATE once four
frames in a row have agreed within 100 ns. -/
def timeFrame (k : Fin 2) (body : List Byte) (s : State) : State :=
  let off : Int := (zone s : Int) - ((numAt body 0 8 : Int) + (s.trl.sides[k].rtt / 2 : Nat))
  let s := modZone (fun x => { x with offset := off, lastSync := some (now s) }) s
  let s := { s with clk := { s.clk with wall := wordAt body 8 } }
  let step := s.zone.state = .free || fld s.zone.cfg 17 8 * 10000 < off.natAbs
  let agree := if step || 5000 < off.natAbs then 0 else if off.natAbs ≤ 100 then min 4 (s.trl.agree + 1)
    else if s.trl.agree = 4 then 4 else 0
  let s := modTrl (fun x => { x with timeAt := some (now s), agree := agree }) s
  let s := if step then stepZone (-off) 1 s else servoRate off s
  setSync (if agree = 4 then syncOf (byteAt body 12).toNat else .locking) s

/-- TIME_FRAME_TIMEOUT: no time frame for 3 ms. -/
def timeFrameTimeout (s : State) : State :=
  if !isLead s && s.trl.timeAt.any (fun t => decide (t + 3 * Config.ms ≤ now s)) then
    setSync .holdover (modTrl (fun x => { x with timeAt := none, agree := 0 }) s)
  else s

/-- LEAD_HOLD follows the path to the lead and its FATAL flag (R542). -/
def leadHold (s : State) : State :=
  if isLead s || !trlOn s || !ready s then s
  else
    let cause := if !s.trl.present.getLsbD 0 then 1 else if s.trl.fatal then 2 else 0
    if cause = 0 then modTrl (fun x => { x with hold := false }) s
    else if s.trl.hold then s
    else loseSync (stickTrl 0b000000001 (trlNote 0x1108 warning 0 cause 0 0 (modTrl (fun x => { x with hold := true }) s)))

/-! ### Packets at a member (R532, R533, R543) -/

/-- An answer of the link layer to a request for this member. -/
def linkAnswer (orig : Nat) (p : Packet) (code : Half) (s : State) : State :=
  if p.replyWanted then
    (trlSendTo trlPacket 0 orig (packetBytes (replyPacket p code 0 [] s.boot.member none)) s).2
  else s

/-- A packet for this member: steps 7 onward as host 10. -/
def memberPacket (orig : Nat) (body : List Byte) (s : State) : State :=
  let p := parsePacket 10 body
  if s.trl.dup then linkAnswer orig p stBadParam s
  else if !ready s || s.boot.condition ≠ 0 then linkAnswer orig p stNotReady s
  else if s.cmd.restart.isSome then s
  else
    let w : TrlWork := ⟨p.tag, p.opcode, p.hostSeq, Fin.ofNat 16 orig, p.time.isSome, false, now s⟩
    let s := if p.replyWanted then modTrl (fun x => { x with working := x.working ++ [w] }) s else s
    authStep (arriving p none s) s

/-- Replies that wait for the lead go over the trellis with the ORIG_HOST of their request; an acceptance reply leaves its
packet in execution (R78, R535). -/
def sendReplies (s : State) : State :=
  let l := s.hosts[(10 : Fin 14)].out
  if l.isEmpty then s
  else
    l.foldl (fun s o =>
      let tag := halfAt o.bytes 4
      let hit := s.trl.working.find? fun w => w.tag == tag && (w.opcode ||| 0x8000) == halfAt o.bytes 2 && w.seq == wordAt o.bytes 8
      match hit with
      | none => s
      | some w =>
        let accepted := w.sched && !w.acked && numAt o.bytes 16 4 = 1
        let rest := s.trl.working.filter (· ≠ w)
        let s := modTrl (fun x => { x with working := if accepted then rest ++ [{ w with acked := true }] else rest }) s
        let r := trlSendTo trlPacket 0 w.orig.val o.bytes s
        replyLeft o.mark (if r.1 then r.2 else stickTrl 0b000000010 r.2)) (modHost 10 (fun x => { x with out := [] }) s)

/-- EXTEND_FRAME_SEND: a running engine, every MEMBER_TIMEOUT × 0.25 ms for each admitted request. -/
def extendFrameSend (s : State) : State :=
  if isLead s || !engineRuns s then s
  else
    let admitted (w : TrlWork) : Bool := !(s.cmd.authWait.any fun q => q.pkt.host = 10 && q.pkt.tag == w.tag
      && q.pkt.opcode == w.opcode && q.pkt.hostSeq == w.seq)
    let due := s.trl.working.filter fun w => !w.acked && admitted w && decide (w.extAt + memberTimeout s / 2 ≤ now s)
    due.foldl (fun s w =>
      let s := modTrl (fun x => { x with working := x.working.map fun y => if y = w then { w with extAt := now s } else y }) s
      (trlSendTo trlExtend 0 w.orig.val (be 2 w.tag.toNat ++ be 1 w.orig.val) s).2) s

/-! ### Packets at the lead (R533, R535, R538) -/

/-- The tracked request a reply belongs to; a relaying member may have answered for a lost packet (R529). -/
def reqOf (host : Nat) (b : List Byte) (s : State) : Option TrlReq :=
  let m := (byteAt b 1).toNat / 16
  let same (r : TrlReq) : Bool := r.host.val = host && r.pkt.tag == halfAt b 4 && (r.pkt.opcode ||| 0x8000) == halfAt b 2
    && r.pkt.hostSeq == wordAt b 8
  match s.trl.reqs.find? (fun r => same r && r.member.val = m) with
  | some r => some r
  | none => s.trl.reqs.find? fun r => same r && !r.bcast && halfAt b 16 == stContained

/-- A member's reply (R535): late ones are discarded. -/
def leadReply (host : Nat) (b : List Byte) (s : State) : State :=
  match reqOf host b s with
  | none => stickTrl 0b000001000 s
  | some r =>
    let accepted := r.pkt.time.isSome && !r.acked && numAt b 16 4 = 1
    let s := if accepted then
        modTrl (fun x => { x with reqs := x.reqs.map fun y => if y = r then { r with acked := true, due := none } else y }) s
      else dropReq r s
    let s := pushOut r.host ⟨0, retarget r.host.val b, r.pcp, now s, .none⟩ s
    if r.bcast && !accepted then bcastAnswer r.member.val r.host r.pkt.tag r.pkt.hostSeq (goodCode (halfAt b 16)) true s else s

/-- An event entry of a member joins the host's entries (R96, R538). -/
def collectEntry (h : Fin 10) (e : EvEntry) (now : Nat) (ev : EvSt) : EvSt :=
  let l := ev.entries[h]
  let same (x : EvEntry) : Bool := x.event = e.event && x.member == e.member
  if l.any same then
    { ev with entries := ev.entries.set h (l.map fun x => if same x then { x with rep := min 255 (x.rep + 1 + e.rep) } else x) }
  else { ev with entries := ev.entries.set h (l ++ [e]), ebw := ev.ebw.set h (some (ev.ebw[h].getD now)) }

/-- The entries of a member's event packet (Table 2-19). -/
def leadEvents (h : Fin 10) : Nat → List Byte → State → State
  | 0, _, s => s
  | n + 1, b, s =>
    let e : EvEntry := ⟨(byteAt b 0).toNat, BitVec.ofNat 4 ((byteAt b 1).toNat / 16), (byteAt b 2).toNat, numAt b 4 8⟩
    leadEvents h n (b.drop 12) { s with ev := collectEntry h e (now s) s.ev }

/-- The entries of a member's forwarded-frame packet (Table 12-3). -/
def leadFrames (h : Fin 10) (prio : BitVec 2) : Nat → List Byte → State → State
  | 0, _, s => s
  | n + 1, b, s =>
    let len := 16 + ((byteAt b 2).toNat + 3) / 4 * 4
    let e : FwdEntry := ⟨(byteAt b 0).toNat, prio, b.take len⟩
    let q : FwdQueue := { entries := s.net.fwd[h].entries ++ [e], at_ := some ((s.net.fwd[h].at_).getD (now s)) }
    let s := modNet (fun x => { x with fwd := x.fwd.set h q }) s
    leadFrames h prio n (b.drop len) s

/-- A packet for the lead. -/
def leadPacket (host : Nat) (b : List Byte) (s : State) : State :=
  let h : Fin 10 := Fin.ofNat 10 host
  let op := halfAt b 2
  if op.getLsbD 15 then leadReply host b s
  else if 10 ≤ host || host < 2 || s.trl.dup then s
  else if s.boot.condition ≠ 0 then
    if (op == 0x4001 || op == 0x4A00) && s.boot.condition = 2 then stickTrl 0b000000010 s else s
  else if op == 0x4001 then leadEvents h (numAt b 16 4) (b.drop 20) s
  else if op == 0x4A00 then leadFrames h (BitVec.ofNat 2 ((byteAt b 1).toNat / 4)) (numAt b 16 2) (b.drop 20) s
  else s

/-! ### A frame arrives (R528 to R531, R543) -/

/-- Broadcasts and time frames are taken and relayed from the side that leads to the lead, so that a ring takes each once. -/
def fromLead (k : Fin 2) (s : State) : Bool := !isLead s && (pathTo 0 s).all (· = k)

/-- The fields of a frame that passed its CRC. -/
structure TrlFrame where
  type  : Nat
  dest  : Nat
  src   : Nat
  seq   : Byte
  ack   : Byte
  fatal : Bool
  host  : Nat
  body  : List Byte
  deriving DecidableEq, Repr

/-- The frame in the bytes, when its length and CRC are right (Table 18-1). -/
def readFrame (b : List Byte) : Option TrlFrame :=
  let n := numAt b 6 2
  if b.length = n + 12 && n ≤ 1056 && crc32 (b.take (n + 8)) == wordAt b (n + 8) then
    some { type := (byteAt b 0).toNat, dest := (byteAt b 1).toNat / 16, src := (byteAt b 1).toNat % 16, seq := byteAt b 2
           ack := byteAt b 3, fatal := (byteAt b 4).getLsbD 4, host := (byteAt b 4).toNat % 16, body := slice b 8 n }
  else none

/-- Pass a frame on (R532, R544); a module that sees a duplicate forwards nothing. -/
def relay (k : Fin 2) (f : TrlFrame) (s : State) : State :=
  if s.trl.dup then s else trlSendF f.fatal (otherSide k) f.type f.dest f.src f.host f.body s

/-- FATAL in the lead's frames (R542). -/
def seeFatal (f : TrlFrame) (s : State) : State :=
  if f.src = 0 && !isLead s then modTrl (fun x => { x with fatal := f.fatal }) s else s

/-- What a numbered frame received in order does. -/
def actFrame (k : Fin 2) (f : TrlFrame) (s : State) : State :=
  let mine := decide (f.dest = (self s).val)
  if f.type = trlStatus then
    let r : BitVec 4 := BitVec.ofNat 4 (byteAt f.body 0).toNat
    if r == s.trl.sides[k].reach then s
    else repath (announceOn (otherSide k) (modSide k (fun x => { x with reach := r }) s))
  else if f.type = trlTime then
    if fromLead k s then timeFrame k f.body (seeFatal f (relay k f s)) else s
  else if f.type = trlExtend then
    if mine && isLead s then
      let hit (r : TrlReq) : Bool := r.member.val = f.src && r.pkt.tag == halfAt f.body 0
        && r.host.val = (byteAt f.body 2).toNat && r.due.isSome
      let l := s.trl.reqs.map fun r => if hit r then { r with due := some (now s + memberTimeout s) } else r
      modTrl (fun x => { x with reqs := l }) s
    else relay k f s
  else if f.type = trlPacket then
    if f.dest = 15 then (if fromLead k s then memberPacket f.host f.body (relay k f s) else s)
    else if !mine then relay k f s
    else if isLead s then leadPacket f.host f.body s
    else memberPacket f.host f.body s
  else s

/-- Frames up to the acknowledged one have arrived (R529). -/
def takeAck (k : Fin 2) (ack : Byte) (s : State) : State :=
  let l := s.trl.sides[k].unack
  if l.any (·.seq == ack) then modSide k (fun x => { x with unack := (l.dropWhile (·.seq != ack)).drop 1 }) s else s

/-- A valid frame on a side: 16 bring it up (R530). -/
def countFrame (k : Fin 2) (s : State) : State :=
  let s := modSide k (fun x => { x with lastAt := now s, good := min 16 (x.good + 1), st := if x.st == 0 then 1 else x.st }) s
  if s.trl.sides[k].st == 1 && s.trl.sides[k].good = 16 then sideUp k s else s

/-- A heartbeat (R530, R531, R539): the neighbour, and a round trip whose value the spec does not fix (log entry 3). -/
def heartbeat (k : Fin 2) (f : TrlFrame) (s : State) : State :=
  let rtt := (Config.freeWord s.clk.free).toNat
  let s := modSide k (fun x => { x with rtt := rtt, peer := if f.src ≤ 3 then some (Fin.ofNat 4 f.src) else x.peer }) (drew s)
  followDup (seeFatal f s)

/-- A numbered frame: in order it acts, and it is acknowledged (R529). -/
def numberedFrame (k : Fin 2) (f : TrlFrame) (s : State) : State :=
  let inOrder := f.seq == s.trl.sides[k].rxSeq + 1
  let s := if inOrder then modSide k (fun x => { x with rxSeq := f.seq }) s else s
  let s := trlSend k trlAck f.src (self s).val 0 [] s
  if inOrder then actFrame k f s else s

/-- TRELLIS_FRAME_RECEIVED: `bytes` is the frame with its CRC. -/
def trellisFrameReceived (k : Fin 2) (bytes : List Byte) (s : State) : State :=
  if !trlOn s then s
  else
    let r := injTake 0x20 24 s
    let s := r.2
    match if r.1 then none else readFrame bytes with
    | none => stickTrl 0b000100000 (correctedFault 24 0x20 r.1 s)
    | some f =>
      let s := takeAck k f.ack (countFrame k s)
      if f.type = trlHeartbeat then heartbeat k f s
      else if f.type = trlAck then s
      else numberedFrame k f s

/-! ### Timers of the lead (R535, R541) -/

/-- MEMBER_TIMER_EXPIRY. -/
def memberTimerExpiry (m : Fin 4) (tag : Half) (s : State) : State :=
  match s.trl.reqs.find? (fun r => r.member = m && r.pkt.tag == tag && r.due.any (fun t => decide (t ≤ now s))) with
  | none => s
  | some r =>
    let s := stickTrl 0b000010000 (trlNote 0x1105 warning m r.pkt.opcode.toNat tag.toNat r.host.val (dropReq r s))
    answerReq r stMemberTimeout 0 s

/-- tTWK (Table 18-2). -/
def tTWK : Nat := 3 * Config.ms

/-- MEMBER_WAKE_TIMEOUT: a member that does not wake is unreachable. -/
def memberWakeTimeout (m : Fin 4) (s : State) : State :=
  if s.trl.reqs.any (fun r => r.member = m && r.wakeAt.any (fun t => decide (t + tTWK ≤ now s))) then memberLost m 2 s else s

/-- TRELLIS_WAKE: the always-on section passes it on, and detector 07h fires. -/
def trellisWake (k : Fin 2) (s : State) : State :=
  if s.boot.phase < 2 then s else detect 7 0 (modTrl (fun x => { x with out := x.out ++ [(otherSide k, [])] }) s)

end Sys2Proof.Machine
end

