-- ==== Sys2Proof/Machine/Settle.lean ====
section
/-! DEFINITION. What every command of the table shares: the observation fields start empty, the command acts, and what its
effect sets going within the same core cycle follows (log entry 1). -/

namespace Sys2Proof.Machine

/-- The observation fields hold what one command shows to the outside. -/
def begin_ (s : State) : State :=
  { s with cmd := { s.cmd with lastOut := [] }, net := { s.net with swOut := [], canOut := [], linOut := [], wakeOut := [] }
           trl := { s.trl with out := [] } }

/-- Frames buffered while D00 was down are parsed in arrival order once it is on (R141). -/
def drainFrames (s : State) : State :=
  if s.dom.frames.isEmpty || !domOn 0 s || !ready s || s.cmd.restart.isSome then s
  else
    s.dom.frames.foldl (fun s f => takeFrame ⟨f.port, f.mac, f.vlan, f.pcp⟩ f.payload s)
      { s with dom := { s.dom with frames := [] } }

/-- Held events are raised when D00 is on and ready is reached, in ascending event number, each with the zone time of its first
occurrence (R596). -/
def releaseHeld (s : State) : State :=
  if s.ev.held.isEmpty || !domOn 0 s || !ready s then s
  else
    let ev := s.ev.held.foldl (fun ev h => judge h.1 (s.boot.member.setWidth 4) h.2 (now s) ev) { s.ev with held := [] }
    { s with ev := ev }

/-- The rest of the core cycle: fired reflex packets are admitted, work that waited for a domain goes on, and the records of the
cycle go through the arbiter (R348, R384, R482, R596). -/
def conclude (s : State) : State :=
  arbiter 20 (leadHold (sendReplies (releaseHeld (drainFrames (keyPump (accPump (drainAuthRx (admitFired s))))))))

/-- A command acts by `f`. No command ends in a fault: the spec answers every error within the state. -/
def run (f : State → State) (s : State) : Host.Outcome State Fault Refusal := .next (conclude (f (begin_ s)))

/-- A packet row: the packet, with the row's opcode, reaches execution. -/
def runPacket (spec : OpSpec) (op : Half) (p : Packet) (s : State) : Host.Outcome State Fault Refusal :=
  run (runRow spec op p) s

end Sys2Proof.Machine
end

