-- ==== Sys2Proof/Machine/ExecAlmanac.lean ====
section
/-! DEFINITION. The meanings of the commands of families 0Fh and 10h: the almanac and faults. -/

namespace Sys2Proof.Machine

/-- ALMANAC_WINDOW (R502): Returns records of a view from a cursor, captured in one arbiter cycle. -/
def execAlmanacWindow (p : Packet) (s : State) : Host.Outcome State Fault Refusal := runPacket opAlmanacWindow 0x0F00 p s

/-- ALMANAC_FLUSH (R506): Starts a flush and completes when it ends. -/
def execAlmanacFlush (p : Packet) (s : State) : Host.Outcome State Fault Refusal := runPacket opAlmanacFlush 0x0F01 p s

/-- ALMANAC_CONFIG (R506): Writes vault enable and minimum severity. -/
def execAlmanacConfig (p : Packet) (s : State) : Host.Outcome State Fault Refusal := runPacket opAlmanacConfig 0x0F02 p s

/-- ALMANAC_RATE (R506): Reads or writes the rate limit of a record code. -/
def execAlmanacRate (p : Packet) (s : State) : Host.Outcome State Fault Refusal := runPacket opAlmanacRate 0x0F03 p s

/-- WATCH_CONFIG (R495): Configures, enables or clears a watch point and its word list. -/
def execWatchConfig (p : Packet) (s : State) : Host.Outcome State Fault Refusal := runPacket opWatchConfig 0x0F04 p s

/-- VAULT_CLEAR (R493): Clears the seed vault under a vault rootstock proof and current fill. -/
def execVaultClear (p : Packet) (s : State) : Host.Outcome State Fault Refusal := runPacket opVaultClear 0x0F05 p s

/-- FAULT_INJECT (R520): Arms, or cancels, an injection into a checker of a block. -/
def execFaultInject (p : Packet) (s : State) : Host.Outcome State Fault Refusal := runPacket opFaultInject 0x1000 p s

/-- FAULT_CLEAR (R522): Re-runs a block ADC self-check to end its contained fault. -/
def execFaultClear (p : Packet) (s : State) : Host.Outcome State Fault Refusal := runPacket opFaultClear 0x1001 p s

/-- RATE_REFILL (R483): Every REFILL ms a code's bucket gains a token. -/
def execRateRefill (code : Half) (s : State) : Host.Outcome State Fault Refusal :=
  run (rateRefill code) s

/-- FLUSH_TIMER (R485): 1 s after the last flush with entries in use, a flush starts. -/
def execFlushTimer (s : State) : Host.Outcome State Fault Refusal :=
  run flushTimer s

/-- FLUSH_START (R485): A flush writes its intent and the staged records in SEQ order. -/
def execFlushStart (s : State) : Host.Outcome State Fault Refusal :=
  run flushStart s

/-- FLUSH_END (R486): A flush marks its intent done, writes the checkpoint and starts a pending flush. -/
def execFlushEnd (s : State) : Host.Outcome State Fault Refusal :=
  run flushEndBrown s

/-- POWER_FAIL_WARNING (R488): VS6 below 5.0 V for 2 us switches to VHOLD and starts the power-fail flush. -/
def execPowerFailWarning (vs6MV : Nat) (s : State) : Host.Outcome State Fault Refusal :=
  run (powerFailWarning vs6MV) s

/-- FATAL_FAULT (R516): A fatal checker stops the command engine, leading to warm restart or fatal hold. -/
def execFatalFault (checker : BitVec 6) (s : State) : Host.Outcome State Fault Refusal :=
  run (fatalFault checker) s

/-- ECC_ERROR (R513): A correctable or non-engine uncorrectable SRAM or non-volatile ECC error is repaired or contained. -/
def execEccError (place : EccPlace) (double : Bool) (s : State) : Host.Outcome State Fault Refusal :=
  run (eccError place double) s

/-- SUPPLY_CROSSCHECK_FAULT (R513): Supply monitor channels differ for 1 ms and the region uses the lower one. -/
def execSupplyCrosscheckFault (region : Fin 7) (diffMV : Nat) (s : State) : Host.Outcome State Fault Refusal :=
  run (supplyCrosscheckFault region diffMV) s

/-- SUPPLY_CROSSCHECK_RECOVER (R514): Channels agree for 1 s and DEGRADED clears. -/
def execSupplyCrosscheckRecover (region : Fin 7) (s : State) : Host.Outcome State Fault Refusal :=
  run (supplyCrosscheckRecover region) s

/-- ENTROPY_HEALTH_FAIL (R513): The random source fails its health test and becomes contained. -/
def execEntropyHealthFail (s : State) : Host.Outcome State Fault Refusal :=
  run entropyHealthFail s

/-- INJECTION_ARM (R521): A fatal-class injection arms 100 us after its reply has left. -/
def execInjectionArm (s : State) : Host.Outcome State Fault Refusal :=
  run injectionArm s

/-- INJECTION_DURATION_END (R520): A continuous injection disarms after DURATION. -/
def execInjectionDurationEnd (s : State) : Host.Outcome State Fault Refusal :=
  run injectionDurationEnd s

/-- POWER_FAIL_RECOVERY (R488): VS6 recovers above 5.5 V during a power-fail flush, which then completes as an ordinary
flush with no brown-out. -/
def execPowerFailRecovery (vs6MV : Nat) (s : State) : Host.Outcome State Fault Refusal :=
  run (powerFailRecovery vs6MV) s

/-- NV_WRITE_DONE (R504): A non-volatile write of a lower arbiter class, such as PLAN_WRITE data or a shelf blob,
completes after any suspension by higher classes. -/
def execNvWriteDone (s : State) : Host.Outcome State Fault Refusal :=
  run nvWriteDone s

end Sys2Proof.Machine
end

