-- ==== Sys2Proof/Machine/ExecHost.lean ====
section
/-! DEFINITION. The meanings of the commands of families 00h and 12h, the ports, queues, hosts and the bring-up. -/

namespace Sys2Proof.Machine

/-- PLL_LOCK_TIMEOUT: phase 3 repeats, and nothing is recorded (R102). -/
def pllAgain (s : State) : State :=
  if s.boot.condition = 1 && s.boot.phase = 3 && s.boot.resetLow.isNone && decide (s.boot.startAt + Config.tPLL ≤ now s) then
    phase3 s else s

/-- NOP (R82): Command that does nothing and returns only a status. -/
def execNop (p : Packet) (s : State) : Host.Outcome State Fault Refusal := runPacket opNop 0x0000 p s

/-- IDENTIFY (R82): Returns part code, stepping, serial, endpoint MAC, member, plan copy and zone time. -/
def execIdentify (p : Packet) (s : State) : Host.Outcome State Fault Refusal := runPacket opIdentify 0x0001 p s

/-- READ_STATUS (R83): Returns COUNT status words of one word ID, captured in one core cycle. -/
def execReadStatus (p : Packet) (s : State) : Host.Outcome State Fault Refusal := runPacket opReadStatus 0x0002 p s

/-- CLEAR_STATUS (R84): Returns status words as they were, then clears the selected sticky bits. -/
def execClearStatus (p : Packet) (s : State) : Host.Outcome State Fault Refusal := runPacket opClearStatus 0x0003 p s

/-- RESTART (R85): Requests a warm or cold restart and stops execution of further packets until it begins. -/
def execRestart (p : Packet) (s : State) : Host.Outcome State Fault Refusal := runPacket opRestart 0x0004 p s

/-- EVENT_ROUTE (R82): Sets IRQ routing, PCP and host subscriptions for a range of events. -/
def execEventRoute (p : Packet) (s : State) : Host.Outcome State Fault Refusal := runPacket opEventRoute 0x0005 p s

/-- EVENT_MASK (R86): Writes, sets, clears or reads the 256-bit event enable mask. -/
def execEventMask (p : Packet) (s : State) : Host.Outcome State Fault Refusal := runPacket opEventMask 0x0006 p s

/-- HOST_BIND (R87): Binds a host ID 2-9 to a port, VLAN and source MAC, replacing conflicting registrations. -/
def execHostBind (p : Packet) (s : State) : Host.Outcome State Fault Refusal := runPacket opHostBind 0x0007 p s

/-- HOST_RELEASE (R87): Removes a host ID's registration and its subscriptions and need bits. -/
def execHostRelease (p : Packet) (s : State) : Host.Outcome State Fault Refusal := runPacket opHostRelease 0x0008 p s

/-- AUTH_POLICY (R65): Sets which opcode families require AUTH and returns the resulting policy. -/
def execAuthPolicy (p : Packet) (s : State) : Host.Outcome State Fault Refusal := runPacket opAuthPolicy 0x0009 p s

/-- SCHED_CANCEL (R81): Removes unstaged scheduled packets of a host, answering each with TIME_STEPPED detail 0001h. -/
def execSchedCancel (p : Packet) (s : State) : Host.Outcome State Fault Refusal := runPacket opSchedCancel 0x000A p s

/-- HOST_SILENCE (R88): Arms or disarms the silence timer of a host. -/
def execHostSilence (p : Packet) (s : State) : Host.Outcome State Fault Refusal := runPacket opHostSilence 0x000B p s

/-- PLAN_WRITE (R122): Uncommits the target plan copy and writes data at an offset. -/
def execPlanWrite (p : Packet) (s : State) : Host.Outcome State Fault Refusal := runPacket opPlanWrite 0x1200 p s

/-- PLAN_COMMIT (R123): Checks the target plan copy and writes its commit mark. -/
def execPlanCommit (p : Packet) (s : State) : Host.Outcome State Fault Refusal := runPacket opPlanCommit 0x1201 p s

/-- MIRROR_RESTORE (R119): Restores selected units from the output state mirror when the start cause is selected. -/
def execMirrorRestore (p : Packet) (s : State) : Host.Outcome State Fault Refusal := runPacket opMirrorRestore 0x1202 p s

/-- SPI_TRANSACTION (R50): One chip-select interval exchanging at most one packet each way with CRC-32 trailers. -/
def execSpiTransaction (port : Fin 2) (bytes : List Byte) (s : State) : Host.Outcome State Fault Refusal :=
  run (spiTransaction port bytes) s

/-- ETH_COMMAND_FRAME (R58): A command frame at the endpoint is parsed packet by packet. -/
def execEthCommandFrame (port : Fin 2) (mac : BitVec 48) (vlan : BitVec 12) (pcp : BitVec 3) (bytes : List Byte) (s : State) : Host.Outcome State Fault Refusal :=
  run (ethCommandFrame ⟨port, mac, vlan, pcp⟩ bytes) s

/-- PACKET_AUTH_CHECK (R66): Authentication of a packet proceeds once D14 is on and its slot reloaded. -/
def execPacketAuthCheck (s : State) : Host.Outcome State Fault Refusal :=
  run packetAuthCheck s

/-- CHAIN_NEXT_ADMIT (R74): The next packet of a chain is admitted after the previous completed OK or DEFERRED. -/
def execChainNextAdmit (host : Fin 14) (s : State) : Host.Outcome State Fault Refusal :=
  run (chainNextAdmit host) s

/-- CHAIN_TIMEOUT (R74): A chain whose next packet has not arrived within 10 ms is broken. -/
def execChainTimeout (host : Fin 14) (s : State) : Host.Outcome State Fault Refusal :=
  run (chainTimeout host) s

/-- QUEUED_PACKET_EXECUTE (R70): The head packet of a unit or chip queue starts execution when the queue frees. -/
def execQueuedPacketExecute (unit : UnitRef) (s : State) : Host.Outcome State Fault Refusal :=
  run (queuedPacketExecute unit) s

/-- SCHEDULED_STAGING (R75): A scheduled packet is placed at the head of its target queues at T minus tSQL. -/
def execScheduledStaging (s : State) : Host.Outcome State Fault Refusal :=
  run scheduledStaging s

/-- SCHEDULED_EFFECT (R75): A staged packet takes effect on its unit at T. -/
def execScheduledEffect (s : State) : Host.Outcome State Fault Refusal :=
  run scheduledEffect s

/-- REPLY_CMAC_BUILD (R47): A reply to an authenticated request is built with its CMAC once D14 is on and the slot
reloaded. -/
def execReplyCmacBuild (s : State) : Host.Outcome State Fault Refusal :=
  run replyCmacBuild s

/-- ETH_OUTGOING_FRAME (R59): Packed outgoing packets for an Ethernet host leave in a frame within tRPK. -/
def execEthOutgoingFrame (host : Fin 14) (s : State) : Host.Outcome State Fault Refusal :=
  run (ethOutgoingFrame host) s

/-- EVENT_PACKET_BUILD (R96): Event packets are built for a host at the end of tEBW. -/
def execEventPacketBuild (host : Fin 10) (s : State) : Host.Outcome State Fault Refusal :=
  run (eventPacketBuild host) s

/-- HOST_LAPSE (R63): An unbound registration lapses after 60 s without a packet. -/
def execHostLapse (host : Fin 14) (s : State) : Host.Outcome State Fault Refusal :=
  run (hostLapse host) s

/-- HOST_SILENCE_EXPIRY (R88): A host-silence timer expires, setting SILENT and raising event 236. -/
def execHostSilenceExpiry (host : Fin 14) (s : State) : Host.Outcome State Fault Refusal :=
  run (hostSilenceExpiry host) s

/-- RESTART_BEGIN (R85): A requested restart begins after its reply has left, or its timeout, discarding all packets. -/
def execRestartBegin (s : State) : Host.Outcome State Fault Refusal :=
  run restartBegin s

/-- POWER_ON (R98): VS6 rises above 4.5 V and a cold bring-up starts at phase 1. -/
def execPowerOn (vs6MV : Nat) (s : State) : Host.Outcome State Fault Refusal :=
  run (powerOn vs6MV) s

/-- VS6_UNDERVOLTAGE (R98): VS6 falling below 3.0 V leads to a cold bring-up with cause 1h. -/
def execVs6Undervoltage (vs6MV : Nat) (s : State) : Host.Outcome State Fault Refusal :=
  run (vs6Undervoltage vs6MV) s

/-- RESET_N_ASSERT (R99): RESET_N held low turns every output off and every domain off. -/
def execResetNAssert (s : State) : Host.Outcome State Fault Refusal :=
  run resetNAssert s

/-- RESET_N_RELEASE (R98): RESET_N released after at least tRSW starts a cold bring-up at phase 3. -/
def execResetNRelease (s : State) : Host.Outcome State Fault Refusal :=
  run resetNRelease s

/-- ALWAYS_ON_START (R101): Phase 2 ends with the low-power regulator, AO clock and wake detectors running. -/
def execAlwaysOnStart (s : State) : Host.Outcome State Fault Refusal :=
  run alwaysOnStart s

/-- PLL_LOCK (R102): Phase 3 ends with the PLL locked and the member straps read. -/
def execPllLock (straps : BitVec 2) (s : State) : Host.Outcome State Fault Refusal :=
  run (pllLock straps) s

/-- PLL_LOCK_TIMEOUT (R102): The PLL not locked within tPLL repeats phase 3. -/
def execPllLockTimeout (s : State) : Host.Outcome State Fault Refusal :=
  run pllAgain s

/-- NV_CHECK (R113): Phase 4 scans the recorder, repairs torn writes, selects key store and checks plan copies. -/
def execNvCheck (started : Bool) (s : State) : Host.Outcome State Fault Refusal :=
  run (nvCheck started) s

/-- SELF_TEST (R102): Phase 5 lockstep and SRAM self-test completes, or fails into fatal hold. -/
def execSelfTest (pass : Bool) (s : State) : Host.Outcome State Fault Refusal :=
  run (selfTest pass) s

/-- PLAN_PHASE (R114): Phase 6 checks candidate plan copies and chooses the one to execute. -/
def execPlanPhase (s : State) : Host.Outcome State Fault Refusal :=
  run planPhase s

/-- PLAN_PACKET (R115): The next plan packet is executed as host 12 after the previous completed. -/
def execPlanPacket (s : State) : Host.Outcome State Fault Refusal :=
  run planPacket s

/-- BRINGUP_READY (R101): Phase 7 sets READY, opens interfaces and raises event 239. -/
def execBringupReady (s : State) : Host.Outcome State Fault Refusal :=
  run bringupReady s

/-- WARM_RESTART (R107): The command engine is reset, staging flushed and the warm self-test run. -/
def execWarmRestart (pass : Bool) (s : State) : Host.Outcome State Fault Refusal :=
  run (warmRestart pass) s

/-- WARM_READY (R110): A warm restart reaches ready, raises event 239 and evaluates latched rake edges. -/
def execWarmReady (s : State) : Host.Outcome State Fault Refusal :=
  run warmReady s

/-- REPLAY_STATE_WRITE (R68): A slot's replay state is written at most once per 1 ms. -/
def execReplayStateWrite (slot : Fin 64) (s : State) : Host.Outcome State Fault Refusal :=
  run (replayStateWrite slot) s

end Sys2Proof.Machine
end

