-- ==== Sys2Proof/Machine/ExecInputs.lean ====
section
/-! DEFINITION. The meanings of the commands of families 07h to 09h: inputs, field I/O and reflexes. -/

namespace Sys2Proof.Machine

/-- SW_CONFIG (R338): Writes reference, threshold, wetting, debounce, cyclic, analog and enable settings of switch
inputs. -/
def execSwConfig (p : Packet) (s : State) : Host.Outcome State Fault Refusal := runPacket opSwConfig 0x0700 p s

/-- SW_READ (R338): Returns CLOSED, VALID and HELD bitmaps of all switch inputs. -/
def execSwRead (p : Packet) (s : State) : Host.Outcome State Fault Refusal := runPacket opSwRead 0x0701 p s

/-- AN_CONFIG (R338): Writes range, bias, averaging and limits of analog inputs. -/
def execAnConfig (p : Packet) (s : State) : Host.Outcome State Fault Refusal := runPacket opAnConfig 0x0702 p s

/-- AN_READ (R338): Returns values, codes, limit flags and ages of analog inputs. -/
def execAnRead (p : Packet) (s : State) : Host.Outcome State Fault Refusal := runPacket opAnRead 0x0703 p s

/-- CYCLIC_CONFIG (R338): Writes the cyclic sensing settings in the always-on section. -/
def execCyclicConfig (p : Packet) (s : State) : Host.Outcome State Fault Refusal := runPacket opCyclicConfig 0x0704 p s

/-- FQ_SET (R332): Commands field outputs on or off. -/
def execFqSet (p : Packet) (s : State) : Host.Outcome State Fault Refusal := runPacket opFqSet 0x0800 p s

/-- FIELD_CONFIG (R338): Writes field input filters and field output fault mode and fault enable. -/
def execFieldConfig (p : Packet) (s : State) : Host.Outcome State Fault Refusal := runPacket opFieldConfig 0x0801 p s

/-- FIELD_READ (R338): Returns field input values, output modes, DRIVEN, supply and fault state. -/
def execFieldRead (p : Packet) (s : State) : Host.Outcome State Fault Refusal := runPacket opFieldRead 0x0802 p s

/-- REFLEX_WRITE (R356): Replaces one reflex entry after range and opcode checks, discarding its timer, wait and
hold-off. -/
def execReflexWrite (p : Packet) (s : State) : Host.Outcome State Fault Refusal := runPacket opReflexWrite 0x0900 p s

/-- REFLEX_ENABLE (R356): Enables or disables a set of reflex entries. -/
def execReflexEnable (p : Packet) (s : State) : Host.Outcome State Fault Refusal := runPacket opReflexEnable 0x0901 p s

/-- REFLEX_READ (R355): Returns the image of one reflex entry. -/
def execReflexRead (p : Packet) (s : State) : Host.Outcome State Fault Refusal := runPacket opReflexRead 0x0902 p s

/-- RAKE_SAMPLE (R319): Every 250 us enabled switch inputs are sampled and debounced into edges. -/
def execRakeSample (mv : List Nat) (s : State) : Host.Outcome State Fault Refusal :=
  run (rakeSample mv) s

/-- CYCLIC_PULSE (R320): Every CYC_PERIOD armed inputs get a wetting pulse and are sampled. -/
def execCyclicPulse (mv : List Nat) (s : State) : Host.Outcome State Fault Refusal :=
  run (cyclicPulse mv) s

/-- CYCLIC_CONFIRM (R321): The confirming pulse confirms a candidate change, stores it and may fire detector 05h. -/
def execCyclicConfirm (mv : List Nat) (s : State) : Host.Outcome State Fault Refusal :=
  run (cyclicConfirm mv) s

/-- ANALOG_CONVERSION (R323): An analog input is converted, averaged and compared with its limits. -/
def execAnalogConversion (input : Fin 12) (code : BitVec 12) (s : State) : Host.Outcome State Fault Refusal :=
  run (analogSlot input code) s

/-- FIELD_SUPPLY_CHANGE (R326): The field supply state changes, freezing inputs and turning outputs off on MISSING. -/
def execFieldSupplyChange (mv : Nat) (s : State) : Host.Outcome State Fault Refusal :=
  run (fieldSupplyChange mv) s

/-- FIELD_REDRIVE_START (R328): tFRD after OK returns, re-drive of commanded-on field outputs begins. -/
def execFieldRedriveStart (s : State) : Host.Outcome State Fault Refusal :=
  run fieldRedriveStart s

/-- FIELD_REDRIVE_STEP (R328): The next waiting field output turns on tFQS after the previous. -/
def execFieldRedriveStep (s : State) : Host.Outcome State Fault Refusal :=
  run fieldRedriveStep s

/-- FIELD_INPUT_SAMPLE (R330): Every 50 us field inputs are sampled and filtered. -/
def execFieldInputSample (mv : List Nat) (s : State) : Host.Outcome State Fault Refusal :=
  run (fieldInputSample mv) s

/-- FIELD_OUTPUT_SHUTDOWN (R333): A field output reaches 175 C and shuts down. -/
def execFieldOutputShutdown (output : Fin 16) (tjC : Int) (s : State) : Host.Outcome State Fault Refusal :=
  run (fieldOutputShutdown output tjC) s

/-- FIELD_OUTPUT_RESTART (R333): A shut-down field output in restart mode turns on again below 150 C. -/
def execFieldOutputRestart (output : Fin 16) (tjC : Int) (s : State) : Host.Outcome State Fault Refusal :=
  run (fieldOutputRestart output tjC) s

/-- FIELD_CURRENT_LIMIT (R334): A field output enters current limit and contributes to FAULT. -/
def execFieldCurrentLimit (output : Fin 16) (limiting : Bool) (s : State) : Host.Outcome State Fault Refusal :=
  run (fieldCurrentLimit output limiting) s

/-- FAULT_STRETCH_END (R334): A field output's fault contribution ends tFQH after its condition. -/
def execFaultStretchEnd (output : Fin 16) (s : State) : Host.Outcome State Fault Refusal :=
  run (faultStretchEnd output) s

/-- REFLEX_EVALUATE (R346): The reflex engine evaluates enabled entries against one buffered occurrence. -/
def execReflexEvaluate (s : State) : Host.Outcome State Fault Refusal :=
  run reflexEvaluate s

/-- REFLEX_TIMER_EXPIRY (R345): A reflex entry timer expires as a TIMER occurrence. -/
def execReflexTimerExpiry (entry : Fin 128) (s : State) : Host.Outcome State Fault Refusal :=
  run (reflexTimerExpiry entry) s

/-- PROX_WAIT_EXPIRY (R351): A proximity wait ends without a near verdict and the entry is denied. -/
def execProxWaitExpiry (entry : Fin 128) (s : State) : Host.Outcome State Fault Refusal :=
  run (proxWaitExpiry entry) s

/-- FIELD_OUTPUT_FED (R334): A field output commanded off stays above 9.0 V for 1 ms and contributes to FAULT. -/
def execFieldOutputFed (output : Fin 16) (mv : Nat) (s : State) : Host.Outcome State Fault Refusal :=
  run (fieldOutputFed output mv) s

end Sys2Proof.Machine
end

