-- ==== Sys2Proof/Machine/ExecKeys.lean ====
section
/-! DEFINITION. The meanings of the commands of families 0Dh and 0Eh: access and the key store. -/

namespace Sys2Proof.Machine

/-- CHALLENGE (R429): Runs a token challenge exchange on one or two LF drivers and reports the released token. -/
def execChallenge (p : Packet) (s : State) : Host.Outcome State Fault Refusal := runPacket opChallenge 0x0D00 p s

/-- TP_CHALLENGE (R437): Runs the transponder immobiliser exchange on TP. -/
def execTpChallenge (p : Packet) (s : State) : Host.Outcome State Fault Refusal := runPacket opTpChallenge 0x0D01 p s

/-- ACCESS_CONFIG (R443): Writes LF current, polling and vehicle settings. -/
def execAccessConfig (p : Packet) (s : State) : Host.Outcome State Fault Refusal := runPacket opAccessConfig 0x0D02 p s

/-- TOKEN_ENROL (R435): Unwraps and stores a token key blob on the shelf or in the cache. -/
def execTokenEnrol (p : Packet) (s : State) : Host.Outcome State Fault Refusal := runPacket opTokenEnrol 0x0D03 p s

/-- TOKEN_LOAD (R435): Unwraps a token key blob into the cache only. -/
def execTokenLoad (p : Packet) (s : State) : Host.Outcome State Fault Refusal := runPacket opTokenLoad 0x0D04 p s

/-- TOKEN_REMOVE (R436): Erases a token's shelf slot and cache entry. -/
def execTokenRemove (p : Packet) (s : State) : Host.Outcome State Fault Refusal := runPacket opTokenRemove 0x0D05 p s

/-- TOKEN_REVOKE (R436): Irreversibly revokes a token serial and erases its key and verdict. -/
def execTokenRevoke (p : Packet) (s : State) : Host.Outcome State Fault Refusal := runPacket opTokenRevoke 0x0D06 p s

/-- PROX_VERDICT (R439): Holds a near or far proximity verdict for a token serial and releases waiting reflex entries. -/
def execProxVerdict (p : Packet) (s : State) : Host.Outcome State Fault Refusal := runPacket opProxVerdict 0x0D07 p s

/-- ACCESS_POLL (R425): Stops approach polling or restarts its day count and resumes it. -/
def execAccessPoll (p : Packet) (s : State) : Host.Outcome State Fault Refusal := runPacket opAccessPoll 0x0D08 p s

/-- ROOTSTOCK_ESTABLISH (R452): Establishes an UNSET rootstock under a KP proof and returns it wrapped. -/
def execRootstockEstablish (p : Packet) (s : State) : Host.Outcome State Fault Refusal := runPacket opRootstockEstablish 0x0E00 p s

/-- ROOTSTOCK_INVALIDATE (R453): Raises or retires a rootstock generation under a proof and returns the new value
wrapped. -/
def execRootstockInvalidate (p : Packet) (s : State) : Host.Outcome State Fault Refusal := runPacket opRootstockInvalidate 0x0E01 p s

/-- KEY_LOAD (R458): Loads a slot scion from a blob after checks and resets the slot's replay state. -/
def execKeyLoad (p : Packet) (s : State) : Host.Outcome State Fault Refusal := runPacket opKeyLoad 0x0E02 p s

/-- KEY_CLEAR (R460): Empties a key slot under a proof of its parent rootstock. -/
def execKeyClear (p : Packet) (s : State) : Host.Outcome State Fault Refusal := runPacket opKeyClear 0x0E03 p s

/-- KEY_ATTEST (R470): Returns an attestation report authenticated under an ATTEST slot. -/
def execKeyAttest (p : Packet) (s : State) : Host.Outcome State Fault Refusal := runPacket opKeyAttest 0x0E04 p s

/-- APPROACH_POLL (R424): Every POLL_PERIOD poll frames are sent and listening windows opened. -/
def execApproachPoll (s : State) : Host.Outcome State Fault Refusal :=
  run approachPoll s

/-- BEACON_RECEIVED (R424): A beacon sync in a poll window fires detector 06h. -/
def execBeaconReceived (drivers : BitVec 6) (s : State) : Host.Outcome State Fault Refusal :=
  run (beaconReceived drivers) s

/-- POLL_DAY_LIMIT (R425): PARK_TIME reaches POLL_DAYS and polling stops. -/
def execPollDayLimit (s : State) : Host.Outcome State Fault Refusal :=
  run pollDayLimit s

/-- TOKEN_RESPONSE (R428): A UHF response in a slot is checked and may release its token. -/
def execTokenResponse (slot : Fin 8) (bytes : List Byte) (s : State) : Host.Outcome State Fault Refusal :=
  run (tokenResponse slot bytes) s

/-- RESPONSE_WINDOW_END (R432): The response window ends, repeating the challenge or starting confirmation. -/
def execResponseWindowEnd (s : State) : Host.Outcome State Fault Refusal :=
  run responseWindowEnd s

/-- CONFIRMATION_SENT (R430): The confirmation frame ends and CHALLENGE completes. -/
def execConfirmationSent (s : State) : Host.Outcome State Fault Refusal :=
  run confirmationSent s

/-- LF_ANTENNA_FAULT (R421): An LF antenna open or short is detected during a frame. -/
def execLfAntennaFault (driver : Fin 6) (short : Bool) (peakMA : Nat) (s : State) : Host.Outcome State Fault Refusal :=
  run (lfAntennaFault driver short peakMA) s

/-- TP_VERDICT (R438): The transponder window closes and the immobiliser verdict is written. -/
def execTpVerdict (answer : Option (List Byte)) (s : State) : Host.Outcome State Fault Refusal :=
  run (tpVerdict answer) s

/-- KEY_STORE_COMMIT (R465): A key store update commits as its last write and becomes current. -/
def execKeyStoreCommit (ok : Bool) (s : State) : Host.Outcome State Fault Refusal :=
  run (fun s => planFollow true (planFollow false (keyStoreCommit ok s))) s

/-- SLOT_RELOAD_DONE (R461): Persistent slots are reloaded within tKRL after D14 comes on from off. -/
def execSlotReloadDone (s : State) : Host.Outcome State Fault Refusal :=
  run slotReloadDone s

end Sys2Proof.Machine
end

