-- ==== Sys2Proof/Machine/ExecMotion.lean ====
section
/-! DEFINITION. The meanings of the commands of families 05h and 06h: bridges and valves. -/

namespace Sys2Proof.Machine

/-- BR_MOVE (R267): Commands coast, brake, drive or GOTO of addressed bridges. -/
def execBrMove (p : Packet) (s : State) : Host.Outcome State Fault Refusal := runPacket opBrMove 0x0500 p s

/-- BR_CONFIG (R286): Writes selected drive, pinch and travel fields of addressed bridges. -/
def execBrConfig (p : Packet) (s : State) : Host.Outcome State Fault Refusal := runPacket opBrConfig 0x0501 p s

/-- BR_READ (R287): Returns current, position, ripple period, voltages and age of bridges. -/
def execBrRead (p : Packet) (s : State) : Host.Outcome State Fault Refusal := runPacket opBrRead 0x0502 p s

/-- BR_CLEAR (R287): Grants release of tripped bridges. -/
def execBrClear (p : Packet) (s : State) : Host.Outcome State Fault Refusal := runPacket opBrClear 0x0503 p s

/-- BR_POSITION (R287): Writes POSITION and POS_VALID of a bridge at rest. -/
def execBrPosition (p : Packet) (s : State) : Host.Outcome State Fault Refusal := runPacket opBrPosition 0x0504 p s

/-- BR_LEARN (R278): Starts, abandons or erases learning of a bridge closing profile. -/
def execBrLearn (p : Packet) (s : State) : Host.Outcome State Fault Refusal := runPacket opBrLearn 0x0505 p s

/-- VALVE_SET (R311): Commands addressed valves on or off, checking exclusive pairs. -/
def execValveSet (p : Packet) (s : State) : Host.Outcome State Fault Refusal := runPacket opValveSet 0x0600 p s

/-- VALVE_CONFIG (R310): Writes closure detection and diagnosis fields of addressed valves. -/
def execValveConfig (p : Packet) (s : State) : Host.Outcome State Fault Refusal := runPacket opValveConfig 0x0601 p s

/-- HEADER_CONFIG (R310): Writes over-current step and restart settings of addressed headers. -/
def execHeaderConfig (p : Packet) (s : State) : Host.Outcome State Fault Refusal := runPacket opHeaderConfig 0x0602 p s

/-- VALVE_READ (R310): Returns currents, voltages and ages of valves or headers. -/
def execValveRead (p : Packet) (s : State) : Host.Outcome State Fault Refusal := runPacket opValveRead 0x0603 p s

/-- VALVE_CLEAR (R302): Grants release of thermally latched valves and latched headers. -/
def execValveClear (p : Packet) (s : State) : Host.Outcome State Fault Refusal := runPacket opValveClear 0x0604 p s

/-- VALVE_EXCL (R299): Declares or dissolves an exclusive pair of valves with optional GUARD. -/
def execValveExcl (p : Packet) (s : State) : Host.Outcome State Fault Refusal := runPacket opValveExcl 0x0605 p s

/-- LEG_TRIP (R270): A bridge leg trips and the bridge goes TRIPPED with both legs HIZ. -/
def execLegTrip (leg : Fin 16) (kind : TripKind) (currentMA : Nat) (tjC : Int) (shortLimit : Bool) (s : State) : Host.Outcome State Fault Refusal :=
  run (legTrip leg kind currentMA tjC shortLimit) s

/-- RIPPLE_PULSE (R271): A commutation ripple is counted, updating POSITION and ending GOTO or reversal counts. -/
def execRipplePulse (bridge : Fin 8) (s : State) : Host.Outcome State Fault Refusal :=
  run (ripplePulse bridge) s

/-- BRIDGE_START_END (R266): START_MS elapses, the bridge enters RUN and returns its token. -/
def execBridgeStartEnd (bridge : Fin 8) (s : State) : Host.Outcome State Fault Refusal :=
  run (bridgeStartEnd bridge) s

/-- MOTOR_STILL (R266): No ripple for tRPQ in STOPPING brings the bridge to rest and writes its mirror entry. -/
def execMotorStill (bridge : Fin 8) (s : State) : Host.Outcome State Fault Refusal :=
  run (motorStill bridge) s

/-- BRAKE_LIMIT (R266): BRAKE_MAX elapses in STOPPING and the bridge rests. -/
def execBrakeLimit (bridge : Fin 8) (s : State) : Host.Outcome State Fault Refusal :=
  run (brakeLimit bridge) s

/-- BRIDGE_STALL (R273): No ripple for STALL_T in RUN ends the move as stall, end stop or pinch. -/
def execBridgeStall (bridge : Fin 8) (s : State) : Host.Outcome State Fault Refusal :=
  run (bridgeStall bridge) s

/-- RUN_LIMIT (R273): Time in START and RUN reaches RUN_LIMIT and the move ends. -/
def execRunLimit (bridge : Fin 8) (s : State) : Host.Outcome State Fault Refusal :=
  run (runLimit bridge) s

/-- ANTI_PINCH_CHECK (R275): Every 50 us or ripple a closing bridge is checked against its profile or absolute limit. -/
def execAntiPinchCheck (bridge : Fin 8) (filteredMA : Nat) (s : State) : Host.Outcome State Fault Refusal :=
  run (antiPinchCheck bridge filteredMA) s

/-- REVERSAL_DRIVE_START (R276): After the braking pause the bridge drives away from the closed end. -/
def execReversalDriveStart (bridge : Fin 8) (s : State) : Host.Outcome State Fault Refusal :=
  run (reversalDriveStart bridge) s

/-- BRIDGE_CLEAR_RELEASE (R266): A tripped bridge with clear granted and legs below 150 C goes to COAST. -/
def execBridgeClearRelease (bridge : Fin 8) (s : State) : Host.Outcome State Fault Refusal :=
  run (bridgeClearRelease bridge) s

/-- HEADER_RISE_DONE (R293): A header above 90 % of VS4 or tHDR elapsed turns the waiting valve ON. -/
def execHeaderRiseDone (group : Fin 4) (s : State) : Host.Outcome State Fault Refusal :=
  run (headerRiseDone group) s

/-- CLAMP_END (R293): A valve's drain falls below header + 5 V, opening its window or ending. -/
def execClampEnd (valve : Fin 16) (drainMV headerMV : Int) (s : State) : Host.Outcome State Fault Refusal :=
  run (clampEnd valve drainMV headerMV) s

/-- CLOSURE_SAMPLE (R296): A 10 us drain sample is tested for the closure kink. -/
def execClosureSample (valve : Fin 16) (drainMV : Int) (s : State) : Host.Outcome State Fault Refusal :=
  run (closureSample valve drainMV) s

/-- CLOSURE_WINDOW_END (R296): CLOSE_WIN elapses and the window ends NO_KINK or NOT_MEASURED. -/
def execClosureWindowEnd (valve : Fin 16) (s : State) : Host.Outcome State Fault Refusal :=
  run (closureWindowEnd valve) s

/-- VALVE_THERMAL_TRIP (R302): A valve switch junction reaches 175 C, turning it off and latching it. -/
def execValveThermalTrip (valve : Fin 16) (tjC : Int) (s : State) : Host.Outcome State Fault Refusal :=
  run (valveThermalTrip valve tjC) s

/-- HEADER_TRIP (R301): A header trips and turns off every valve of its group in HDR_RISE or ON. -/
def execHeaderTrip (group : Fin 4) (kind : TripKind) (currentMA : Nat) (tjC : Int) (shortLimit : Bool) (s : State) : Host.Outcome State Fault Refusal :=
  run (headerTrip group kind currentMA tjC shortLimit) s

/-- VALVE_TOKEN_RETURN (R294): A valve returns its token tVTK after entering ON. -/
def execValveTokenReturn (valve : Fin 16) (s : State) : Host.Outcome State Fault Refusal :=
  run (valveTokenReturn valve) s

/-- VALVE_CLEAR_RELEASE (R293): A tripped valve with clear granted and junction below 150 C goes OFF. -/
def execValveClearRelease (valve : Fin 16) (tjC : Int) (s : State) : Host.Outcome State Fault Refusal :=
  run (valveClearRelease valve tjC) s

/-- HEADER_OFF (R291): A falling valve header reaches off within 20 us after its group demand ended, letting a waiting
valve's header rise again. -/
def execHeaderOff (group : Fin 4) (s : State) : Host.Outcome State Fault Refusal :=
  run (headerOff group) s

end Sys2Proof.Machine
end

