-- ==== Sys2Proof/Machine/ExecNets.lean ====
section
/-! DEFINITION. The meanings of the commands of families 0Ah to 0Ch: networks, time and dormancy. -/

namespace Sys2Proof.Machine

/-- IDLE_TIMEOUT: a net prepares to sleep once its idle timer has ended and HOLD is over (R400, R401). -/
def idleEnd (n : Fin 16) (s : State) : State := prepareCheck n s

/-- PORT_CONFIG (R391): Writes selected configuration fields of Ethernet, CAN or LIN ports. -/
def execPortConfig (p : Packet) (s : State) : Host.Outcome State Fault Refusal := runPacket opPortConfig 0x0A00 p s

/-- VLAN_WRITE (R389): Writes one entry of the switch VLAN table. -/
def execVlanWrite (p : Packet) (s : State) : Host.Outcome State Fault Refusal := runPacket opVlanWrite 0x0A01 p s

/-- LIN_SCHEDULE (R378): Replaces a LIN channel's schedule table from the end of the slot in progress. -/
def execLinSchedule (p : Packet) (s : State) : Host.Outcome State Fault Refusal := runPacket opLinSchedule 0x0A02 p s

/-- FILTER_WRITE (R380): Writes one frame forwarding filter. -/
def execFilterWrite (p : Packet) (s : State) : Host.Outcome State Fault Refusal := runPacket opFilterWrite 0x0A03 p s

/-- AUTH_CHANNEL (R384): Writes one authenticated-frame channel, optionally resetting its counter. -/
def execAuthChannel (p : Packet) (s : State) : Host.Outcome State Fault Refusal := runPacket opAuthChannel 0x0A04 p s

/-- FRAME_SEND (R382): Places a CAN frame in a transmit buffer or stores LIN publish data, optionally authenticated. -/
def execFrameSend (p : Packet) (s : State) : Host.Outcome State Fault Refusal := runPacket opFrameSend 0x0A05 p s

/-- FRAME_SEND_TIMEOUT (R382): A FRAME_SEND waiting for a free buffer completes with TX_FULL after tTXW. -/
def execFrameSendTimeout (channel : Fin 6) (s : State) : Host.Outcome State Fault Refusal :=
  run (frameSendTimeout channel) s

/-- TIME_READ (R390): Returns zone time, wall time, offset, rate, life ticks and sync state. -/
def execTimeRead (p : Packet) (s : State) : Host.Outcome State Fault Refusal := runPacket opTimeRead 0x0B00 p s

/-- TIME_CONFIG (R368): Writes sync interval, port roles, step limit, neighbour threshold and sync timeout. -/
def execTimeConfig (p : Packet) (s : State) : Host.Outcome State Fault Refusal := runPacket opTimeConfig 0x0B01 p s

/-- TIME_SET (R372): Sets or adjusts zone time unless disciplined upstream. -/
def execTimeSet (p : Packet) (s : State) : Host.Outcome State Fault Refusal := runPacket opTimeSet 0x0B02 p s

/-- WALL_SET (R373): Sets or unsets wall time. -/
def execWallSet (p : Packet) (s : State) : Host.Outcome State Fault Refusal := runPacket opWallSet 0x0B03 p s

/-- DORM_CONFIG (R416): Writes dormancy enable, timing and keep-alive settings of nets. -/
def execDormConfig (p : Packet) (s : State) : Host.Outcome State Fault Refusal := runPacket opDormConfig 0x0C00 p s

/-- DORM_NEED (R398): Sets or clears the sender's need bit on nets, with an optional lease. -/
def execDormNeed (p : Packet) (s : State) : Host.Outcome State Fault Refusal := runPacket opDormNeed 0x0C01 p s

/-- DORM_KEEP (R416): Counts as a keep-alive from another participant on named Ethernet ports. -/
def execDormKeep (p : Packet) (s : State) : Host.Outcome State Fault Refusal := runPacket opDormKeep 0x0C02 p s

/-- DORM_WUF (R416): Reads or writes the CAN selective wake frame of a channel. -/
def execDormWuf (p : Packet) (s : State) : Host.Outcome State Fault Refusal := runPacket opDormWuf 0x0C03 p s

/-- LINK_CHANGE (R360): An Ethernet port link goes up, down or trains. -/
def execLinkChange (port : Fin 2) (link : BitVec 2) (s : State) : Host.Outcome State Fault Refusal :=
  run (linkChange port link) s

/-- LINK_QUALITY_UPDATE (R360): Every 10 ms LINK_QUALITY is updated from the receiver error. -/
def execLinkQualityUpdate (port : Fin 2) (quality : BitVec 3) (s : State) : Host.Outcome State Fault Refusal :=
  run (linkQualityUpdate port quality) s

/-- SWITCH_FRAME (R362): A frame arriving at the internal switch is filtered, learned and forwarded. -/
def execSwitchFrame (port : Fin 3) (frame : EthFrame) (len : Nat) (fcsOk : Bool) (full : BitVec 3) (s : State) : Host.Outcome State Fault Refusal :=
  run (switchFrame port frame len fcsOk full) s

/-- MAC_ENTRY_AGE (R362): A learned address entry ages out after 300 s. -/
def execMacEntryAge (mac : BitVec 48) (vlan : BitVec 12) (s : State) : Host.Outcome State Fault Refusal :=
  run (macEntryAge mac vlan) s

/-- PDELAY_REQUEST (R367): Once per second a peer delay measurement is made on each enabled port. -/
def execPdelayRequest (port : Fin 2) (answered : Bool) (delayNS : Nat) (s : State) : Host.Outcome State Fault Refusal :=
  run (pdelayRequest port answered delayNS) s

/-- SYNC_RECEIVED (R369): A Sync on the upstream port drives the zone-time servo or steps zone time. -/
def execSyncReceived (port : Fin 2) (originNS : Nat) (correctionNS : Int) (oneStep : Bool) (s : State) : Host.Outcome State Fault Refusal :=
  run (syncReceived port originNS correctionNS oneStep) s

/-- SYNC_SEND (R368): Sync is sent or relayed on downstream ports. -/
def execSyncSend (port : Fin 2) (s : State) : Host.Outcome State Fault Refusal :=
  run (syncSend port) s

/-- SYNC_TIMEOUT (R370): No Sync for SYNC_TIMEOUT intervals puts the sync state into HOLDOVER. -/
def execSyncTimeout (s : State) : Host.Outcome State Fault Refusal :=
  run syncTimeout s

/-- CAN_FRAME_RECEIVED (R379): A received CAN frame is authenticated, filtered for forwarding and passed to the reflex
engine. -/
def execCanFrameReceived (channel : Fin 6) (frame : CanFrame) (s : State) : Host.Outcome State Fault Refusal :=
  run (canFrameReceived channel frame) s

/-- CAN_FRAME_SENT (R382): A CAN transmit buffer frame wins arbitration and is sent, freeing its buffer. -/
def execCanFrameSent (channel : Fin 6) (s : State) : Host.Outcome State Fault Refusal :=
  run (canFrameSent channel) s

/-- CAN_BUS_OFF (R376): A CAN channel enters bus-off and discards its transmit buffers. -/
def execCanBusOff (channel : Fin 6) (s : State) : Host.Outcome State Fault Refusal :=
  run (canBusOff channel) s

/-- BUS_OFF_RECOVERY (R376): A bus-off channel with BUSOFF_AUTO recovers after 128 x 11 recessive bits. -/
def execBusOffRecovery (channel : Fin 6) (s : State) : Host.Outcome State Fault Refusal :=
  run (busOffRecovery channel) s

/-- LIN_SLOT_START (R378): A LIN slot sends its header and publishes or receives the response. -/
def execLinSlotStart (channel : Fin 8) (s : State) : Host.Outcome State Fault Refusal :=
  run (linSlotStart channel) s

/-- LIN_FRAME_RECEIVED (R378): A complete LIN response with correct checksum is a received frame. -/
def execLinFrameReceived (channel : Fin 8) (data : List Byte) (framingOk checksumOk : Bool) (s : State) : Host.Outcome State Fault Refusal :=
  run (linFrameReceived channel data framingOk checksumOk) s

/-- FORWARD_PACKET_BUILD (R381): After tFBW a forwarded-frame packet is built for a host. -/
def execForwardPacketBuild (host : Fin 10) (s : State) : Host.Outcome State Fault Refusal :=
  run (forwardPacketBuild host) s

/-- KEEP_ALIVE_SEND (R399): A net in AWAKE_NEED sends its own keep-alive every KA_PERIOD. -/
def execKeepAliveSend (net : Fin 16) (s : State) : Host.Outcome State Fault Refusal :=
  run (keepAliveSend net) s

/-- IDLE_TIMEOUT (R400): The idle timer reaches IDLE_TIME and, with HOLD ended, the net enters PREPARE. -/
def execIdleTimeout (net : Fin 16) (s : State) : Host.Outcome State Fault Refusal :=
  run (idleEnd net) s

/-- HOLD_END (R401): HOLD ends MIN_AWAKE after a wake. -/
def execHoldEnd (net : Fin 16) (s : State) : Host.Outcome State Fault Refusal :=
  run (prepareCheck net) s

/-- PREPARE_END (R400): PREP_TIME elapses with buffers empty; LIN go-to-sleep or TC10 request sent. -/
def execPrepareEnd (net : Fin 16) (s : State) : Host.Outcome State Fault Refusal :=
  run (prepareEnd net) s

/-- SLEEP_TRANSITION_END (R400): tSLT elapses and the net is ASLEEP. -/
def execSleepTransitionEnd (net : Fin 16) (s : State) : Host.Outcome State Fault Refusal :=
  run (sleepTransitionEnd net) s

/-- NET_WAKE_DETECT (R409): A bus wake pattern, wake frame, LIN wake or TC10 pulse is detected on a net. -/
def execNetWakeDetect (net : Fin 16) (selective : Bool) (s : State) : Host.Outcome State Fault Refusal :=
  run (netWakeDetect net selective) s

/-- TC10_SLEEP_ACCEPT (R405): The link partner accepts the TC10 sleep request and the net enters SLEEP_TRANSITION. -/
def execTc10SleepAccept (port : Fin 2) (s : State) : Host.Outcome State Fault Refusal :=
  run (tc10Accept port) s

/-- TC10_SLEEP_TIMEOUT (R405): No acceptance within tTSR returns the net to AWAKE_IDLE. -/
def execTc10SleepTimeout (port : Fin 2) (s : State) : Host.Outcome State Fault Refusal :=
  run (tc10Timeout port) s

/-- TC10_SLEEP_REQUEST (R405): A partner's TC10 sleep request is accepted or refused. -/
def execTc10SleepRequest (port : Fin 2) (s : State) : Host.Outcome State Fault Refusal :=
  run (tc10Request port) s

/-- LIN_WAKE_WAIT_END (R407): tLWW after a LIN wake, the commander sends its first header. -/
def execLinWakeWaitEnd (channel : Fin 8) (s : State) : Host.Outcome State Fault Refusal :=
  run (linWakeWaitEnd channel) s

/-- NEED_LEASE_EXPIRY (R416): A host's DORM_NEED lease expires and clears its need bits on every net. -/
def execNeedLeaseExpiry (host : Fin 14) (s : State) : Host.Outcome State Fault Refusal :=
  run (needLeaseExpiry host) s

/-- CHANNEL_COUNTER_WRITE (R387): An authentication channel counter is written at most once per 1 ms. -/
def execChannelCounterWrite (channel : Fin 32) (s : State) : Host.Outcome State Fault Refusal :=
  run (channelCounterWrite channel) s

/-- CAN_BUS_ERROR (R376): A CAN protocol error on a channel updates its error counters, may enter error passive and sets
PROTOCOL_ERROR_SEEN. -/
def execCanBusError (channel : Fin 6) (tec rec_ : Nat) (s : State) : Host.Outcome State Fault Refusal :=
  run (canBusError channel tec rec_) s

/-- LIN_RESPONSE_TIMEOUT (R377): A LIN response not complete within 1.4 x 10 x (LEN + 1) bit times of the header ends the
slot with NO_RESPONSE. -/
def execLinResponseTimeout (channel : Fin 8) (s : State) : Host.Outcome State Fault Refusal :=
  run (linResponseTimeout channel) s

/-- TRANSCEIVER_SUPPLY_CHANGE (R560): VS5 crosses 5.0 V, holding CAN and LIN transmitters recessive and pausing LIN
schedules, or releasing them. -/
def execTransceiverSupplyChange (vs5MV : Nat) (s : State) : Host.Outcome State Fault Refusal :=
  run (transceiverSupply vs5MV) s

end Sys2Proof.Machine
end

