-- ==== Sys2Proof/Machine/ExecOutputs.lean ====
section
/-! DEFINITION. The meanings of the commands of families 02h to 04h: cells, protection and regions. -/

namespace Sys2Proof.Machine

/-- tMCO has passed since the last write of an entry (R193). -/
def mirrorDue (at_ : Option Nat) (s : State) : Bool := at_.all fun t => decide (t + Config.tMCO ≤ now s)

/-- MIRROR_WRITE: a pending entry is written; D15 is turned on for it (R193, Table 4-8). -/
def coalescedMirror (u : UnitRef) (s : State) : State :=
  let go (pend : Bool) (at_ : Option Nat) (f : State → State) : State :=
    if pend && mirrorDue at_ s then (if domOn 15 s then f s else wakeInternal 15 s) else s
  match u with
  | .out n => go s.outs[n].mirPend s.outs[n].mirAt (outMirrorNow n)
  | .leg n => go s.brs[legBridge n].mirPend s.brs[legBridge n].mirAt (brMirrorNow (legBridge n))
  | .vl n => go s.vls[n].mirPend s.vls[n].mirAt (vlMirrorNow n)
  | .fq n => go s.io.fq[n].mirPend s.io.fq[n].mirAt (fqMirrorNow n)
  | _ => s

/-- PROTECTION_RELEASE: the restart decision of a cell's primary, of a header, and the release of a cleared bridge or valve
(R216, R266, R293, R300). -/
def restartDecision (u : UnitRef) (s : State) : State :=
  match u with
  | .out n => decideCell (primary n s) s
  | .vh g => decideHeader g s
  | .leg n => bridgeClearRelease (legBridge n) s
  | .vl n => valveRelease n s
  | _ => s

/-- CLEAN_PERIOD_RELOAD of a cell's primary or a header (R217, R300). -/
def cleanPeriod (u : UnitRef) (s : State) : State :=
  match u with
  | .out n => cleanReload (primary n s) s
  | .vh g => cleanReloadHeader g s
  | _ => s

/-- OUT_SET (R173): Sets commanded mode and PWM values of addressed OUT cells with per-cell outcomes. -/
def execOutSet (p : Packet) (s : State) : Host.Outcome State Fault Refusal := runPacket opOutSet 0x0200 p s

/-- OUT_CONFIG (R176): Writes SLEW, EDGE_REF, STAGGER and RANGE of addressed cells. -/
def execOutConfig (p : Packet) (s : State) : Host.Outcome State Fault Refusal := runPacket opOutConfig 0x0201 p s

/-- OUT_READ (R189): Returns current, voltage, range, flags and age of a range of cells. -/
def execOutRead (p : Packet) (s : State) : Host.Outcome State Fault Refusal := runPacket opOutRead 0x0202 p s

/-- GANG_SET (R185): Declares or dissolves a gang of two cells of one class and block. -/
def execGangSet (p : Packet) (s : State) : Host.Outcome State Fault Refusal := runPacket opGangSet 0x0203 p s

/-- OUT_CAS (R175): Applies an OUT_SET to one cell only if its commanded mode equals EXPECT. -/
def execOutCas (p : Packet) (s : State) : Host.Outcome State Fault Refusal := runPacket opOutCas 0x0204 p s

/-- PROT_CONFIG (R223): Writes selected protection, envelope and wire-model fields of addressed cells. -/
def execProtConfig (p : Packet) (s : State) : Host.Outcome State Fault Refusal := runPacket opProtConfig 0x0300 p s

/-- LATCH_CLEAR (R220): Reloads retry counters and grants release of latched or protection-off cells, optionally
commanding off. -/
def execLatchClear (p : Packet) (s : State) : Host.Outcome State Fault Refusal := runPacket opLatchClear 0x0301 p s

/-- ENVELOPE_LEARN (R224): Starts, abandons or erases envelope learning of addressed cells. -/
def execEnvelopeLearn (p : Packet) (s : State) : Host.Outcome State Fault Refusal := runPacket opEnvelopeLearn 0x0302 p s

/-- REGION_CONFIG (R259): Writes supply thresholds, thermal limit, budgets and token budget of addressed regions. -/
def execRegionConfig (p : Packet) (s : State) : Host.Outcome State Fault Refusal := runPacket opRegionConfig 0x0400 p s

/-- PRUNE_CLASS_SET (R256): Sets the pruning class of addressed governed units. -/
def execPruneClassSet (p : Packet) (s : State) : Host.Outcome State Fault Refusal := runPacket opPruneClassSet 0x0401 p s

/-- MODULE_BUDGET (R258): Sets MODULE_PMAX. -/
def execModuleBudget (p : Packet) (s : State) : Host.Outcome State Fault Refusal := runPacket opModuleBudget 0x0402 p s

/-- TOKEN_GRANT (R238): A region grants waiting inrush token requests in order as budget frees. -/
def execTokenGrant (region : Fin 7) (s : State) : Host.Outcome State Fault Refusal :=
  run (tokenGrant region) s

/-- TOKEN_AGED (R238): A token request waiting tTKA becomes aged and gains precedence. -/
def execTokenAged (region : Fin 7) (s : State) : Host.Outcome State Fault Refusal :=
  run (tokenAged region) s

/-- CELL_RISE_DONE (R166): A rising cell reaches 90 % of supply or 3 x tRISE and becomes ON. -/
def execCellRiseDone (cell : Fin 96) (s : State) : Host.Outcome State Fault Refusal :=
  run (cellRiseDone cell) s

/-- CELL_FALL_DONE (R166): A falling cell reaches OFF and rises again if demand returned. -/
def execCellFallDone (cell : Fin 96) (s : State) : Host.Outcome State Fault Refusal :=
  run (cellFallDone cell) s

/-- CELL_DEMAG_ENTRY (R166): A falling cell's output drops below -1 V and it enters DEMAG. -/
def execCellDemagEntry (cell : Fin 96) (voutMV : Int) (s : State) : Host.Outcome State Fault Refusal :=
  run (cellDemagEntry cell voutMV) s

/-- CELL_DEMAG_END (R166): A demagnetising output rises above -0.5 V and the cell is OFF. -/
def execCellDemagEnd (cell : Fin 96) (voutMV : Int) (s : State) : Host.Outcome State Fault Refusal :=
  run (cellDemagEnd cell voutMV) s

/-- PWM_PERIOD_START (R177): A PWM period starts and the on-phase begins on zone time. -/
def execPwmPeriodStart (cell : Fin 96) (s : State) : Host.Outcome State Fault Refusal :=
  run (pwmPeriodStart cell) s

/-- PWM_ON_PHASE_END (R177): A PWM on-phase ends and demand ends. -/
def execPwmOnPhaseEnd (cell : Fin 96) (s : State) : Host.Outcome State Fault Refusal :=
  run (pwmOnPhaseEnd cell) s

/-- PWM_TOKEN_REQUEST (R182): A slow PWM cell requests its token tPLD before a rising edge. -/
def execPwmTokenRequest (cell : Fin 96) (s : State) : Host.Outcome State Fault Refusal :=
  run (pwmTokenRequest cell) s

/-- ADC_SLOT (R187): A block ADC slot converts a reading, self-check or charge-pump check. -/
def execAdcSlot (block : Fin 25) (slot : AdcSlot) (s : State) : Host.Outcome State Fault Refusal :=
  run (adcSlot block slot) s

/-- MIRROR_WRITE (R193): A coalesced mirror entry is written tMCO after the unit's last entry write. -/
def execMirrorWrite (unit : UnitRef) (s : State) : Host.Outcome State Fault Refusal :=
  run (coalescedMirror unit) s

/-- OVER_CURRENT_TRIP (R199): A cell exceeds its static threshold and turns off to protection-off. -/
def execOverCurrentTrip (cell : Fin 96) (currentMA : Nat) (s : State) : Host.Outcome State Fault Refusal :=
  run (overCurrentTrip cell currentMA) s

/-- ENVELOPE_TRIP (R205): A cell exceeds its inrush envelope and turns off to protection-off. -/
def execEnvelopeTrip (cell : Fin 96) (currentMA : Nat) (s : State) : Host.Outcome State Fault Refusal :=
  run (envelopeTrip cell currentMA) s

/-- SHORT_CIRCUIT_LIMIT (R202): A cell's current reaches ISCL and is held there until its comparator trips. -/
def execShortCircuitLimit (cell : Fin 96) (currentMA : Nat) (s : State) : Host.Outcome State Fault Refusal :=
  run (shortCircuitLimit cell currentMA) s

/-- THERMAL_TRIP (R215): A cell junction reaches 175 C and the cell trips. -/
def execThermalTrip (cell : Fin 96) (tjC : Int) (s : State) : Host.Outcome State Fault Refusal :=
  run (thermalTrip cell tjC) s

/-- WIRE_MODEL_STEP (R213): Every 100 us the wire heat is integrated, setting WIRE_WARN or a wire trip. -/
def execWireModelStep (cell : Fin 96) (watchHigh : Bool) (s : State) : Host.Outcome State Fault Refusal :=
  run (wireModelStep cell watchHigh) s

/-- ENVELOPE_END (R205): A cell's inrush envelope ends and its token returns. -/
def execEnvelopeEnd (cell : Fin 96) (s : State) : Host.Outcome State Fault Refusal :=
  run (envelopeEnd cell) s

/-- LEARN_SPAN_END (R209): A counted learning turn-on completes its 128 ms span; after eight the learned entry is
written. -/
def execLearnSpanEnd (cell : Fin 96) (peaksMA : List Nat) (s : State) : Host.Outcome State Fault Refusal :=
  run (learnSpanEnd cell peaksMA) s

/-- PROTECTION_RELEASE (R216): A protection-off or cleared cell, or a header, is released or latched by the restart
decision. -/
def execProtectionRelease (unit : UnitRef) (s : State) : Host.Outcome State Fault Refusal :=
  run (restartDecision unit) s

/-- CLEAN_PERIOD_RELOAD (R217): After tCLN of clean running the retry counter reloads. -/
def execCleanPeriodReload (unit : UnitRef) (s : State) : Host.Outcome State Fault Refusal :=
  run (cleanPeriod unit) s

/-- SUPPLY_LEVEL_SET (R243): A region supply below PRUNEn for PRUNE_FILTER sets a supply level and prunes. -/
def execSupplyLevelSet (region : Fin 7) (level : Fin 3) (vs : HeldSupply) (s : State) : Host.Outcome State Fault Refusal :=
  run (supplyLevelSet region level vs.mV vs.us) s

/-- SUPPLY_LEVEL_CLEAR (R243): A region supply back above PRUNEn + 0.5 V for tSRC clears a level. -/
def execSupplyLevelClear (region : Fin 7) (level : Fin 3) (vs : HeldSupply) (s : State) : Host.Outcome State Fault Refusal :=
  run (supplyLevelClear region level vs.mV vs.us) s

/-- UNDERVOLTAGE_OFF (R245): A region supply below 3.5 V turns every governed unit off. -/
def execUndervoltageOff (region : Fin 7) (vsMV : Nat) (s : State) : Host.Outcome State Fault Refusal :=
  run (undervoltageOff region vsMV) s

/-- UNDERVOLTAGE_RESTORE (R245): Supply at or above 4.0 V for tSRC puts undervoltage-off units on the restore list. -/
def execUndervoltageRestore (region : Fin 7) (vs : HeldSupply) (s : State) : Host.Outcome State Fault Refusal :=
  run (undervoltageRestore region vs.mV vs.us) s

/-- THERMAL_ROUND (R247): A thermal grid sampling round computes the hot-spot estimate and sets thermal levels. -/
def execThermalRound (region : Fin 7) (deciC : List Int) (s : State) : Host.Outcome State Fault Refusal :=
  run (thermalRound region deciC) s

/-- THERMAL_LEVEL_CLEAR (R249): A thermal level clears after H stayed 5 C below its point for 1 s. -/
def execThermalLevelClear (region : Fin 7) (level : Fin 3) (s : State) : Host.Outcome State Fault Refusal :=
  run (thermalLevelClear region level) s

/-- DISSIPATION_ESTIMATE (R251): Every 100 us a region estimates dissipation and current. -/
def execDissipationEstimate (region : Fin 7) (s : State) : Host.Outcome State Fault Refusal :=
  run (dissipationEstimate region) s

/-- BUDGET_STEP (R252): Every tBGC a region raises or lowers its budget stage. -/
def execBudgetStep (region : Fin 7) (s : State) : Host.Outcome State Fault Refusal :=
  run (budgetStep region) s

/-- MODULE_BUDGET_STEP (R253): Every tBGC the chip steps its module stage against MODULE_PMAX. -/
def execModuleBudgetStep (ownMW : Nat) (s : State) : Host.Outcome State Fault Refusal :=
  run (moduleBudgetStep ownMW) s

/-- RESTORE_RELEASE (R255): One unit is released from a region's restore list every tRSG. -/
def execRestoreRelease (region : Fin 7) (s : State) : Host.Outcome State Fault Refusal :=
  run (restoreRelease region) s

/-- JUNCTION_COOLED (R215): An OFF cell held back with HOT falls below 150 C and requests its inrush token in that core
cycle. -/
def execJunctionCooled (cell : Fin 96) (tjC : Int) (s : State) : Host.Outcome State Fault Refusal :=
  run (junctionCooled cell tjC) s

end Sys2Proof.Machine
end

