-- ==== Sys2Proof/Machine/ExecPower.lean ====
section
/-! DEFINITION. The meanings of the commands of family 01h, domains, wake and regulators. -/

namespace Sys2Proof.Machine

/-- The cell's wire watch comparator acts: above 1.1 times the continuous current of its wire model, where it has one (R133,
R213). -/
def wireWatch (n : Fin 96) (mA : Nat) (s : State) : Bool :=
  let iw := fld s.outs[n].cfg2 8 8 * 200
  iw ≠ 0 && decide (11 * iw < 10 * mA)

/-- PROTECTION_WAKE: which conducting units of a retained domain bring it back (R133); only cells have a wire watch. -/
def retainedTrip (u : UnitRef) (kind : TripKind) (mA : Nat) (s : State) : State :=
  let k := match kind with | .overCurrent => 1 | .thermal => 2 | .wire => 3
  match u with
  | .out n =>
    if conducting s.outs[n] && (k ≠ 3 || wireWatch (primary n s) mA s) then
      protectionWake (outRegion n).val (outDomain n) (cellPosition u) k s else s
  | .leg n =>
    let m := legModes s.brs[legBridge n]
    if (if n.val % 2 = 0 then m.1 else m.2) ≠ 0 && k ≠ 3 then protectionWake 4 10 (cellPosition u) k s else s
  | .vh g => if (s.vhs[g].st == .rising || s.vhs[g].st == .on) && k ≠ 3 then protectionWake 4 10 (cellPosition u) k s else s
  | .vl n => if (s.vls[n].st == .on || s.vls[n].st == .clamp) && k ≠ 3 then protectionWake 4 10 (cellPosition u) k s else s
  | .fq n => if fqGate s.io.fq[n] s.io.fld.supply && k ≠ 3 then protectionWake 5 12 (cellPosition u) k s else s
  | _ => s

/-- AO_CLOCK_TRIM: while the root runs (R28, Table 4-16). -/
def trimAo (trim : Int) (atLimit : Bool) (s : State) : State :=
  if s.dom.root then
    let s := { s with clk := { s.clk with aoTrim := trim } }
    if atLimit then stickReg 0b0010 s else s
  else s

/-- DOMAIN_SET (R135): Writes wake-on-access attributes and starts turn-ups then turn-downs of domains, checking refusal
reasons. -/
def execDomainSet (p : Packet) (s : State) : Host.Outcome State Fault Refusal := runPacket opDomainSet 0x0100 p s

/-- DOMAIN_SET_TURN (R135): Next domain of a DOMAIN_SET is checked and its transition started, at most one every 10 us or
after an earlier transition ends. -/
def execDomainSetTurn (s : State) : Host.Outcome State Fault Refusal :=
  run domainSetTurn s

/-- DOMAIN_SET_REPLY (R136): Reply to DOMAIN_SET is built once every started transition has completed. -/
def execDomainSetReply (s : State) : Host.Outcome State Fault Refusal :=
  run domainSetReply s

/-- REPLY_PATH_TURNDOWN (R137): Turn-down of reply-path domains starts 100 us after the DOMAIN_SET reply has left. -/
def execReplyPathTurndown (s : State) : Host.Outcome State Fault Refusal :=
  run replyPathTurndown s

/-- WAKE_CONFIG (R146): Enables or disables a wake detector and sets its wake set in the always-on section. -/
def execWakeConfig (p : Packet) (s : State) : Host.Outcome State Fault Refusal := runPacket opWakeConfig 0x0101 p s

/-- LAST_WAKE (R150): Returns the last-wake record. -/
def execLastWake (p : Packet) (s : State) : Host.Outcome State Fault Refusal := runPacket opLastWake 0x0102 p s

/-- TIMER_WAKE (R147): Arms or disarms the one-shot AO-clock wake timer and its wake set. -/
def execTimerWake (p : Packet) (s : State) : Host.Outcome State Fault Refusal := runPacket opTimerWake 0x0103 p s

/-- LP_BROWN_OUT (R155): The low-power regulator output stays below its threshold for 1 us, causing a cold bring-up. -/
def execLpBrownOut (s : State) : Host.Outcome State Fault Refusal :=
  run lpBrownOut s

/-- DOMAIN_TRANSITION_DONE (R129): A domain reaches its target state, with image save or restore, and stalled packets
resume. -/
def execDomainTransitionDone (dom : Fin 16) (s : State) : Host.Outcome State Fault Refusal :=
  run (domainTransitionDone dom) s

/-- INTERNAL_WAKE_RETURN (R142): After tIWH idle an internally woken domain returns to its former state, or stays on with
INT_HELD. -/
def execInternalWakeReturn (dom : Fin 16) (s : State) : Host.Outcome State Fault Refusal :=
  run (internalWakeReturn dom) s

/-- PROTECTION_WAKE (R133): A trip or wire watch in a retained domain turns the domain on. -/
def execProtectionWake (unit : UnitRef) (trip : WatchTrip) (s : State) : Host.Outcome State Fault Refusal :=
  run (retainedTrip unit trip.kind trip.currentMA) s

/-- WAKE_LAND_EDGE (R144): An edge on WAKE0 or WAKE1 held for 50 us fires detector 08h. -/
def execWakeLandEdge (land : Fin 2) (level : Bool) (heldNS : Nat) (s : State) : Host.Outcome State Fault Refusal :=
  run (wakeLandEdge land level heldNS) s

/-- TIMER_WAKE_EXPIRY (R147): The one-shot wake timer expires and fires detector 09h. -/
def execTimerWakeExpiry (s : State) : Host.Outcome State Fault Refusal :=
  run timerWakeExpiry s

/-- SCHEDULER_TIMER_FIRE (R152): The scheduler timer fires before the earliest T and restarts the root. -/
def execSchedulerTimerFire (s : State) : Host.Outcome State Fault Refusal :=
  run schedulerTimerFire s

/-- ENDPOINT_FRAME_WAKE (R141): A command frame to the endpoint while D00 is down wakes D00 or is discarded. -/
def execEndpointFrameWake (port : Fin 2) (mac : BitVec 48) (vlan : BitVec 12) (pcp : BitVec 3) (bytes : List Byte) (s : State) : Host.Outcome State Fault Refusal :=
  run (endpointFrameWake ⟨port, mac, vlan, pcp⟩ bytes) s

/-- LP_HANDOVER (R153): The low-power load reaches ILPS and the main regulator takes over. -/
def execLpHandover (loadUA : Nat) (caseDeciC : Int) (s : State) : Host.Outcome State Fault Refusal :=
  run (lpHandover loadUA caseDeciC) s

/-- LP_RELEASE (R153): The main regulator stops after the low-power load stayed below 1.2 mA for 100 ms. -/
def execLpRelease (loadUA : Nat) (s : State) : Host.Outcome State Fault Refusal :=
  run (lpRelease loadUA) s

/-- ROOT_RESTART_DONE (R151): Main regulator, crystal and PLL are running tRTS after a restart of the root. -/
def execRootRestartDone (s : State) : Host.Outcome State Fault Refusal :=
  run rootRestartDone s

/-- AO_CLOCK_TRIM (R28): While the root runs the AO clock is trimmed against the 1 MHz timebase, setting TRIM_LIMIT at
the end of its range. -/
def execAoClockTrim (trim : Int) (atLimit : Bool) (s : State) : Host.Outcome State Fault Refusal :=
  run (trimAo trim atLimit) s

end Sys2Proof.Machine
end

