-- ==== Sys2Proof/Machine/ExecTrellis.lean ====
section
/-! DEFINITION. The meanings of the commands of family 11h: the trellis. -/

namespace Sys2Proof.Machine

/-- TRELLIS_CONFIG (R546): Writes trellis topology, expected members and member timeout at the lead. -/
def execTrellisConfig (p : Packet) (s : State) : Host.Outcome State Fault Refusal := runPacket opTrellisConfig 0x1100 p s

/-- TRELLIS_FRAME_RECEIVED (R529): A trellis frame is checked, acknowledged, relayed or delivered. -/
def execTrellisFrameReceived (side : Fin 2) (bytes : List Byte) (s : State) : Host.Outcome State Fault Refusal :=
  run (trellisFrameReceived side bytes) s

/-- TRELLIS_RESEND (R529): An unacknowledged frame is sent again after tTRT. -/
def execTrellisResend (side : Fin 2) (s : State) : Host.Outcome State Fault Refusal :=
  run (trellisResend side) s

/-- TRELLIS_HEARTBEAT (R530): A side sends a heartbeat every tTHB while idle. -/
def execTrellisHeartbeat (side : Fin 2) (s : State) : Host.Outcome State Fault Refusal :=
  run (trellisHeartbeat side) s

/-- TRELLIS_SIDE_DOWN (R530): No valid frame for tTLD takes a side down and recomputes paths. -/
def execTrellisSideDown (side : Fin 2) (s : State) : Host.Outcome State Fault Refusal :=
  run (trellisSideDown side) s

/-- MEMBER_TIMER_EXPIRY (R535): A forwarded request's member timer expires and the host gets MEMBER_TIMEOUT. -/
def execMemberTimerExpiry (member : Fin 4) (tag : Half) (s : State) : Host.Outcome State Fault Refusal :=
  run (memberTimerExpiry member tag) s

/-- EXTEND_FRAME_SEND (R535): A member executing a forwarded packet sends an extend frame. -/
def execExtendFrameSend (s : State) : Host.Outcome State Fault Refusal :=
  run extendFrameSend s

/-- TIME_FRAME_SEND (R539): The lead sends a time frame every 1 ms. -/
def execTimeFrameSend (s : State) : Host.Outcome State Fault Refusal :=
  run timeFrameSend s

/-- TIME_FRAME_TIMEOUT (R539): No time frame for 3 ms puts a member into HOLDOVER. -/
def execTimeFrameTimeout (s : State) : Host.Outcome State Fault Refusal :=
  run timeFrameTimeout s

/-- MEMBER_WAKE_TIMEOUT (R541): A sleeping member not up within tTWK becomes unreachable. -/
def execMemberWakeTimeout (member : Fin 4) (s : State) : Host.Outcome State Fault Refusal :=
  run (memberWakeTimeout member) s

/-- TRELLIS_WAKE (R541): A trellis wake arrives on a side, is passed on within 5 us and fires wake detector 07h where
enabled. -/
def execTrellisWake (side : Fin 2) (s : State) : Host.Outcome State Fault Refusal :=
  run (trellisWake side) s

end Sys2Proof.Machine
end

