-- ==== Sys2Proof/Machine/Dispatch.lean ====
section
/-! DEFINITION. The meaning of each command: one arm per row of the operation table. -/

namespace Sys2Proof.Machine

def exec (i : Instr) (s : State) : Host.Outcome State Fault Refusal :=
  match i with
  | .nop p => Sys2Proof.Machine.execNop p s
  | .identify p => Sys2Proof.Machine.execIdentify p s
  | .readStatus p => Sys2Proof.Machine.execReadStatus p s
  | .clearStatus p => Sys2Proof.Machine.execClearStatus p s
  | .restart p => Sys2Proof.Machine.execRestart p s
  | .eventRoute p => Sys2Proof.Machine.execEventRoute p s
  | .eventMask p => Sys2Proof.Machine.execEventMask p s
  | .hostBind p => Sys2Proof.Machine.execHostBind p s
  | .hostRelease p => Sys2Proof.Machine.execHostRelease p s
  | .authPolicy p => Sys2Proof.Machine.execAuthPolicy p s
  | .schedCancel p => Sys2Proof.Machine.execSchedCancel p s
  | .hostSilence p => Sys2Proof.Machine.execHostSilence p s
  | .domainSet p => Sys2Proof.Machine.execDomainSet p s
  | .domainSetTurn => Sys2Proof.Machine.execDomainSetTurn s
  | .domainSetReply => Sys2Proof.Machine.execDomainSetReply s
  | .replyPathTurndown => Sys2Proof.Machine.execReplyPathTurndown s
  | .wakeConfig p => Sys2Proof.Machine.execWakeConfig p s
  | .lastWake p => Sys2Proof.Machine.execLastWake p s
  | .timerWake p => Sys2Proof.Machine.execTimerWake p s
  | .outSet p => Sys2Proof.Machine.execOutSet p s
  | .outConfig p => Sys2Proof.Machine.execOutConfig p s
  | .outRead p => Sys2Proof.Machine.execOutRead p s
  | .gangSet p => Sys2Proof.Machine.execGangSet p s
  | .outCas p => Sys2Proof.Machine.execOutCas p s
  | .protConfig p => Sys2Proof.Machine.execProtConfig p s
  | .latchClear p => Sys2Proof.Machine.execLatchClear p s
  | .envelopeLearn p => Sys2Proof.Machine.execEnvelopeLearn p s
  | .regionConfig p => Sys2Proof.Machine.execRegionConfig p s
  | .pruneClassSet p => Sys2Proof.Machine.execPruneClassSet p s
  | .moduleBudget p => Sys2Proof.Machine.execModuleBudget p s
  | .brMove p => Sys2Proof.Machine.execBrMove p s
  | .brConfig p => Sys2Proof.Machine.execBrConfig p s
  | .brRead p => Sys2Proof.Machine.execBrRead p s
  | .brClear p => Sys2Proof.Machine.execBrClear p s
  | .brPosition p => Sys2Proof.Machine.execBrPosition p s
  | .brLearn p => Sys2Proof.Machine.execBrLearn p s
  | .valveSet p => Sys2Proof.Machine.execValveSet p s
  | .valveConfig p => Sys2Proof.Machine.execValveConfig p s
  | .headerConfig p => Sys2Proof.Machine.execHeaderConfig p s
  | .valveRead p => Sys2Proof.Machine.execValveRead p s
  | .valveClear p => Sys2Proof.Machine.execValveClear p s
  | .valveExcl p => Sys2Proof.Machine.execValveExcl p s
  | .swConfig p => Sys2Proof.Machine.execSwConfig p s
  | .swRead p => Sys2Proof.Machine.execSwRead p s
  | .anConfig p => Sys2Proof.Machine.execAnConfig p s
  | .anRead p => Sys2Proof.Machine.execAnRead p s
  | .cyclicConfig p => Sys2Proof.Machine.execCyclicConfig p s
  | .fqSet p => Sys2Proof.Machine.execFqSet p s
  | .fieldConfig p => Sys2Proof.Machine.execFieldConfig p s
  | .fieldRead p => Sys2Proof.Machine.execFieldRead p s
  | .reflexWrite p => Sys2Proof.Machine.execReflexWrite p s
  | .reflexEnable p => Sys2Proof.Machine.execReflexEnable p s
  | .reflexRead p => Sys2Proof.Machine.execReflexRead p s
  | .portConfig p => Sys2Proof.Machine.execPortConfig p s
  | .vlanWrite p => Sys2Proof.Machine.execVlanWrite p s
  | .linSchedule p => Sys2Proof.Machine.execLinSchedule p s
  | .filterWrite p => Sys2Proof.Machine.execFilterWrite p s
  | .authChannel p => Sys2Proof.Machine.execAuthChannel p s
  | .frameSend p => Sys2Proof.Machine.execFrameSend p s
  | .frameSendTimeout channel => Sys2Proof.Machine.execFrameSendTimeout channel s
  | .timeRead p => Sys2Proof.Machine.execTimeRead p s
  | .timeConfig p => Sys2Proof.Machine.execTimeConfig p s
  | .timeSet p => Sys2Proof.Machine.execTimeSet p s
  | .wallSet p => Sys2Proof.Machine.execWallSet p s
  | .dormConfig p => Sys2Proof.Machine.execDormConfig p s
  | .dormNeed p => Sys2Proof.Machine.execDormNeed p s
  | .dormKeep p => Sys2Proof.Machine.execDormKeep p s
  | .dormWuf p => Sys2Proof.Machine.execDormWuf p s
  | .challenge p => Sys2Proof.Machine.execChallenge p s
  | .tpChallenge p => Sys2Proof.Machine.execTpChallenge p s
  | .accessConfig p => Sys2Proof.Machine.execAccessConfig p s
  | .tokenEnrol p => Sys2Proof.Machine.execTokenEnrol p s
  | .tokenLoad p => Sys2Proof.Machine.execTokenLoad p s
  | .tokenRemove p => Sys2Proof.Machine.execTokenRemove p s
  | .tokenRevoke p => Sys2Proof.Machine.execTokenRevoke p s
  | .proxVerdict p => Sys2Proof.Machine.execProxVerdict p s
  | .accessPoll p => Sys2Proof.Machine.execAccessPoll p s
  | .rootstockEstablish p => Sys2Proof.Machine.execRootstockEstablish p s
  | .rootstockInvalidate p => Sys2Proof.Machine.execRootstockInvalidate p s
  | .keyLoad p => Sys2Proof.Machine.execKeyLoad p s
  | .keyClear p => Sys2Proof.Machine.execKeyClear p s
  | .keyAttest p => Sys2Proof.Machine.execKeyAttest p s
  | .almanacWindow p => Sys2Proof.Machine.execAlmanacWindow p s
  | .almanacFlush p => Sys2Proof.Machine.execAlmanacFlush p s
  | .almanacConfig p => Sys2Proof.Machine.execAlmanacConfig p s
  | .almanacRate p => Sys2Proof.Machine.execAlmanacRate p s
  | .watchConfig p => Sys2Proof.Machine.execWatchConfig p s
  | .vaultClear p => Sys2Proof.Machine.execVaultClear p s
  | .faultInject p => Sys2Proof.Machine.execFaultInject p s
  | .faultClear p => Sys2Proof.Machine.execFaultClear p s
  | .trellisConfig p => Sys2Proof.Machine.execTrellisConfig p s
  | .planWrite p => Sys2Proof.Machine.execPlanWrite p s
  | .planCommit p => Sys2Proof.Machine.execPlanCommit p s
  | .mirrorRestore p => Sys2Proof.Machine.execMirrorRestore p s
  | .spiTransaction port bytes => Sys2Proof.Machine.execSpiTransaction port bytes s
  | .ethCommandFrame port mac vlan pcp bytes => Sys2Proof.Machine.execEthCommandFrame port mac vlan pcp bytes s
  | .packetAuthCheck => Sys2Proof.Machine.execPacketAuthCheck s
  | .chainNextAdmit host => Sys2Proof.Machine.execChainNextAdmit host s
  | .chainTimeout host => Sys2Proof.Machine.execChainTimeout host s
  | .queuedPacketExecute unit => Sys2Proof.Machine.execQueuedPacketExecute unit s
  | .scheduledStaging => Sys2Proof.Machine.execScheduledStaging s
  | .scheduledEffect => Sys2Proof.Machine.execScheduledEffect s
  | .replyCmacBuild => Sys2Proof.Machine.execReplyCmacBuild s
  | .ethOutgoingFrame host => Sys2Proof.Machine.execEthOutgoingFrame host s
  | .eventPacketBuild host => Sys2Proof.Machine.execEventPacketBuild host s
  | .hostLapse host => Sys2Proof.Machine.execHostLapse host s
  | .hostSilenceExpiry host => Sys2Proof.Machine.execHostSilenceExpiry host s
  | .restartBegin => Sys2Proof.Machine.execRestartBegin s
  | .powerOn vs6MV => Sys2Proof.Machine.execPowerOn vs6MV s
  | .vs6Undervoltage vs6MV => Sys2Proof.Machine.execVs6Undervoltage vs6MV s
  | .lpBrownOut => Sys2Proof.Machine.execLpBrownOut s
  | .resetNAssert => Sys2Proof.Machine.execResetNAssert s
  | .resetNRelease => Sys2Proof.Machine.execResetNRelease s
  | .alwaysOnStart => Sys2Proof.Machine.execAlwaysOnStart s
  | .pllLock straps => Sys2Proof.Machine.execPllLock straps s
  | .pllLockTimeout => Sys2Proof.Machine.execPllLockTimeout s
  | .nvCheck started => Sys2Proof.Machine.execNvCheck started s
  | .selfTest pass => Sys2Proof.Machine.execSelfTest pass s
  | .planPhase => Sys2Proof.Machine.execPlanPhase s
  | .planPacket => Sys2Proof.Machine.execPlanPacket s
  | .bringupReady => Sys2Proof.Machine.execBringupReady s
  | .warmRestart pass => Sys2Proof.Machine.execWarmRestart pass s
  | .warmReady => Sys2Proof.Machine.execWarmReady s
  | .domainTransitionDone dom => Sys2Proof.Machine.execDomainTransitionDone dom s
  | .internalWakeReturn dom => Sys2Proof.Machine.execInternalWakeReturn dom s
  | .protectionWake unit trip => Sys2Proof.Machine.execProtectionWake unit trip s
  | .wakeLandEdge land level heldNS => Sys2Proof.Machine.execWakeLandEdge land level heldNS s
  | .timerWakeExpiry => Sys2Proof.Machine.execTimerWakeExpiry s
  | .schedulerTimerFire => Sys2Proof.Machine.execSchedulerTimerFire s
  | .endpointFrameWake port mac vlan pcp bytes => Sys2Proof.Machine.execEndpointFrameWake port mac vlan pcp bytes s
  | .lpHandover loadUA caseDeciC => Sys2Proof.Machine.execLpHandover loadUA caseDeciC s
  | .lpRelease loadUA => Sys2Proof.Machine.execLpRelease loadUA s
  | .rootRestartDone => Sys2Proof.Machine.execRootRestartDone s
  | .tokenGrant region => Sys2Proof.Machine.execTokenGrant region s
  | .tokenAged region => Sys2Proof.Machine.execTokenAged region s
  | .cellRiseDone cell => Sys2Proof.Machine.execCellRiseDone cell s
  | .cellFallDone cell => Sys2Proof.Machine.execCellFallDone cell s
  | .cellDemagEntry cell voutMV => Sys2Proof.Machine.execCellDemagEntry cell voutMV s
  | .cellDemagEnd cell voutMV => Sys2Proof.Machine.execCellDemagEnd cell voutMV s
  | .pwmPeriodStart cell => Sys2Proof.Machine.execPwmPeriodStart cell s
  | .pwmOnPhaseEnd cell => Sys2Proof.Machine.execPwmOnPhaseEnd cell s
  | .pwmTokenRequest cell => Sys2Proof.Machine.execPwmTokenRequest cell s
  | .adcSlot block slot => Sys2Proof.Machine.execAdcSlot block slot s
  | .mirrorWrite unit => Sys2Proof.Machine.execMirrorWrite unit s
  | .overCurrentTrip cell currentMA => Sys2Proof.Machine.execOverCurrentTrip cell currentMA s
  | .envelopeTrip cell currentMA => Sys2Proof.Machine.execEnvelopeTrip cell currentMA s
  | .shortCircuitLimit cell currentMA => Sys2Proof.Machine.execShortCircuitLimit cell currentMA s
  | .thermalTrip cell tjC => Sys2Proof.Machine.execThermalTrip cell tjC s
  | .wireModelStep cell watchHigh => Sys2Proof.Machine.execWireModelStep cell watchHigh s
  | .envelopeEnd cell => Sys2Proof.Machine.execEnvelopeEnd cell s
  | .learnSpanEnd cell peaksMA => Sys2Proof.Machine.execLearnSpanEnd cell peaksMA s
  | .protectionRelease unit => Sys2Proof.Machine.execProtectionRelease unit s
  | .cleanPeriodReload unit => Sys2Proof.Machine.execCleanPeriodReload unit s
  | .supplyLevelSet region level vs => Sys2Proof.Machine.execSupplyLevelSet region level vs s
  | .supplyLevelClear region level vs => Sys2Proof.Machine.execSupplyLevelClear region level vs s
  | .undervoltageOff region vsMV => Sys2Proof.Machine.execUndervoltageOff region vsMV s
  | .undervoltageRestore region vs => Sys2Proof.Machine.execUndervoltageRestore region vs s
  | .thermalRound region deciC => Sys2Proof.Machine.execThermalRound region deciC s
  | .thermalLevelClear region level => Sys2Proof.Machine.execThermalLevelClear region level s
  | .dissipationEstimate region => Sys2Proof.Machine.execDissipationEstimate region s
  | .budgetStep region => Sys2Proof.Machine.execBudgetStep region s
  | .moduleBudgetStep ownMW => Sys2Proof.Machine.execModuleBudgetStep ownMW s
  | .restoreRelease region => Sys2Proof.Machine.execRestoreRelease region s
  | .legTrip leg kind currentMA tjC shortLimit => Sys2Proof.Machine.execLegTrip leg kind currentMA tjC shortLimit s
  | .ripplePulse bridge => Sys2Proof.Machine.execRipplePulse bridge s
  | .bridgeStartEnd bridge => Sys2Proof.Machine.execBridgeStartEnd bridge s
  | .motorStill bridge => Sys2Proof.Machine.execMotorStill bridge s
  | .brakeLimit bridge => Sys2Proof.Machine.execBrakeLimit bridge s
  | .bridgeStall bridge => Sys2Proof.Machine.execBridgeStall bridge s
  | .runLimit bridge => Sys2Proof.Machine.execRunLimit bridge s
  | .antiPinchCheck bridge filteredMA => Sys2Proof.Machine.execAntiPinchCheck bridge filteredMA s
  | .reversalDriveStart bridge => Sys2Proof.Machine.execReversalDriveStart bridge s
  | .bridgeClearRelease bridge => Sys2Proof.Machine.execBridgeClearRelease bridge s
  | .headerRiseDone group => Sys2Proof.Machine.execHeaderRiseDone group s
  | .clampEnd valve drainMV headerMV => Sys2Proof.Machine.execClampEnd valve drainMV headerMV s
  | .closureSample valve drainMV => Sys2Proof.Machine.execClosureSample valve drainMV s
  | .closureWindowEnd valve => Sys2Proof.Machine.execClosureWindowEnd valve s
  | .valveThermalTrip valve tjC => Sys2Proof.Machine.execValveThermalTrip valve tjC s
  | .headerTrip group kind currentMA tjC shortLimit => Sys2Proof.Machine.execHeaderTrip group kind currentMA tjC shortLimit s
  | .valveTokenReturn valve => Sys2Proof.Machine.execValveTokenReturn valve s
  | .valveClearRelease valve tjC => Sys2Proof.Machine.execValveClearRelease valve tjC s
  | .rakeSample mv => Sys2Proof.Machine.execRakeSample mv s
  | .cyclicPulse mv => Sys2Proof.Machine.execCyclicPulse mv s
  | .cyclicConfirm mv => Sys2Proof.Machine.execCyclicConfirm mv s
  | .analogConversion input code => Sys2Proof.Machine.execAnalogConversion input code s
  | .fieldSupplyChange mv => Sys2Proof.Machine.execFieldSupplyChange mv s
  | .fieldRedriveStart => Sys2Proof.Machine.execFieldRedriveStart s
  | .fieldRedriveStep => Sys2Proof.Machine.execFieldRedriveStep s
  | .fieldInputSample mv => Sys2Proof.Machine.execFieldInputSample mv s
  | .fieldOutputShutdown output tjC => Sys2Proof.Machine.execFieldOutputShutdown output tjC s
  | .fieldOutputRestart output tjC => Sys2Proof.Machine.execFieldOutputRestart output tjC s
  | .fieldCurrentLimit output limiting => Sys2Proof.Machine.execFieldCurrentLimit output limiting s
  | .faultStretchEnd output => Sys2Proof.Machine.execFaultStretchEnd output s
  | .reflexEvaluate => Sys2Proof.Machine.execReflexEvaluate s
  | .reflexTimerExpiry entry => Sys2Proof.Machine.execReflexTimerExpiry entry s
  | .proxWaitExpiry entry => Sys2Proof.Machine.execProxWaitExpiry entry s
  | .linkChange port link => Sys2Proof.Machine.execLinkChange port link s
  | .linkQualityUpdate port quality => Sys2Proof.Machine.execLinkQualityUpdate port quality s
  | .switchFrame port frame len fcsOk full => Sys2Proof.Machine.execSwitchFrame port frame len fcsOk full s
  | .macEntryAge mac vlan => Sys2Proof.Machine.execMacEntryAge mac vlan s
  | .pdelayRequest port answered delayNS => Sys2Proof.Machine.execPdelayRequest port answered delayNS s
  | .syncReceived port originNS correctionNS oneStep => Sys2Proof.Machine.execSyncReceived port originNS correctionNS oneStep s
  | .syncSend port => Sys2Proof.Machine.execSyncSend port s
  | .syncTimeout => Sys2Proof.Machine.execSyncTimeout s
  | .canFrameReceived channel frame => Sys2Proof.Machine.execCanFrameReceived channel frame s
  | .canFrameSent channel => Sys2Proof.Machine.execCanFrameSent channel s
  | .canBusOff channel => Sys2Proof.Machine.execCanBusOff channel s
  | .busOffRecovery channel => Sys2Proof.Machine.execBusOffRecovery channel s
  | .linSlotStart channel => Sys2Proof.Machine.execLinSlotStart channel s
  | .linFrameReceived channel data framingOk checksumOk => Sys2Proof.Machine.execLinFrameReceived channel data framingOk checksumOk s
  | .forwardPacketBuild host => Sys2Proof.Machine.execForwardPacketBuild host s
  | .keepAliveSend net => Sys2Proof.Machine.execKeepAliveSend net s
  | .idleTimeout net => Sys2Proof.Machine.execIdleTimeout net s
  | .holdEnd net => Sys2Proof.Machine.execHoldEnd net s
  | .prepareEnd net => Sys2Proof.Machine.execPrepareEnd net s
  | .sleepTransitionEnd net => Sys2Proof.Machine.execSleepTransitionEnd net s
  | .netWakeDetect net selective => Sys2Proof.Machine.execNetWakeDetect net selective s
  | .tc10SleepAccept port => Sys2Proof.Machine.execTc10SleepAccept port s
  | .tc10SleepTimeout port => Sys2Proof.Machine.execTc10SleepTimeout port s
  | .tc10SleepRequest port => Sys2Proof.Machine.execTc10SleepRequest port s
  | .linWakeWaitEnd channel => Sys2Proof.Machine.execLinWakeWaitEnd channel s
  | .needLeaseExpiry host => Sys2Proof.Machine.execNeedLeaseExpiry host s
  | .approachPoll => Sys2Proof.Machine.execApproachPoll s
  | .beaconReceived drivers => Sys2Proof.Machine.execBeaconReceived drivers s
  | .pollDayLimit => Sys2Proof.Machine.execPollDayLimit s
  | .tokenResponse slot bytes => Sys2Proof.Machine.execTokenResponse slot bytes s
  | .responseWindowEnd => Sys2Proof.Machine.execResponseWindowEnd s
  | .confirmationSent => Sys2Proof.Machine.execConfirmationSent s
  | .lfAntennaFault driver short peakMA => Sys2Proof.Machine.execLfAntennaFault driver short peakMA s
  | .tpVerdict answer => Sys2Proof.Machine.execTpVerdict answer s
  | .keyStoreCommit ok => Sys2Proof.Machine.execKeyStoreCommit ok s
  | .slotReloadDone => Sys2Proof.Machine.execSlotReloadDone s
  | .replayStateWrite slot => Sys2Proof.Machine.execReplayStateWrite slot s
  | .channelCounterWrite channel => Sys2Proof.Machine.execChannelCounterWrite channel s
  | .rateRefill code => Sys2Proof.Machine.execRateRefill code s
  | .flushTimer => Sys2Proof.Machine.execFlushTimer s
  | .flushStart => Sys2Proof.Machine.execFlushStart s
  | .flushEnd => Sys2Proof.Machine.execFlushEnd s
  | .powerFailWarning vs6MV => Sys2Proof.Machine.execPowerFailWarning vs6MV s
  | .fatalFault checker => Sys2Proof.Machine.execFatalFault checker s
  | .eccError place double => Sys2Proof.Machine.execEccError place double s
  | .supplyCrosscheckFault region diffMV => Sys2Proof.Machine.execSupplyCrosscheckFault region diffMV s
  | .supplyCrosscheckRecover region => Sys2Proof.Machine.execSupplyCrosscheckRecover region s
  | .entropyHealthFail => Sys2Proof.Machine.execEntropyHealthFail s
  | .injectionArm => Sys2Proof.Machine.execInjectionArm s
  | .injectionDurationEnd => Sys2Proof.Machine.execInjectionDurationEnd s
  | .trellisFrameReceived side bytes => Sys2Proof.Machine.execTrellisFrameReceived side bytes s
  | .trellisResend side => Sys2Proof.Machine.execTrellisResend side s
  | .trellisHeartbeat side => Sys2Proof.Machine.execTrellisHeartbeat side s
  | .trellisSideDown side => Sys2Proof.Machine.execTrellisSideDown side s
  | .memberTimerExpiry member tag => Sys2Proof.Machine.execMemberTimerExpiry member tag s
  | .extendFrameSend => Sys2Proof.Machine.execExtendFrameSend s
  | .timeFrameSend => Sys2Proof.Machine.execTimeFrameSend s
  | .timeFrameTimeout => Sys2Proof.Machine.execTimeFrameTimeout s
  | .memberWakeTimeout member => Sys2Proof.Machine.execMemberWakeTimeout member s
  | .junctionCooled cell tjC => Sys2Proof.Machine.execJunctionCooled cell tjC s
  | .headerOff group => Sys2Proof.Machine.execHeaderOff group s
  | .trellisWake side => Sys2Proof.Machine.execTrellisWake side s
  | .canBusError channel tec rec_ => Sys2Proof.Machine.execCanBusError channel tec rec_ s
  | .linResponseTimeout channel => Sys2Proof.Machine.execLinResponseTimeout channel s
  | .aoClockTrim trim atLimit => Sys2Proof.Machine.execAoClockTrim trim atLimit s
  | .fieldOutputFed output mv => Sys2Proof.Machine.execFieldOutputFed output mv s
  | .powerFailRecovery vs6MV => Sys2Proof.Machine.execPowerFailRecovery vs6MV s
  | .nvWriteDone => Sys2Proof.Machine.execNvWriteDone s
  | .transceiverSupplyChange vs5MV => Sys2Proof.Machine.execTransceiverSupplyChange vs5MV s

end Sys2Proof.Machine
end

