-- ==== Sys2Proof/Machine/Tick.lean ====
section
/-! DEFINITION. The passing of time: what the block does when no command waits. One tick is 1 us of the root's timebase (R27),
or one cycle of the AO clock while the root is stopped (R28, R151). Log entry 2. -/

namespace Sys2Proof.Machine

/-- The true length of an AO clock cycle in ns: within 0.5 % of the nominal one, the value free (R28, log entry 3). -/
def aoCycleNs (s : State) : Nat := 30365 + (Config.freeWord s.clk.free).toNat % 306

/-- One AO clock cycle, 1/32,768 s, in 1/64 ns. -/
def aoCycleUnits : Nat := 1953125

/-- What the AO clock counts in one tick, in 1/64 ns: one cycle while the root is stopped; in 1 us of the root's timebase an amount
within 0.5 %, the value free (R28, log entry 3). -/
def aoUnits (s : State) : Nat :=
  if s.dom.root then 63680 + (Config.freeWord s.clk.free).toNat % 641 else aoCycleUnits

/-- 1 us and one nominal AO clock cycle (1/32,768 s) in 2^-32 ns. -/
def rootStep : Int := 1000 * 4294967296
def aoStep : Int := 131072000000000

/-- Zone time advances by `d` units of 2^-32 ns (R366), and wall time with it once set (R373). -/
def advanceZone (d : Int) (s : State) : State :=
  let sum := d.toNat + s.zone.frac
  let ns := sum / 4294967296
  let z := { s.zone with time := (s.zone.time + ns) % 2 ^ 64, frac := sum % 4294967296 }
  let w := s.clk.wallFrac + ns
  let clk := if s.clk.wall == 0 then s.clk
    else { s.clk with wall := s.clk.wall + BitVec.ofNat 32 (w / Config.sec), wallFrac := w % Config.sec }
  { s with zone := z, clk := clk }

/-- The life counter in 4 us units (R150), from `u` 1/64 ns. -/
def advanceLife (u : Nat) (s : State) : State :=
  let f := s.clk.lifeFrac + u
  { s with clk := { s.clk with life := s.clk.life + BitVec.ofNat 48 (f / 256000), lifeFrac := f % 256000 } }

/-- The AO clock counts `u` 1/64 ns, and PARK_TIME with it while D00 is not on (R28, R425). -/
def advanceAo (u : Nat) (s : State) : State :=
  let f := s.clk.aoFrac + u
  { s with clk := { s.clk with ao := s.clk.ao + f / 64, aoFrac := f % 64 }
           acc := { s.acc with park := if domOn 0 s then s.acc.park else s.acc.park + f / 64 } }

/-- `ns` pass: the timebase, the time counted while D00 is on, and the time counted besides only while no warm restart runs
(R63, R88, R354). -/
def advanceClocks (ns : Nat) (s : State) : State :=
  let on := domOn 0 s
  let c := s.clk
  let d := if on then c.d00Clock + ns else c.d00Clock
  let m := if on && s.boot.condition ≠ 2 then c.cmdClock + ns else c.cmdClock
  { s with clk := { c with now := c.now + ns, d00Clock := d, cmdClock := m } }

/-- One tick. Without the always-on section only the model's timebase goes on. -/
def tick (s : State) : State :=
  if s.boot.phase < 2 then advanceClocks 1000 s
  else if s.dom.root then
    drew (advanceClocks 1000 (advanceAo (aoUnits s) (advanceLife 64000 (advanceZone (rootStep + s.zone.rate) s))))
  else
    drew (advanceClocks (aoCycleNs s) (advanceAo (aoUnits s) (advanceLife aoCycleUnits (advanceZone aoStep s))))

end Sys2Proof.Machine
end

