-- ==== Sys2Proof/Safety.lean ====
section
/-! DEFINITION. What claims speak of: the effect a command has of its own, the completion of a packet, the part of the state that
the end of a core cycle leaves alone, and the invariant of every step. -/

namespace Sys2Proof.Machine

/-! ### The effect of a command -/

/-- Command `c` answers a next state: its own effect gives `t`, of which `P` holds, and the rest of the core cycle follows. -/
def Effects (c : Instr) (s : State) (P : State → Prop) : Prop := ∃ t, exec c s = .next (conclude t) ∧ P t

/-- Command `c`, a packet row of opcode `op`, answers a next state: packet `p` has acted, giving `t`, and completes with answer `a`,
of which `P` holds. -/
def Answers (c : Instr) (op : Half) (p : Packet) (s : State) (P : Ans → State → Prop) : Prop :=
  ∃ q m a t, exec c s = .next (conclude (complete q a t m)) ∧ q.pkt = { p with opcode := op } ∧ P a t

/-- Command `c`, a packet row, answers a next state: its packet has acted, giving `t`, of which `P` holds, and its completion comes
with another row. -/
def Begins (c : Instr) (s : State) (P : QPkt → State → Prop) : Prop := ∃ q t, exec c s = .next (conclude t) ∧ P q t

/-- Packet `p` with opcode `op` can act at once in the queue of `u`: the engine runs, the packet is authenticated where its
opcode's owner always asks for it, no packet of that queue is executing, and the domains listed are on. -/
def AtHead (op : Half) (u : UnitRef) (ds : List (Fin 16)) (p : Packet) (s : State) : Prop :=
  engineRuns s = true ∧ (alwaysAuth op p.host = true → p.auth = true)
    ∧ (∀ w ∈ s.cmd.waiting, u ∈ w.todo → w.busy = false) ∧ ∀ d ∈ ds, domOn d s = true

/-- The domains one unit of a packet row needs. -/
def rowDoms (spec : OpSpec) (p : Packet) (u : UnitRef) : List (Fin 16) :=
  match u with
  | .chip => spec.doms p
  | _ => (unitDomain u).toList

/-- The state in which a packet acts differs from `s` by the packet's own place in the queues and by the idle times of the domains
it uses. -/
def Entered (s t : State) : Prop :=
  t = { s with cmd := t.cmd, dom := t.dom }
    ∧ t.cmd = { s.cmd with waiting := t.cmd.waiting, arrivals := s.cmd.arrivals + 1 }
    ∧ t.dom = { s.dom with dom := t.dom.dom }
    ∧ ∀ d : Fin 16, t.dom.dom[d] = { s.dom.dom[d] with idleSince := t.dom.dom[d].idleSince }

/-! ### What the end of a cycle leaves alone -/

/-- Outputs, bridges, valves, regions, inputs, networks, non-volatile memory, settings, and what waits for the arbiter of other
rows: the part of the state that no completion and no end of a core cycle changes. -/
structure Kept where
  outs    : Vector OutSt 96
  regs    : Vector RegSt 7
  prune   : Vector PruneSt 120
  modb    : ModSt
  brs     : Vector BrSt 8
  legs    : Vector LegSt 16
  vls     : Vector VlSt 16
  vhs     : Vector VhSt 4
  io      : IoSt
  adc     : Vector (List HeldRb) 25
  boot    : BootSt
  nv      : Memory
  net     : NetSts
  mask    : BitVec 256
  route   : Vector EvRoute 256
  policy  : Word
  wake    : Vector WakeCfg 96
  timerAt : Option Nat
  trlCfg  : Word
  accCfg  : Word
  almCfg  : Word
  fired   : List (Fin 128 × List Byte × Occ)
  frames  : List CmdFrame
  updates : List (KeyChange × QPkt)
  deriving DecidableEq, Repr

/-- The frames a row put on the wires are its own observation and are no part of it. -/
def State.kept (s : State) : Kept :=
  { outs := s.outs, regs := s.regs, prune := s.prune, modb := s.modb, brs := s.brs, legs := s.legs, vls := s.vls, vhs := s.vhs
    io := s.io, adc := s.adc, boot := s.boot, nv := s.nv, net := { s.net with swOut := [], canOut := [], linOut := [], wakeOut := [] }
    mask := s.ev.mask, route := s.ev.route, policy := s.cmd.authPolicy, wake := s.dom.wake, timerAt := s.dom.timerAt
    trlCfg := s.trl.cfg, accCfg := s.acc.cfg, almCfg := s.alm.cfg, fired := s.rfx.fired, frames := s.dom.frames
    updates := s.ks.updates }

/-- Nothing is left over from earlier rows: no fired reflex packet, no frame that waits for D00 or D14, no store update. -/
def Calm (s : State) : Prop := s.rfx.fired = [] ∧ s.dom.frames = [] ∧ s.net.authRx = [] ∧ s.ks.updates = []

/-! ### The invariant -/

/-- Between rows no record waits for the arbiter: those of a core cycle have gone to staging, to the intake or to the counts of
lost ones within it (R482). -/
def Settled (s : State) : Prop := s.alm.batch = []

/-! ### Packets of several units -/

/-- `t` differs from `s` by the places of packets in the queues and by the idle times of domains. -/
def Moved (s t : State) : Prop :=
  t = { s with cmd := { s.cmd with waiting := t.cmd.waiting, arrivals := t.cmd.arrivals }, dom := { s.dom with dom := t.dom.dom } }
    ∧ ∀ d : Fin 16, t.dom.dom[d] = { s.dom.dom[d] with idleSince := t.dom.dom[d].idleSince }

/-- The units have acted by `f` one after the other, each in the state the one before it left, with these results. -/
def Turns (f : QPkt → UnitRef → State → UnitRes × State) (p : Packet) : List UnitRef → List UnitRes → State → State → Prop
  | [], rs, s, t => rs = [] ∧ Moved s t
  | u :: us, rs, s, t => ∃ q s' rest, q.pkt = p ∧ q.late = false ∧ Moved s s' ∧ rs = (f q u s').1 :: rest ∧ Turns f p us rest (f q u s').2 t

/-- Acting on a unit leaves the queues alone and turns no domain that is on. -/
def KeepsQueues (f : QPkt → UnitRef → State → UnitRes × State) : Prop :=
  ∀ q u s, (f q u s).2.cmd.waiting = s.cmd.waiting ∧ ∀ d, domOn d s = true → domOn d (f q u s).2 = true

/-! ### Settings of one unit -/

/-- `t` is a state that `s` has entered, with `f` applied. -/
def Acted (s : State) (f : State → State) (t : State) : Prop := ∃ u, Entered (begin_ s) u ∧ t = f u

end Sys2Proof.Machine
end

