-- ==== Sys2Proof/WellFormed.lean ====
section
/-! DEFINITION. Which commands are well formed: a packet as its layout allows it (R39, R40, R43), and samples, frames and numbers
of the size the spec gives them. An ill-formed command still has a meaning; it stands for nothing the outside can send. -/

namespace Sys2Proof

/-- A packet that its 16 header bytes, execution time and CMAC can spell (R39, R40, R43): at most 1,024 payload bytes, 8 CMAC
bytes with AUTH and none without, KEY_SLOT FFh without AUTH, and reply and unsolicited bits clear. -/
def Packet.wellFormed (p : Packet) : Bool :=
  decide (p.payload.length ≤ 1024) && p.cmac.length == (if p.auth then 8 else 0)
    && (if p.auth then decide (p.keySlot.toNat < 64) else p.keySlot == 0xFF) && decide (p.opcode.toNat < 0x4000)

/-- A CAN frame: at most 8 data bytes, or 64 in a CAN FD frame of a length the DLC has; an 11-bit identifier unless extended
(R374). -/
def CanFrame.wellFormed (f : CanFrame) : Bool :=
  let n := f.data.length
  (decide (n ≤ 8) || (f.fd && [12, 16, 20, 24, 32, 48, 64].contains n)) && (f.ext || decide (f.id.toNat < 2048))
    && !(f.rtr && (f.fd || n != 0))

/-- An Ethernet frame: at most 1,500 payload bytes (R57). -/
def EthFrame.wellFormed (f : EthFrame) : Bool := decide (f.payload.length ≤ 1500)

/-- The opcode a packet row stands for, with its packet. -/
def Instr.packetRow (i : Instr) : Option (Half × Packet) :=
  match i with
  | .nop p => some (0x0000, p)
  | .identify p => some (0x0001, p)
  | .readStatus p => some (0x0002, p)
  | .clearStatus p => some (0x0003, p)
  | .restart p => some (0x0004, p)
  | .eventRoute p => some (0x0005, p)
  | .eventMask p => some (0x0006, p)
  | .hostBind p => some (0x0007, p)
  | .hostRelease p => some (0x0008, p)
  | .authPolicy p => some (0x0009, p)
  | .schedCancel p => some (0x000A, p)
  | .hostSilence p => some (0x000B, p)
  | .domainSet p => some (0x0100, p)
  | .wakeConfig p => some (0x0101, p)
  | .lastWake p => some (0x0102, p)
  | .timerWake p => some (0x0103, p)
  | .outSet p => some (0x0200, p)
  | .outConfig p => some (0x0201, p)
  | .outRead p => some (0x0202, p)
  | .gangSet p => some (0x0203, p)
  | .outCas p => some (0x0204, p)
  | .protConfig p => some (0x0300, p)
  | .latchClear p => some (0x0301, p)
  | .envelopeLearn p => some (0x0302, p)
  | .regionConfig p => some (0x0400, p)
  | .pruneClassSet p => some (0x0401, p)
  | .moduleBudget p => some (0x0402, p)
  | .brMove p => some (0x0500, p)
  | .brConfig p => some (0x0501, p)
  | .brRead p => some (0x0502, p)
  | .brClear p => some (0x0503, p)
  | .brPosition p => some (0x0504, p)
  | .brLearn p => some (0x0505, p)
  | .valveSet p => some (0x0600, p)
  | .valveConfig p => some (0x0601, p)
  | .headerConfig p => some (0x0602, p)
  | .valveRead p => some (0x0603, p)
  | .valveClear p => some (0x0604, p)
  | .valveExcl p => some (0x0605, p)
  | .swConfig p => some (0x0700, p)
  | .swRead p => some (0x0701, p)
  | .anConfig p => some (0x0702, p)
  | .anRead p => some (0x0703, p)
  | .cyclicConfig p => some (0x0704, p)
  | .fqSet p => some (0x0800, p)
  | .fieldConfig p => some (0x0801, p)
  | .fieldRead p => some (0x0802, p)
  | .reflexWrite p => some (0x0900, p)
  | .reflexEnable p => some (0x0901, p)
  | .reflexRead p => some (0x0902, p)
  | .portConfig p => some (0x0A00, p)
  | .vlanWrite p => some (0x0A01, p)
  | .linSchedule p => some (0x0A02, p)
  | .filterWrite p => some (0x0A03, p)
  | .authChannel p => some (0x0A04, p)
  | .frameSend p => some (0x0A05, p)
  | .timeRead p => some (0x0B00, p)
  | .timeConfig p => some (0x0B01, p)
  | .timeSet p => some (0x0B02, p)
  | .wallSet p => some (0x0B03, p)
  | .dormConfig p => some (0x0C00, p)
  | .dormNeed p => some (0x0C01, p)
  | .dormKeep p => some (0x0C02, p)
  | .dormWuf p => some (0x0C03, p)
  | .challenge p => some (0x0D00, p)
  | .tpChallenge p => some (0x0D01, p)
  | .accessConfig p => some (0x0D02, p)
  | .tokenEnrol p => some (0x0D03, p)
  | .tokenLoad p => some (0x0D04, p)
  | .tokenRemove p => some (0x0D05, p)
  | .tokenRevoke p => some (0x0D06, p)
  | .proxVerdict p => some (0x0D07, p)
  | .accessPoll p => some (0x0D08, p)
  | .rootstockEstablish p => some (0x0E00, p)
  | .rootstockInvalidate p => some (0x0E01, p)
  | .keyLoad p => some (0x0E02, p)
  | .keyClear p => some (0x0E03, p)
  | .keyAttest p => some (0x0E04, p)
  | .almanacWindow p => some (0x0F00, p)
  | .almanacFlush p => some (0x0F01, p)
  | .almanacConfig p => some (0x0F02, p)
  | .almanacRate p => some (0x0F03, p)
  | .watchConfig p => some (0x0F04, p)
  | .vaultClear p => some (0x0F05, p)
  | .faultInject p => some (0x1000, p)
  | .faultClear p => some (0x1001, p)
  | .trellisConfig p => some (0x1100, p)
  | .planWrite p => some (0x1200, p)
  | .planCommit p => some (0x1201, p)
  | .mirrorRestore p => some (0x1202, p)
  | _ => none

/-- What an event row brings has the size the spec gives it: 64 rake readings (R319), 16 field inputs (R330), ten envelope
windows (R208), a LIN response of at most 8 bytes (R377), a 12-bit code by its type. -/
def Instr.eventOk (i : Instr) : Bool :=
  match i with
  | .spiTransaction _ b => decide (b.length ≤ 4096)
  | .ethCommandFrame _ _ _ _ b => decide (b.length ≤ 1500)
  | .endpointFrameWake _ _ _ _ b => decide (b.length ≤ 1500)
  | .rakeSample mv => mv.length == 64
  | .cyclicPulse mv => mv.length == 64
  | .cyclicConfirm mv => mv.length == 64
  | .fieldInputSample mv => mv.length == 16
  | .learnSpanEnd _ l => l.length == 10
  | .switchFrame _ f _ _ _ => f.wellFormed
  | .canFrameReceived _ f => f.wellFormed
  | .linFrameReceived _ d _ _ => decide (d.length ≤ 8)
  | .linkChange _ l => l != 3
  | .macEntryAge m _ => !m.getLsbD 40
  | .trellisFrameReceived _ b => decide (b.length ≤ 1068)
  | .fatalFault c => c == 0x10 || c == 0x12 || c == 0x14 || c == 0x15
  | _ => true

def Instr.wellFormed (i : Instr) : Bool :=
  match i.packetRow with
  | some (op, p) => p.wellFormed && p.opcode == op
  | none => i.eventOk

end Sys2Proof
end

