-- ==== Sys2Proof/Certificates/Slice0/Obligations.lean ====
section
/-! DEFINITION. The statements for the provers. -/

open Sys2Proof Sys2Proof.Machine

/-- A step with a command at the front of the queue is `exec` of that command on the state with the queue's rest. -/
def Obligations.StepRunsFrontCommand : Prop :=
  ∀ (c : Instr) (rest : List Instr) (s : State), s.pending = c :: rest → step s = exec c { s with pending := rest }

/-- With an empty queue a step lets time pass: the model's choice (log entry 2). The timebase goes on and the kept part of the state stays. Every command completes with a next state, in every state and with any operands (log entry 1): the spec has no command that stops the block. -/
def Obligations.IdleQueueTicks : Prop :=
  (∀ s : State, s.pending = [] →
    step s = .next (tick s) ∧ (tick s).pending = [] ∧ s.clk.now < (tick s).clk.now ∧ (tick s).kept = s.kept)
  ∧ ∀ (c : Instr) (s : State), ∃ t, exec c s = .next (conclude t)

/-- What follows a command within its core cycle (`conclude`) leaves the kept part of the state alone, when nothing is left over from earlier rows: the facts that other statements give of the kept part hold of the next state itself. -/
def Obligations.EndOfCycleKeeps : Prop :=
  ∀ s : State, Calm s → (conclude s).kept = s.kept

/-- Every step keeps the invariant that no record of a core cycle is left over when the cycle ends: all have been admitted, put into the intake, or counted as lost (R482). -/
def Obligations.SettledEveryStep : Prop :=
  ∀ s t : State, Settled s → step s = .next t → Settled t

/-- The invariant holds at reset. -/
def Obligations.SettledAtReset : Prop :=
  Settled State.reset

/-- Encoding and parsing a packet agree (R39 to R44): every well-formed packet's bytes pass the header check, name their own length, set no reserved bit and parse to the packet. -/
def Obligations.PacketRoundTrip : Prop :=
  ∀ p : Packet, p.wellFormed = true →
    let b := packetBytes p false
    headerFail b = none ∧ packetLen b = b.length ∧ headerReserved b = false ∧ parsePacket p.host b = p

/-- Building and reading a trellis frame agree (R528): every field and the body come back, and the CRC-32 is accepted. -/
def Obligations.TrellisFrameRoundTrip : Prop :=
  ∀ (type dest src host : Nat) (seq ack : Byte) (fatal : Bool) (body : List Byte),
    type < 256 → dest < 16 → src < 16 → host < 16 → body.length ≤ 1056 →
    readFrame (trlBytes type dest src seq ack fatal host body)
      = some { type := type, dest := dest, src := src, seq := seq, ack := ack, fatal := fatal, host := host, body := body }

/-- The check values of R44 and R45 over the ASCII digits 1 to 9. -/
def Obligations.CheckCodes : Prop :=
  crc16 ((List.range 9).map fun i => BitVec.ofNat 8 (0x31 + i)) = 0x29B1
    ∧ crc32 ((List.range 9).map fun i => BitVec.ofNat 8 (0x31 + i)) = 0xCBF43926

/-- NOP and IDENTIFY (R82, Table 2-9) and LAST_WAKE (R150): status OK, the data of their tables, and no effect. -/
def Obligations.BasicPackets : Prop :=
  ∀ (p : Packet) (s : State), p.payload = [] →
    (AtHead 0x0000 .chip [] p s → Answers (.nop p) 0x0000 p s fun a t => a = .ok ∧ Entered (begin_ s) t)
    ∧ (AtHead 0x0001 .chip [] p s → Answers (.identify p) 0x0001 p s fun a t =>
        Entered (begin_ s) t ∧ a.code = 0 ∧ a.detail = 0
          ∧ a.data.take 18 = be 2 Config.partCode.toNat ++ [Config.stepping, Config.romVersion] ++ be 8 Config.serial.toNat
              ++ be 6 Config.endpointMac.toNat
          ∧ a.data.length = 32 ∧ slice a.data 24 8 = be 8 s.zone.time)
    ∧ (AtHead 0x0102 .chip [] p s → Answers (.lastWake p) 0x0102 p s fun a t =>
        Entered (begin_ s) t ∧ a.code = 0
          ∧ a.data = [s.dom.lastWake.source, s.dom.lastWake.index] ++ be 2 s.dom.lastWake.count.toNat
              ++ be 6 s.dom.lastWake.life.toNat ++ be 2 s.dom.lastWake.domains.toNat
              ++ be 1 (if s.dom.lastWake.duringDown then 1 else 0) ++ [s.dom.lastWake.concurrent] ++ be 2 0)

/-- READ_STATUS and CLEAR_STATUS (R83, R84) on words of one unit: an echo, the words in order as they were, then for CLEAR_STATUS the clearing of each; and what clearing word 0000h (Table 2-15) does. -/
def Obligations.StatusPackets : Prop :=
  (∀ (p : Packet) (s : State) (u : UnitRef), statusRange p.payload = true → zeroAt [5] p.payload = true →
    statusUnits p (begin_ s) = [u] → AtHead 0x0002 u (rowDoms opReadStatus p u) p s →
    let id := numAt p.payload 0 2
    let words (t : State) : List Byte :=
      p.payload.take 6 ++ ((statusIndices p.payload).map fun i => be 4 (readWord id i t).toNat).flatten
    (p.payload.length = 6 → Answers (.readStatus p) 0x0002 p s fun a t => Entered (begin_ s) t ∧ a = .ok (words t))
    ∧ (p.payload.length = 10 → Answers (.clearStatus p) 0x0003 p s fun a t => ∃ t0, Entered (begin_ s) t0
        ∧ a = .ok (words t0)
        ∧ t = (statusIndices p.payload).foldl (fun s i => clearWord id i (wordAt p.payload 6) s) t0))
  ∧ (∀ (mask : Word) (s : State),
    clearWord 0x0000 0 mask s = { s with cmd := { s.cmd with sticky := s.cmd.sticky &&& ~~~(mask.setWidth 12) } })

/-- EVENT_ROUTE (R82, Table 2-11) and EVENT_MASK (R86, Table 2-12): the routes of the range and the mask by OP; nothing else changes. A masked event is not recorded as pending and is sent to no host (R86); an enabled one sets its own pending bit and no other (R91). -/
def Obligations.EventSettings : Prop :=
  (∀ (p : Packet) (s : State),
    (let n := numAt p.payload 1 1
     let first := numAt p.payload 0 1
     p.payload.length = 4 + 4 * n → 1 ≤ n → first + n ≤ 256 → routeRes p.payload = true → AtHead 0x0005 .chip [] p s →
      Answers (.eventRoute p) 0x0005 p s fun a t => a = .ok ∧ (∃ u, Entered (begin_ s) u ∧ ∃ r, t = { u with ev := { u.ev with route := r } })
        ∧ ∀ e : Fin 256, t.ev.route[e]
            = if first ≤ e.val ∧ e.val < first + n then routeAt p.payload (e.val - first) else s.ev.route[e])
    ∧ (let m : BitVec 256 := BitVec.ofNat 256 (numAt p.payload 2 32)
       let new : BitVec 256 := match numAt p.payload 0 1 with
         | 0 => m
         | 1 => s.ev.mask ||| m
         | 2 => s.ev.mask &&& ~~~m
         | _ => s.ev.mask
       p.payload.length = 34 → numAt p.payload 0 1 ≤ 3 → zeroAt [1] p.payload = true → AtHead 0x0006 .chip [] p s →
        Answers (.eventMask p) 0x0006 p s fun a t => a = .ok (be 32 new.toNat)
          ∧ Acted s (fun u => { u with ev := { u.ev with mask := new } }) t))
  ∧ (∀ (e : Nat) (s : State), domOn 0 s = true → ready s = true → e < 256 →
    (s.ev.mask.getLsbD e = false → raiseEv e s = s)
    ∧ (s.ev.mask.getLsbD e = true → ∀ k, (raiseEv e s).ev.pending.getLsbD k = (s.ev.pending.getLsbD k || decide (k = e))))

/-- Event 236 (R93): raised exactly when a sticky bit of word 0000h sets from 0 to 1; seen by its pending bit (R91), with D00 on and ready reached (R596). -/
def Obligations.EngineEvent : Prop :=
  ∀ (m : BitVec 12) (s : State), domOn 0 s = true → ready s = true → s.ev.mask.getLsbD 236 = true →
    let t := stickCmd m s
    t.cmd.sticky = s.cmd.sticky ||| m
    ∧ ((∃ i, m.getLsbD i = true ∧ s.cmd.sticky.getLsbD i = false) → t.ev.pending.getLsbD 236 = true)
    ∧ ((∀ i, m.getLsbD i = true → s.cmd.sticky.getLsbD i = true) → t.ev = s.ev)

/-- HOST_BIND and HOST_RELEASE (R87), HOST_SILENCE (R88), AUTH_POLICY (R65) and RESTART (R85). -/
def Obligations.HostSettings : Prop :=
  ∀ (p : Packet) (s : State),
    let b := p.payload
    (b.length = 12 → (onlyBits 2 0x0F b && zeroAt [10, 11] b) = true → ethHost (numAt b 0 1) = true → numAt b 1 1 ≤ 1 →
      s.boot.member = 0 → AtHead 0x0007 .chip [] p s →
      Answers (.hostBind p) 0x0007 p s fun a t => a = .ok ∧ ∀ h : Fin 14,
        (h.val = numAt b 0 1 → t.hosts[h].reg
          = some ⟨BitVec.ofNat 48 (numAt b 4 6), BitVec.ofNat 12 (numAt b 2 2), Fin.ofNat 2 (numAt b 1 1), true⟩)
        ∧ (h.val ≠ numAt b 0 1 → holdsPair (BitVec.ofNat 48 (numAt b 4 6)) (BitVec.ofNat 12 (numAt b 2 2)) t.hosts[h] = false))
    ∧ (b.length = 4 → zeroAt [1, 2, 3] b = true → ethHost (numAt b 0 1) = true → AtHead 0x0008 .chip [] p s →
      Answers (.hostRelease p) 0x0008 p s fun a t => ∀ h : Fin 14, h.val = numAt b 0 1 →
        (s.hosts[h].reg.isSome = true → a = .ok ∧ t.hosts[h].reg = none ∧ ∀ e : Fin 256, t.ev.route[e].hosts.getLsbD h.val = false)
        ∧ (s.hosts[h].reg = none → a = .err stHostUnknown ∧ Entered (begin_ s) t))
    ∧ (b.length = 4 → zeroAt [1] b = true → numAt b 0 1 ≤ 9 → AtHead 0x000B .chip [] p s →
      Answers (.hostSilence p) 0x000B p s fun a t => a = .ok ∧ Acted s (modHost (Fin.ofNat 14 (numAt b 0 1)) fun x =>
        { x with silence := numAt b 2 2
                 silenceAt := if numAt b 2 2 = 0 then none else some (s.clk.cmdClock + numAt b 2 2 * 10000000) }) t)
    ∧ (b.length = 4 → (zeroAt [0] b && onlyBits 1 0x07 b) = true → AtHead 0x0009 .chip [] p s →
      Answers (.authPolicy p) 0x0009 p s fun a t => a = .ok (be 4 (wordAt b 0).toNat)
        ∧ Acted s (modCmd fun c => { c with authPolicy := wordAt b 0 }) t)
    ∧ (b.length = 4 → (zeroAt [0, 1, 2] b && onlyBits 3 1 b) = true → p.host ≠ 12 → AtHead 0x0004 .chip [] p s →
      Answers (.restart p) 0x0004 p s fun a t => a = .ok ∧ ∃ w at_, Acted s (modCmd fun c =>
          { c with restart := some ⟨(byteAt b 3).getLsbD 0, w, at_⟩ }) t
        ∧ (w = (p.replyWanted && takesReply p.host)) ∧ (w = false → at_ = some (s.clk.now + 100000)))

/-- SCHED_CANCEL (R81), the whole rule: the scheduled packets that match leave the scheduler and complete with TIME_STEPPED and detail 1 (their reply follows `ReplyRule`), what has been staged is not cancelled, and the answer counts them. -/
def Obligations.SchedCancel : Prop :=
  ∀ (p : Packet) (s : State), p.payload.length = 4 → numAt p.payload 0 1 ≤ 13 → numAt p.payload 1 1 ≤ 1 →
    AtHead 0x000A .chip [] p s →
    let out := s.cmd.sched.filter (cancelled p.payload)
    Answers (.schedCancel p) 0x000A p s fun a t =>
      a = .ok (be 2 0 ++ be 2 out.length)
        ∧ t.cmd.sched = s.cmd.sched.filter (fun q => !cancelled p.payload q)
        ∧ (∃ u, Entered (begin_ s) u ∧ t = out.foldl (fun v q => complete q (.err stTimeStepped 1) v)
            { u with cmd := { u.cmd with sched := s.cmd.sched.filter fun q => !cancelled p.payload q } })
        ∧ ∀ w ∈ s.cmd.waiting, w.seq ≠ s.cmd.arrivals → (∀ q ∈ s.cmd.sched, q.seq ≠ w.seq) → w ∈ t.cmd.waiting

/-- What a reply is and when it is sent (R47, R48): only to a request with REPLY_WANTED, to the request's host, with the request's TAG, PRIORITY and HOST_SEQ, the opcode with bit 15 set, and status, detail and data as payload. -/
def Obligations.ReplyRule : Prop :=
  ∀ (q : QPkt) (code detail : Half) (data : List Byte) (m : ReplyMark) (s : State),
    (q.pkt.replyWanted = false → sendReply q code detail data none m s = s)
    ∧ ∀ h : Fin 14, h.val < 2 → q.pkt.host.val = h.val → q.pkt.replyWanted = true → q.authOk = false →
        s.hosts[h].out.length < 64 → q.pkt.opcode.toNat < 0x8000 → data.length ≤ 1020 →
        ∃ b, sendReply q code detail data none m s
            = modHost h (fun x => { x with out := x.out ++ [⟨0, b, q.pcp, s.clk.now, m⟩] }) s
          ∧ headerFail b = none ∧ halfAt b 2 = q.pkt.opcode ||| 0x8000 ∧ halfAt b 4 = q.pkt.tag ∧ wordAt b 8 = q.pkt.hostSeq
          ∧ numAt b 1 1 = 16 * s.boot.member.toNat + 4 * q.pkt.prio.toNat ∧ numAt b 13 1 = h.val
          ∧ b.drop 16 = be 2 code.toNat ++ be 2 detail.toNat ++ data

/-- PLAN_WRITE (R122), PLAN_COMMIT (R123) and MIRROR_RESTORE (R119, R120) where they complete. What MIRROR_RESTORE counts for a refused unit is the model's choice (log entry 42). -/
def Obligations.PlanPackets : Prop :=
  ∀ (p : Packet) (s : State),
    (let b := p.payload
     let base := planBase s.plan.targetB
     9 ≤ b.length → b.length ≤ 1024 → zeroAt [4, 5, 6, 7] b = true → p.host ≠ 12 → numAt b 0 4 + (b.length - 8) ≤ 0x60000 →
      (64 ≤ numAt b 0 4 ∨ numAt b 0 4 + (b.length - 8) ≤ 60) → AtHead 0x1200 .chip [] p s →
      Begins (.planWrite p) s fun q t => q.pkt = { p with opcode := 0x1200 }
        ∧ t.alm.writes = s.alm.writes ++ [⟨6, base + 60, be 4 0, 0, none⟩, ⟨6, base + numAt b 0 4, b.drop 8, 0, some q⟩]
        ∧ t.kept = s.kept)
    ∧ (p.payload.length = 4 → zeroAt [0, 1, 2, 3] p.payload = true → p.host ≠ 12 → s.ks.reload = false →
      commitCheck (readPlan s.plan.targetB s.nv) s = none → AtHead 0x1201 .chip [14, 15] p s →
      Begins (.planCommit p) s fun q t => q.pkt = { p with opcode := 0x1201 }
        ∧ t.alm.writes = s.alm.writes ++ [⟨6, planBase s.plan.targetB + 60, be 4 0x434D4954, 0, some q⟩] ∧ t.kept = s.kept)
    ∧ (p.payload.length = 4 → zeroAt [0, 1, 2, 3] p.payload = true → p.host ≠ 12 → s.ks.reload = false →
      ∀ e, commitCheck (readPlan s.plan.targetB s.nv) s = some e → AtHead 0x1201 .chip [14, 15] p s →
      Answers (.planCommit p) 0x1201 p s fun a t => a = .err e ∧ t.kept = s.kept ∧ t.plan.sticky.getLsbD 0 = true)
    ∧ (p.payload.length = 20 → (onlyBits 17 0x0F p.payload && zeroAt [18, 19] p.payload) = true →
      (4 ≤ s.boot.lastCause ∨ ((byteAt p.payload 17).toNat % 16).testBit s.boot.lastCause = false) →
      AtHead 0x1202 .chip [15] p s → Answers (.mirrorRestore p) 0x1202 p s fun a t => a = .ok ∧ Entered (begin_ s) t)
    ∧ (p.payload.length = 20 → (onlyBits 17 0x0F p.payload && zeroAt [18, 19] p.payload) = true →
      s.boot.lastCause < 4 → ((byteAt p.payload 17).toNat % 16).testBit s.boot.lastCause = true → AtHead 0x1202 .chip [15] p s →
      Answers (.mirrorRestore p) 0x1202 p s fun a t => ∃ u, Entered (begin_ s) u
        ∧ (let r := (restoreUnits p.payload).foldl restoreStep (u, 0, 0)
           a = ⟨0, BitVec.ofNat 16 r.2.1, []⟩ ∧ t.outs = r.1.outs ∧ t.vls = r.1.vls ∧ t.brs = r.1.brs ∧ t.io = r.1.io
             ∧ (r.2.2 ≠ 0 → t.plan.sticky.getLsbD 2 = true))
        ∧ ((∀ v ∈ restoreUnits p.payload, mirrorState v s = none) → a = .ok ∧ t.kept = s.kept))

/-- SPI_TRANSACTION (R50, R51, R55) and ETH_COMMAND_FRAME (R57, R58, R61): a packet with correct check codes reaches the checks of Table 2-7 with every field as it was sent. That the outgoing packet leaves before the incoming one is judged is the model's reading (log entry 35). -/
def Obligations.PortsTakePackets : Prop :=
  ∀ (p : Packet) (s : State), p.wellFormed = true → s.cmd.restart = none →
    (∀ k : Fin 2, p.host.val = k.val → spiMode s = .live → s.hosts[(Fin.ofNat 14 k.val : Fin 14)].out = [] →
      let b := withTrailer (packetBytes p false)
      Effects (.spiTransaction k b) s fun t =>
        t = arrive p none false false (hostSeen (Fin.ofNat 14 k.val) none
          (modCmd (fun c => { c with lastOut := List.replicate b.length 0xFF }) (begin_ s))))
    ∧ (∀ src : EthSrc, ∀ h : Fin 14, p.host.val = h.val → sourceHost src s = some h → portPasses src.port s = true →
      domOn 0 s = true → s.boot.member = 0 → ready s = true → s.boot.condition = 0 →
      Effects (.ethCommandFrame src.port src.mac src.vlan src.pcp (packetBytes p false)) s fun t =>
        t = arrive p (some src) false false (hostSeen h (some src.port) (begin_ s)))

/-- PACKET_AUTH_CHECK (R66 to R68), CHAIN_NEXT_ADMIT (R74), SCHEDULED_STAGING and SCHEDULED_EFFECT (R75, R76) and QUEUED_PACKET_EXECUTE (R70, R72); a row runs the head of its queue as its turn comes (log entry 7). -/
def Obligations.ArrivedPacketsGoOn : Prop :=
  ∀ s : State, engineRuns s = true →
    (∀ q rest, s.cmd.authWait = q :: rest → q.pkt.auth = true → cryptoReady s = true →
      let k : Fin 64 := Fin.ofNat 64 q.pkt.keySlot.toNat
      let x := s.ks.slots[k]
      x.st = .loaded → x.attr.getLsbD (authAttr q.pkt.opcode) = true → x.seqS ≠ 0xFFFFFFFF → q.pkt.hostSeq ≠ 0xFFFFFFFF →
      Crypto.cmac8 x.key (cmacMessage q.pkt) = q.pkt.cmac → replayOk x q.pkt.hostSeq = true →
      Effects .packetAuthCheck s fun t => t = chainStep { q with authOk := true }
        (acceptSeq k q.pkt.hostSeq (touch 14 (modCmd (fun c => { c with authWait := rest }) (begin_ s)))))
    ∧ (∀ q rest, s.cmd.authWait = q :: rest → q.pkt.auth = false → cryptoReady s = true →
      Effects .packetAuthCheck s fun t => t = plainStep q (modCmd (fun c => { c with authWait := rest }) (begin_ s)))
    ∧ (s.cmd.authWait = [] → Effects .packetAuthCheck s fun t => t = begin_ s)
    ∧ (∀ (h : Fin 14) r q rest,
      s.cmd.chains.find? (fun r => r.host.val = h.val && r.prev.isSome && !r.waiting.isEmpty) = some r → r.waiting = q :: rest →
      Effects (.chainNextAdmit h) s fun t =>
        t = admitPkt q r.sched (modRun r.id (fun r => { r with prev := none, waiting := rest }) (begin_ s)))
    ∧ Effects .scheduledStaging s (fun t =>
        match firstQ ((s.cmd.sched.filter fun q => decide (q.effect.getD 0 ≤ s.zone.time + 50000)).map fun q =>
          { q with staged := true }) with
        | some q => t = stage q (begin_ s)
        | none => t = begin_ s)
    ∧ (∀ u q spec, queueHead u s = some q → opSpec q.pkt.opcode = some spec → effectDue q s = true →
      Effects (.queuedPacketExecute u) s fun t => t = runPart spec q u (begin_ s))
    ∧ (s.cmd.waiting.filter (fun q => q.staged && q.effect.isSome) = [] → Effects .scheduledEffect s fun t => t = begin_ s)
    ∧ (∀ u q spec, s.cmd.waiting.filter (fun q => q.staged && q.effect.isSome) = [q] → q.todo = [u] → queueHead u s = some q →
      opSpec q.pkt.opcode = some spec → effectDue q s = true →
      Effects .scheduledEffect s fun t => t = runPart spec q u (begin_ s))

/-- REPLY_CMAC_BUILD (R47), ETH_OUTGOING_FRAME (R59) and EVENT_PACKET_BUILD (R95 to R97). That frames leave whatever the link state is the model's reading (log entry 35). -/
def Obligations.PacketsLeave : Prop :=
  ∀ s : State,
    (∀ r rest, s.cmd.replyWait = r :: rest → cryptoReady s = true → s.ks.slots[r.slot].st = .loaded →
      ∀ h : Fin 14, r.pkt.host.val = h.val → h.val < 2 → s.hosts[h].out.length < 64 →
      Effects .replyCmacBuild s fun t => t.cmd.replyWait = rest ∧ ∃ x : Packet, x.auth = true
        ∧ x.keySlot.toNat = r.slot.val ∧ x.cmac = Crypto.cmac8 s.ks.slots[r.slot].key (cmacMessage { x with cmac := r.pkt.cmac })
        ∧ x.tag = r.pkt.tag ∧ x.opcode = r.pkt.opcode ∧ x.payload = r.pkt.payload
        ∧ t.hosts[h].out = s.hosts[h].out ++ [⟨0, packetBytes x, r.pcp, s.clk.now, r.mark⟩])
    ∧ (∀ (h : Fin 14) r o, s.hosts[h].reg = some r → s.hosts[h].out = [o] → o.bytes.length ≤ 1500 → o.mark = .none →
      domOn (portDomain r.port) s = true → portShut r.port s = false → domOn 0 s = true →
      Effects (.ethOutgoingFrame h) s fun t => t.hosts[h].out = []
        ∧ t.net.swOut = [(Fin.ofNat 3 r.port.val, o.pcp.toNat / 2, endpointFrame r.mac r.vlan o.pcp o.bytes)])
    ∧ (∀ (h : Fin 10) t0, domOn 0 s = true → ready s = true → s.ev.ebw[h] = some t0 → t0 + 20000 ≤ s.clk.now →
      s.ev.entries[h] ≠ [] → s.ev.entries[h].length ≤ 85 → s.hosts[(Fin.ofNat 14 h.val : Fin 14)].out.length < 64 →
      h.val < 2 → Effects (.eventPacketBuild h) s fun t => t.ev.entries[h] = [] ∧ t.ev.ebw[h] = none
        ∧ t.hosts[(Fin.ofNat 14 h.val : Fin 14)].out = s.hosts[(Fin.ofNat 14 h.val : Fin 14)].out
            ++ [⟨2, eventPacket h s.ev.entries[h] s, entriesPcp s.ev.entries[h] s, s.clk.now, .none⟩])

/-- HOST_LAPSE (R63), HOST_SILENCE_EXPIRY (R88) and CHAIN_TIMEOUT (R74), each with the case in which its time has not come. -/
def Obligations.HostTimers : Prop :=
  ∀ (h : Fin 14) (s : State),
    (∀ r, s.hosts[h].reg = some r → r.bound = false → s.hosts[h].lapseAt ≤ s.clk.cmdClock →
      Effects (.hostLapse h) s fun t => t.hosts[h].reg = none ∧ t.hosts[h].lapsed = true ∧ t.outs = s.outs ∧ t.io = s.io)
    ∧ ((s.hosts[h].reg.any (fun r => !r.bound) = false ∨ s.clk.cmdClock < s.hosts[h].lapseAt) →
      Effects (.hostLapse h) s fun t => t = begin_ s)
    ∧ (∀ t0, s.hosts[h].silenceAt = some t0 →
      (t0 ≤ s.clk.cmdClock → Effects (.hostSilenceExpiry h) s fun t => t.kept = s.kept
        ∧ ∀ k : Fin 14, t.hosts[k] = if k = h then { s.hosts[h] with silent := true, silenceAt := none } else s.hosts[k])
      ∧ (s.clk.cmdClock < t0 → Effects (.hostSilenceExpiry h) s fun t => t = begin_ s))
    ∧ (s.hosts[h].chain.open_ = true →
      (s.hosts[h].chain.lastAt + 10000000 ≤ s.clk.now → Effects (.chainTimeout h) s fun t => t.kept = s.kept
        ∧ t.hosts[h].chain.open_ = false ∧ t.hosts[h].chain.broken = true ∧ t.cmd.sticky.getLsbD 7 = true)
      ∧ (s.clk.now < s.hosts[h].chain.lastAt + 10000000 → Effects (.chainTimeout h) s fun t => t = begin_ s))

/-- Start causes and the first phases of bring-up (R98 to R103, R155, Tables 3-1 to 3-3): outputs off, domains off, queues empty, and the phase each cause starts at; reset values without a rule are the model's (log entries 5 and 34). -/
def Obligations.ColdStarts : Prop :=
  ∀ s : State,
    let cold (t : State) : Prop := (∀ n : Fin 96, t.outs[n] = { State.reset.outs[n] with offSince := t.outs[n].offSince }) ∧ t.brs = State.reset.brs ∧ t.vls = State.reset.vls
      ∧ t.vhs = State.reset.vhs ∧ t.cmd.waiting = [] ∧ t.cmd.sched = [] ∧ t.cmd.ready = false ∧ t.boot.condition = 1
      ∧ ∀ d : Fin 16, t.dom.dom[d].st = .off
    (∀ v, v < 3000 → 2 ≤ s.boot.phase → s.alm.flush.any (·.powerFail) = false →
      Effects (.vs6Undervoltage v) s fun t => cold t ∧ t.boot.phase = 1)
    ∧ (∀ v, v < 3000 → 2 ≤ s.boot.phase → s.alm.flush.any (·.powerFail) = true →
      Effects (.vs6Undervoltage v) s fun t => t = { begin_ s with alm := { s.alm with brown := some v } })
    ∧ (∀ v, 3000 ≤ v → Effects (.vs6Undervoltage v) s fun t => t = begin_ s)
    ∧ (2 ≤ s.boot.phase → s.alm.flush.any (·.powerFail) = false → Effects .lpBrownOut s fun t => cold t ∧ t.boot.phase = 1)
    ∧ (3 ≤ s.boot.phase → s.boot.resetLow = none →
      Effects .resetNAssert s fun t => cold t ∧ t.boot.phase = 3 ∧ t.boot.resetLow = some s.clk.now)
    ∧ (∀ r, s.cmd.restart = some r → r.cold = true → r.at_.any (fun t => decide (t ≤ s.clk.now)) = true →
      Effects .restartBegin s fun t => cold t ∧ t.boot.phase = 3)
    ∧ (∀ v, s.boot.phase ≤ 1 → 4500 < v → Effects (.powerOn v) s fun t =>
        t.boot.phase = 2 ∧ t.boot.condition = 1 ∧ t = { begin_ s with boot := t.boot })
    ∧ (∀ v, (v ≤ 4500 ∨ 2 ≤ s.boot.phase) → Effects (.powerOn v) s fun t => t = begin_ s)
    ∧ (s.boot.phase = 2 → Effects .alwaysOnStart s fun t =>
        t.boot.phase = 3 ∧ t.dom.wake = State.reset.dom.wake ∧ t.dom.mainReg = true ∧ t.ev.held = [] ∧ t.outs = s.outs)

/-- Bring-up, phase by phase (R101 to R103, R110, R113, R114, R125, R526): each row's own phase, what ends it, and what it sets; the readings taken are DEDUCED (log entry 34). -/
def Obligations.BringUpPhases : Prop :=
  ∀ s : State,
    (s.boot.phase = 3 → s.boot.resetLow.isSome = true → Effects .resetNRelease s fun t =>
      t.boot.resetLow = none ∧ t.boot.phase = 3 ∧ t.dom.wake = State.reset.dom.wake ∧ t.dom.mainReg = true ∧ t.outs = s.outs)
    ∧ (s.boot.condition = 1 →
      (∀ straps, s.boot.phase = 3 → s.boot.resetLow = none → Effects (.pllLock straps) s fun t =>
        t.boot.phase = 4 ∧ t.boot.member = straps ∧ t.dom.root = true ∧ t.outs = s.outs ∧ t.nv = s.nv)
      ∧ (s.boot.phase = 3 → s.boot.resetLow = none → s.boot.startAt + 3200000 ≤ s.clk.now →
        Effects .pllLockTimeout s fun t => t.boot.phase = 3 ∧ t.alm = s.alm ∧ t.outs = s.outs ∧ t.nv = s.nv)
      ∧ (s.boot.phase = 3 → s.clk.now < s.boot.startAt + 3200000 → Effects .pllLockTimeout s fun t => t = begin_ s)
      ∧ (s.boot.phase = 4 → Effects (.nvCheck false) s fun t =>
        t.boot.condition = 3 ∧ ∀ n : Fin 96, t.outs[n].st = s.outs[n].st ∧ t.outs[n].mode = s.outs[n].mode)
      ∧ (s.boot.phase = 4 → Effects (.nvCheck true) s fun t => t.boot.phase = 5 ∧ t.boot.condition = 1 ∧ t.outs = s.outs)
      ∧ (s.boot.phase = 5 → Effects (.selfTest true) s fun t => t.boot.phase = 6 ∧ (∀ d : Fin 16, t.dom.dom[d].st = .on)
        ∧ (s.outs = State.reset.outs → ∀ n : Fin 96, t.outs[n].st = .off ∧ t.outs[n].mode = 0))
      ∧ (s.boot.phase = 5 → s.boot.selfFails = 0 → Effects (.selfTest false) s fun t =>
        t = { begin_ s with boot := { s.boot with selfFails := 1 } })
      ∧ (s.boot.phase = 5 → 1 ≤ s.boot.selfFails → Effects (.selfTest false) s fun t => t.boot.condition = 3 ∧ t.cmd.ready = false)
      ∧ (s.boot.phase = 6 → s.plan.picked = false → s.plan.passedA = false → s.plan.passedB = false →
        Effects .planPhase s fun t => t.plan.picked = true ∧ t.plan.noPlan = true ∧ t.plan.next = none ∧ t.kept = s.kept)
      ∧ (s.boot.phase = 6 → s.plan.picked = false → s.plan.passedA = true → s.plan.passedB = false → planSigned (readPlan false s.nv) s = none →
        Effects .planPhase s fun t => t.plan.picked = true ∧ t.plan.noPlan = false ∧ t.plan.copyB = false ∧ t.plan.targetB = true
          ∧ t.plan.version = (readPlan false s.nv).version ∧ t.plan.next = some (0, 0) ∧ t.kept = s.kept)
      ∧ (s.boot.phase = 6 → s.plan.picked = true → planOver s = true → planBusy s = false →
        Effects .bringupReady s fun t => t.cmd.ready = true ∧ t.boot.phase = 7 ∧ t.boot.condition = 0 ∧ t.outs = s.outs ∧ t.io = s.io))

/-- PLAN_PACKET (R112, R115, R116), RESTART_BEGIN, WARM_RESTART and WARM_READY (R85, R107 to R110) and REPLAY_STATE_WRITE (R68); the readings between the rules are DEDUCED (log entry 34). -/
def Obligations.PlanAndWarmRestart : Prop :=
  ∀ s : State,
    (∀ off i, s.boot.condition = 1 → s.boot.phase = 6 → engineRuns s = true → planBusy s = false → s.plan.next = some (off, i) →
      let c := readPlan s.plan.copyB s.nv
      let b := c.body.drop off
      i < c.count → (BitVec.ofNat 4 ((byteAt b 1).toNat / 16) == s.boot.member.setWidth 4) = true → planForbidden b = true →
      Effects .planPacket s fun t => t.plan.next = some (off + packetLen b, i + 1) ∧ t.kept = s.kept)
    ∧ (∀ off i, s.boot.condition = 1 → s.boot.phase = 6 → engineRuns s = true → planBusy s = false → s.plan.next = some (off, i) →
      let c := readPlan s.plan.copyB s.nv
      let b := c.body.drop off
      let m : BitVec 4 := BitVec.ofNat 4 ((byteAt b 1).toNat / 16)
      i < c.count → m = s.boot.member.setWidth 4 ∨ m = 15 → planForbidden b = false →
      Effects .planPacket s fun t =>
        t = runPlanHeads (arriveInside { parsePacket 12 b with prio := 0, replyWanted := false } (headerReserved b)
          { begin_ s with plan := { s.plan with next := some (off + packetLen b, i + 1) } }))
    ∧ (planBusy s = true → Effects .planPacket s fun t => t = begin_ s)
    ∧ (∀ r, s.cmd.restart = some r → r.cold = false → r.at_.any (fun t => decide (t ≤ s.clk.now)) = true → s.boot.condition ≠ 1 →
      Effects .restartBegin s fun t => t.cmd.waiting = [] ∧ t.cmd.sched = [] ∧ t.cmd.ready = false ∧ t.boot.condition = 2
        ∧ t.boot.phase = 5 ∧ t.io = s.io ∧ (∀ n : Fin 96, t.outs[n].st = s.outs[n].st ∧ t.outs[n].mode = s.outs[n].mode)
        ∧ (∀ k : Fin 8, t.brs[k].st = s.brs[k].st ∧ t.brs[k].cmd = s.brs[k].cmd)
        ∧ ∀ n : Fin 16, t.vls[n].st = s.vls[n].st ∧ t.vls[n].mode = s.vls[n].mode)
    ∧ (s.boot.condition = 2 → s.boot.phase = 5 → s.dom.root = true → domOn 15 s = false → s.alm.staging = [] → s.alm.intake = [] →
      s.alm.flush = none → Effects (.warmRestart true) s fun t => t = { begin_ s with boot := { s.boot with phase := 6 } })
    ∧ (s.boot.condition = 2 → s.boot.phase = 5 → s.dom.root = true → domOn 15 s = true →
      Effects (.warmRestart true) s fun t => t.boot.phase = 6 ∧ t.outs = (flushAll (begin_ s)).outs ∧ t.nv = (flushAll (begin_ s)).nv)
    ∧ (s.boot.condition = 2 → s.boot.phase = 6 → Effects .warmReady s fun t =>
        t.cmd.ready = true ∧ t.boot.condition = 0 ∧ t.boot.phase = 7 ∧ t.outs = s.outs ∧ t.io = s.io)
    ∧ (∀ k : Fin 64, s.ks.slots[k].dirty = true →
      (s.ks.slots[k].wroteAt.all (fun t => decide (t + 1000000 ≤ s.clk.now)) = true → Effects (.replayStateWrite k) s fun t =>
        t.ks.slots[k] = { s.ks.slots[k] with dirty := false, wroteAt := some s.clk.now } ∧ t.kept = s.kept
          ∧ ∃ a l, t.alm.writes = s.alm.writes ++ [⟨4, a, l, 0, none⟩])
      ∧ (s.ks.slots[k].wroteAt.all (fun t => decide (t + 1000000 ≤ s.clk.now)) = false →
        Effects (.replayStateWrite k) s fun t => t = begin_ s))

/-- DOMAIN_SET (R135), WAKE_CONFIG (R146) and TIMER_WAKE (R147), with what stays. That WAKE_CONFIG of detector 09h with ENABLE 1 and no armed timer only stores the set (log entry 10) and that a reflex's DOMAIN_SET of D00 is BAD_PARAM (log entry 23) are the model's choices. -/
def Obligations.DomainPackets : Prop :=
  ∀ (p : Packet) (s : State),
    let b := p.payload
    (b.length = 12 → zeroAt [9, 10, 11] b = true → onlyBits 8 1 b = true → AtHead 0x0100 .chip [] p s →
      (p.host = 11 → dsTarget (wordAt b 0) 0 = 3) → Begins (.domainSet p) s fun q t => q.pkt = { p with opcode := 0x0100 } ∧ t.kept = s.kept ∧ ∃ x, t.dom.dset = some x
        ∧ x.target = wordAt b 0 ∧ x.force = (byteAt b 8).getLsbD 0 ∧ x.q.pkt = q.pkt
        ∧ x.turns = turnUpOrder.filter (fun d => dsTarget (wordAt b 0) d = 2)
            ++ turnDownOrder.filter (fun d => dsTarget (wordAt b 0) d ≤ 1 && !(replyPathDomains x.q s).contains d)
        ∧ ∀ d : Fin 16, t.dom.dom[d].st = s.dom.dom[d].st
            ∧ t.dom.dom[d].woa = (if (halfAt b 4).getLsbD d.val then (halfAt b 6).getLsbD d.val else s.dom.dom[d].woa))
    ∧ (b.length = 12 → zeroAt [9, 10, 11] b = true → onlyBits 8 1 b = true → AtHead 0x0100 .chip [] p s →
      p.host = 11 → dsTarget (wordAt b 0) 0 ≠ 3 →
      Answers (.domainSet p) 0x0100 p s fun a t => a = .err stBadParam ∧ Entered (begin_ s) t)
    ∧ (b.length = 6 → zeroAt [3] b = true → onlyBits 2 1 b = true → AtHead 0x0101 .chip [] p s →
      let code := (byteAt b 0).toNat
      let idx := (byteAt b 1).toNat
      let en := (byteAt b 2).getLsbD 0
      let set : BitVec 16 := halfAt b 4 ||| 1
      (1 ≤ code → code ≤ 8 → (idx = 0xFF ∨ idx < wakeIndices code) → Answers (.wakeConfig p) 0x0101 p s fun a t => a = .ok
        ∧ t.kept = { s.kept with wake := t.dom.wake } ∧ ∀ k : Fin 96, t.dom.wake[k]
          = if (List.range (wakeIndices code)).any (fun i => (decide (idx = 0xFF) || decide (i = idx)) && decide (wakeSlot code i = k))
            then ⟨en, set⟩ else s.dom.wake[k])
      ∧ (code = 9 → (idx = 0xFF ∨ idx = 0) → Answers (.wakeConfig p) 0x0101 p s fun a t => a = .ok
        ∧ t.kept = { s.kept with wake := t.dom.wake, timerAt := if en then s.dom.timerAt else none }
        ∧ t.dom.wake = s.dom.wake.set 95 ⟨if en then s.dom.timerAt.isSome || s.dom.wake[95].enable else false, set⟩)
      ∧ ((code = 0 ∨ 9 < code ∨ (idx ≠ 0xFF ∧ wakeIndices code ≤ idx)) →
        Answers (.wakeConfig p) 0x0101 p s fun a t => a = .err stBadParam ∧ Entered (begin_ s) t))
    ∧ (b.length = 6 → AtHead 0x0103 .chip [] p s → Answers (.timerWake p) 0x0103 p s fun a t => a = .ok
        ∧ t.kept = { s.kept with wake := t.dom.wake, timerAt := t.dom.timerAt }
        ∧ t.dom.timerAt = (if numAt b 0 4 = 0 then none else some (s.clk.ao + numAt b 0 4 * 1000000))
        ∧ t.dom.wake = s.dom.wake.set 95
            (if numAt b 0 4 = 0 then ⟨false, s.dom.wake[95].set⟩ else ⟨true, halfAt b 4 ||| 1⟩))

/-- DOMAIN_SET_TURN (R135, R138, R139), DOMAIN_SET_REPLY (R136) and REPLY_PATH_TURNDOWN (R137). The order of waiting turns and the spacing of reply-path turn-downs are the model's choice (log entry 12). -/
def Obligations.DomainTurns : Prop :=
  ∀ s : State,
    (∀ x, s.dom.dset = some x →
      (∀ d, x.lastTurn.any (fun t => decide (s.clk.now < t + 10000)) = false → x.turns.find? (fun d => !turnWaits x d s) = some d →
        let goal := dsTarget x.target d
        let st := s.dom.dom[d].st
        let taken (t : State) : Prop := t.dom.dset.map (·.turns) = some (x.turns.filter (· ≠ d))
        let refused (r : Nat) (t : State) : Prop := taken t ∧ t.dom.dom[d].st = st ∧ t.kept = s.kept
          ∧ t.dom.dset.map (fun y => (y.outcome[d], y.reason[d])) = some (3, BitVec.ofNat 4 r)
        (goal = 2 → st = .off ∨ st = .ret → s.boot.condition ≠ 3 → Effects .domainSetTurn s fun t =>
          t.dom.dom[d].st = (if st = .off then .offToOn else .retToOn) ∧ taken t ∧ t.kept = s.kept)
        ∧ (goal = 2 → st = .on → Effects .domainSetTurn s fun t => t.dom.dom[d].st = .on ∧ taken t ∧ t.kept = s.kept)
        ∧ (goal = 2 → st ≠ .on → s.boot.condition = 3 → Effects .domainSetTurn s (refused 6))
        ∧ (goal ≤ 1 → st = .on → downReason d (decide (goal = 1)) s = 0 → Effects .domainSetTurn s fun t =>
          t.dom.dom[d].st = (if goal = 1 then .toRet else .toOff) ∧ taken t)
        ∧ (goal ≤ 1 → st = .on → downReason d (decide (goal = 1)) s ≠ 0 →
          forceable (downReason d (decide (goal = 1)) s) = false ∨ x.force = false →
          Effects .domainSetTurn s (refused (downReason d (decide (goal = 1)) s)))
        ∧ (goal ≤ 1 → st = .on → forceable (downReason d (decide (goal = 1)) s) = true → x.force = true → Effects .domainSetTurn s fun t =>
          t.dom.dom[d].st = (if goal = 1 then .toRet else .toOff) ∧ taken t ∧ t.dom.dom[d].sticky.getLsbD 0 = true)
        ∧ (goal = 1 → st = .off → Effects .domainSetTurn s (refused 1))
        ∧ (goal = 0 ∧ st = .off ∨ goal = 1 ∧ st = .ret → Effects .domainSetTurn s fun t => t.dom.dom[d].st = st ∧ taken t ∧ t.kept = s.kept)
        ∧ (goal = 0 → st = .ret → Effects .domainSetTurn s fun t => t.dom.dom[d].st = .retToOn ∧ t.dom.dset.map (·.turns) = some x.turns))
      ∧ (x.lastTurn.any (fun t => decide (s.clk.now < t + 10000)) = true ∨ x.turns.find? (fun d => !turnWaits x d s) = none →
        Effects .domainSetTurn s fun t => t = begin_ s)
      ∧ (x.turns = [] → dsSettled x s = true → pathMoves x s = false → Effects .domainSetReply s fun t => t.dom.dset = none ∧ t.kept = s.kept)
      ∧ (x.turns ≠ [] ∨ dsSettled x s = false ∨ pathMoves x s = true → Effects .domainSetReply s fun t => t = begin_ s))
    ∧ (s.dom.dset = none → Effects .domainSetTurn s (fun t => t = begin_ s) ∧ Effects .domainSetReply s fun t => t = begin_ s)
    ∧ (∀ e rest, s.dom.replyPath = e :: rest →
      (∀ t0, e.at_ = some t0 → t0 ≤ s.clk.now → e.dom.val ≤ 2 → s.dom.dom[e.dom].st = .on →
        Effects .replyPathTurndown s fun t => t.dom.dom[e.dom].st = (if e.toRet then .toRet else .toOff)
          ∧ t.dom.replyPath.map (·.dom) = rest.map (·.dom))
      ∧ (∀ t0, e.at_ = some t0 → t0 ≤ s.clk.now → (e.toRet = true ∧ s.dom.dom[e.dom].st = .ret ∨ s.dom.dom[e.dom].st = .off) →
        Effects .replyPathTurndown s fun t => t.dom.dom = s.dom.dom ∧ t.dom.replyPath.map (·.dom) = rest.map (·.dom) ∧ t.kept = s.kept)
      ∧ (e.at_.any (fun t => decide (t ≤ s.clk.now)) = false → Effects .replyPathTurndown s fun t => t = begin_ s))
    ∧ (s.dom.replyPath = [] → Effects .replyPathTurndown s fun t => t = begin_ s)

/-- DOMAIN_TRANSITION_DONE (R129, R138), INTERNAL_WAKE_RETURN (R142) and PROTECTION_WAKE (R133) of every unit it names; the reasons that keep a domain up are DEDUCED (log entry 13), and what a retained trip records (log entry 18). -/
def Obligations.DomainTransitions : Prop :=
  ∀ (d : Fin 16) (s : State),
    let st := s.dom.dom[d].st
    let due : Prop := st = .retToOn ∨ (st = .offToOn ∧ (d = 15 ∨ domOn 15 s = true))
    (s.dom.root = true → due → Effects (.domainTransitionDone d) s fun t => t.dom.dom[d].st = .on)
    ∧ (s.dom.root = false → due → Effects (.domainTransitionDone d) s fun t => t = begin_ s)
    ∧ (st = .offToOn → d ≠ 15 → domOn 15 s = false →
      Effects (.domainTransitionDone d) s fun t => t.dom.dom[d].st = .offToOn ∧ t.kept = s.kept)
    ∧ (st = .toRet → downReady d true s = true → Effects (.domainTransitionDone d) s fun t =>
        t.dom.dom[d].st = (if s.dom.dom[d].upAfter then .retToOn else .ret))
    ∧ (st = .toOff → downReady d false s = true → Effects (.domainTransitionDone d) s fun t =>
        t.dom.dom[d].st = (if s.dom.dom[d].upAfter then .offToOn else .off))
    ∧ ((st = .toRet ∧ downReady d true s = false ∨ st = .toOff ∧ downReady d false s = false ∨ st = .on ∨ st = .ret ∨ st = .off) →
      Effects (.domainTransitionDone d) s fun t => t = begin_ s)
    ∧ (∀ r, s.dom.dom[d].returnTo = some r → domOn d s = true →
      (workDone d s = true → s.dom.dom[d].idleSince + 10000000 ≤ s.clk.now →
        (downReason d (r == .ret) s = 0 → (d = 0 → r ≠ .ret → s.cmd.sched = []) →
          Effects (.internalWakeReturn d) s fun t => t.dom.dom[d].st = (if r == .ret then .toRet else .toOff)
            ∧ t.dom.dom[d].returnTo = none)
        ∧ (downReason d (r == .ret) s ≠ 0 → Effects (.internalWakeReturn d) s fun t => t.dom.dom[d].st = .on
            ∧ t.dom.dom[d].intHeld = true ∧ t.dom.dom[d].idleSince = s.clk.now ∧ t.kept = s.kept))
      ∧ (s.clk.now < s.dom.dom[d].idleSince + 10000000 ∨ workDone d s = false →
        Effects (.internalWakeReturn d) s fun t => t = begin_ s))
    ∧ (s.dom.dom[d].returnTo = none → Effects (.internalWakeReturn d) s fun t => t = begin_ s)
    ∧ ∀ (n : Fin 96) (kind : TripKind) (mA : Nat),
      let e := outDomain n
      (conducting s.outs[n] = true → (kind = .wire → 0 < fld s.outs[primary n s].cfg2 8 8 * 200 ∧ 11 * (fld s.outs[primary n s].cfg2 8 8 * 200) < 10 * mA) →
        s.dom.dom[e].st = .ret → s.dom.dom[e].upAfter = false → s.boot.condition = 0 → 3 ≤ s.boot.phase → s.boot.resetLow = none →
        Effects (.protectionWake (.out n) ⟨kind, mA⟩) s fun t => t.dom.dom[e].st = .retToOn ∧ t.outs = s.outs)
      ∧ ((conducting s.outs[n] = false ∨ s.dom.dom[e].st = .on ∨ s.dom.dom[e].st = .off) →
        Effects (.protectionWake (.out n) ⟨kind, mA⟩) s fun t => t = begin_ s)
      ∧ ∀ (u : UnitRef) (f : Fin 16), unitDomain u = some f →
        let live : Bool := match u with
          | .leg k => (if k.val % 2 = 0 then (legModes s.brs[legBridge k]).1 else (legModes s.brs[legBridge k]).2) != 0
          | .vh g => s.vhs[g].st == .rising || s.vhs[g].st == .on
          | .vl k => s.vls[k].st == .on || s.vls[k].st == .clamp
          | .fq k => fqGate s.io.fq[k] s.io.fld.supply
          | _ => false
        (live = true → kind ≠ .wire → s.dom.dom[f].st = .ret → s.dom.dom[f].upAfter = false → s.boot.condition = 0 → 3 ≤ s.boot.phase →
          s.boot.resetLow = none → Effects (.protectionWake u ⟨kind, mA⟩) s fun t => t.dom.dom[f].st = .retToOn ∧ t.kept = s.kept)
        ∧ ((∀ k, u ≠ .out k) → live = false ∨ kind = .wire → Effects (.protectionWake u ⟨kind, mA⟩) s fun t => t = begin_ s)

/-- WAKE_LAND_EDGE (R144), TIMER_WAKE_EXPIRY (R147), SCHEDULER_TIMER_FIRE (R152), ENDPOINT_FRAME_WAKE (R141), LP_HANDOVER and LP_RELEASE (R153), ROOT_RESTART_DONE (R151) and AO_CLOCK_TRIM (R28); readings between the rules are DEDUCED (log entry 14). -/
def Obligations.AlwaysOnSection : Prop :=
  ∀ s : State,
    (∀ (l : Fin 2) (level : Bool) (held : Nat),
      (s.dom.wakeLevel[l] = level → Effects (.wakeLandEdge l level held) s fun t => t = begin_ s)
      ∧ (s.dom.wakeLevel[l] ≠ level → held < 50000 ∨ s.dom.wake[wakeSlot 8 l.val].enable = false →
        Effects (.wakeLandEdge l level held) s fun t => t = { begin_ s with dom := { s.dom with wakeLevel := s.dom.wakeLevel.set l level } })
      ∧ (s.dom.wakeLevel[l] ≠ level → 50000 ≤ held → s.dom.wake[wakeSlot 8 l.val].enable = true → s.boot.phase = 7 →
        s.boot.condition = 0 → s.boot.resetLow = none → s.dom.lastWake.source = 0 → s.dom.dom[(0 : Fin 16)].st = .off → s.dom.dom[(0 : Fin 16)].upAfter = false →
        Effects (.wakeLandEdge l level held) s fun t => t.dom.dom[(0 : Fin 16)].st = .offToOn ∧ t.dom.lastWake.source = 8
          ∧ t.dom.lastWake.index.toNat = l.val ∧ t.kept = s.kept))
    ∧ (∀ t0, s.dom.timerAt = some t0 →
      (t0 ≤ s.clk.ao → Effects .timerWakeExpiry s fun t => t.dom.timerAt = none ∧ t.outs = s.outs
        ∧ t.dom.wake = s.dom.wake.set 95 ⟨false, s.dom.wake[95].set⟩)
      ∧ (s.clk.ao < t0 → Effects .timerWakeExpiry s fun t => t = begin_ s))
    ∧ (∀ t0, s.dom.schedTimer = some t0 →
      (t0 ≤ s.clk.ao → s.boot.phase = 7 → s.boot.condition = 0 → s.boot.resetLow = none → s.dom.dom[(0 : Fin 16)].st = .ret →
        s.dom.dom[(0 : Fin 16)].upAfter = false →
        Effects .schedulerTimerFire s fun t => t.dom.schedTimer = none ∧ t.dom.dom[(0 : Fin 16)].st = .retToOn ∧ t.kept = s.kept)
      ∧ (s.clk.ao < t0 → Effects .schedulerTimerFire s fun t => t = begin_ s))
    ∧ (∀ (src : EthSrc) (b : List Byte),
      (portPasses src.port s = true → s.dom.dom[(0 : Fin 16)].st = .off → s.dom.dom[(0 : Fin 16)].upAfter = false → s.dom.dom[(0 : Fin 16)].woa = true → s.boot.member = 0 →
        s.boot.phase = 7 → s.boot.condition = 0 → s.boot.resetLow = none → s.dom.frames = [] →
        Effects (.endpointFrameWake src.port src.mac src.vlan src.pcp b) s fun t => t.dom.dom[(0 : Fin 16)].st = .offToOn
          ∧ t.kept = { s.kept with frames := [⟨src.port, src.mac, src.vlan, src.pcp, b⟩] })
      ∧ (portPasses src.port s = true → s.dom.dom[(0 : Fin 16)].st = .off → s.dom.dom[(0 : Fin 16)].woa = false →
        Effects (.endpointFrameWake src.port src.mac src.vlan src.pcp b) s fun t => t = endpointDrop src.port (begin_ s))
      ∧ (domOn 0 s = true ∨ portPasses src.port s = false → Effects (.endpointFrameWake src.port src.mac src.vlan src.pcp b) s fun t => t = begin_ s))
    ∧ (∀ (load : Nat) (c : Int),
      Effects (.lpHandover load c) s (fun t => t.kept = s.kept ∧ t.dom.lpLoad = min 8191 load ∧ t.dom.lpForced
          = (if allDown s && decide (1600 ≤ load) && !s.dom.mainReg then true else s.dom.lpForced)
        ∧ t.dom.mainReg = (if allDown s && decide (1600 ≤ load) then true else s.dom.mainReg))
      ∧ Effects (.lpRelease load) s fun t => t = { begin_ s with dom := { s.dom with
          lpLoad := t.dom.lpLoad, lpLowSince := t.dom.lpLowSince, mainReg := t.dom.mainReg, lpForced := t.dom.lpForced } }
        ∧ t.dom.lpLoad = min 8191 load
        ∧ (if s.dom.lpForced = true ∧ load < 1200 ∧ s.dom.lpLowSince.any (fun t => decide (t + 100000000 ≤ s.clk.now)) = true
            then t.dom.mainReg = false ∧ t.dom.lpForced = false
            else t.dom.mainReg = s.dom.mainReg ∧ t.dom.lpForced = s.dom.lpForced))
    ∧ Effects .rootRestartDone s (fun t => t = if s.dom.rootAt.any (fun t => decide (t ≤ s.clk.now))
        then { begin_ s with dom := { s.dom with root := true, rootAt := none } } else begin_ s)
    ∧ ∀ (trim : Int) (limit : Bool), Effects (.aoClockTrim trim limit) s fun t => t.kept = s.kept
        ∧ t.clk = (if s.dom.root then { s.clk with aoTrim := trim } else s.clk)
        ∧ t.dom.sticky = (if s.dom.root && limit then s.dom.sticky ||| 0b0010 else s.dom.sticky)

/-- OUT_SET (R173, R174), OUT_CONFIG (R176), OUT_READ (R189) and OUT_CAS (R175) on one cell, with their frames; EveryUnitHasItsPart says the rest for several cells. The order of the outcomes and the values kept by modes off and on are DEDUCED (log entry 15). -/
def Obligations.OutputPackets : Prop :=
  ∀ (p : Packet) (s : State) (n : Fin 96),
    let b := p.payload
    let others (t : State) : Prop := t.kept = { s.kept with outs := t.outs }
      ∧ ∀ m : Fin 96, m ≠ n → s.outs[n].partner ≠ some m → t.outs[m] = s.outs[m]
    let rep (k : List Byte) (o : Nat) : Ans := ⟨(outcomeStatus o).1, (outcomeStatus o).2, k ++ [BitVec.ofNat 8 o]⟩
    let sets (x k : List Byte) (c : Instr) (op : Half) : Prop :=
      let mode : BitVec 2 := BitVec.ofNat 2 (byteAt x 12).toNat
      let v : PwmVals := if (byteAt x 13).getLsbD 1 then s.outs[n].vals else ⟨numAt x 16 4, numAt x 20 4, numAt x 24 4⟩
      let fits : Prop := 2 ≤ mode.toNat → pwmRange (outClass n) mode v = true
      let changes : Prop := s.outs[n].mode ≠ mode ∨ (2 ≤ mode.toNat ∧ s.outs[n].vals ≠ v)
      (isSecondary n s = true → Answers c op p s fun a t => a = rep k 0x13 ∧ Entered (begin_ s) t)
      ∧ (isSecondary n s = false →
        (fits → (mode = 0 ∨ s.outs[n].prot = .none) → Answers c op p s fun a t => others t ∧ t.outs[n].mode = mode
          ∧ t.outs[n].start = (decide (2 ≤ mode.toNat) && (byteAt x 13).getLsbD 0)
          ∧ t.outs[n].vals = (if mode.toNat ≤ 1 then s.outs[n].vals else v)
          ∧ (changes → t.outs[n].lastHost = p.host) ∧ (¬ changes → t.outs[n].lastHost = s.outs[n].lastHost)
          ∧ a = rep k (if s.outs[n].st == .falling && demand t.outs[n] && !inhibited n t then 1
              else if mode ≠ 0 ∧ (s.prune[outIdx n].pruned = true ∨ s.outs[n].uvOff = true) then 2 else 0))
        ∧ (fits → mode ≠ 0 → s.outs[n].prot ≠ .none → Answers c op p s fun a t => a = rep k 0x10 ∧ others t
          ∧ t.outs[n].mode = s.outs[n].mode ∧ t.outs[n].prot = s.outs[n].prot ∧ t.outs[n].sticky2 = s.outs[n].sticky2 ||| 2
          ∧ (s.outs[n].staged = false → s.outs[n].early = none → t.outs[n] = { s.outs[n] with sticky2 := s.outs[n].sticky2 ||| 2 }))
        ∧ (¬ fits → Answers c op p s fun a t => a = rep k 0x14 ∧ others t ∧ t.outs[n].mode = s.outs[n].mode
          ∧ t.outs[n].vals = s.outs[n].vals
          ∧ (s.outs[n].staged = false → s.outs[n].early = none → Entered (begin_ s) t)))
    (outMask b = [.out n] →
      (b.length = 28 → outSetRes b = true → (byteAt b 12).toNat ≤ 3 → AtHead 0x0200 (.out n) [outDomain n] p s →
        sets b (be 2 1) (.outSet p) 0x0200)
      ∧ (b.length = 16 → opOutConfig.resOk b = true → AtHead 0x0201 (.out n) [outDomain n] p s →
        let v := (byteAt b 13).toNat
        let w := byteAt b 12
        let bad : Prop := w.getLsbD 3 = true ∧ v / 16 % 4 = 3 ∧ outClass n ≠ 2
        (isSecondary n s = true → Answers (.outConfig p) 0x0201 p s fun a t => a = rep (be 2 1) 0x13 ∧ Entered (begin_ s) t)
        ∧ (isSecondary n s = false → bad → Answers (.outConfig p) 0x0201 p s fun a t => a = rep (be 2 1) 0x14 ∧ Entered (begin_ s) t)
        ∧ (isSecondary n s = false → ¬ bad → Answers (.outConfig p) 0x0201 p s fun a t => a = ⟨0, 0, be 2 1 ++ [0]⟩ ∧ others t
          ∧ t.outs[n] = { s.outs[n] with cfg := t.outs[n].cfg, rb := if w.getLsbD 3 then { s.outs[n].rb with below := 0 } else s.outs[n].rb }
          ∧ fld t.outs[n].cfg 30 2 = (if w.getLsbD 0 then v % 4 else fld s.outs[n].cfg 30 2)
          ∧ fld t.outs[n].cfg 29 1 = (if w.getLsbD 1 then v / 4 % 2 else fld s.outs[n].cfg 29 1)
          ∧ fld t.outs[n].cfg 28 1 = (if w.getLsbD 2 then v / 8 % 2 else fld s.outs[n].cfg 28 1)
          ∧ fld t.outs[n].cfg 26 2 = (if w.getLsbD 3 then v / 16 % 4 else fld s.outs[n].cfg 26 2)
          ∧ fld t.outs[n].cfg 0 26 = fld s.outs[n].cfg 0 26)))
    ∧ (b.length = 4 → byteAt b 3 = 0 → numAt b 0 2 = n.val → byteAt b 2 = 1 → AtHead 0x0202 (.out n) [outDomain n] p s →
      Answers (.outRead p) 0x0202 p s fun a t => Entered (begin_ s) t ∧ a = .ok (b ++ outEntry n s))
    ∧ (b.length = 32 → opOutCas.resOk b = true → opOutCas.parOk b = true → (byteAt b 0).toNat = n.val →
        AtHead 0x0204 (.out n) [outDomain n] p s →
      (s.outs[n].mode.toNat = (byteAt b 1).toNat → sets (b.drop 4) [] (.outCas p) 0x0204)
      ∧ (s.outs[n].mode.toNat ≠ (byteAt b 1).toNat → isSecondary n s = false → Answers (.outCas p) 0x0204 p s fun a t =>
          a = ⟨0x0244, s.outs[n].mode.setWidth 16, [0xFF]⟩ ∧ others t ∧ t.outs[n].mode = s.outs[n].mode ∧ t.outs[n].vals = s.outs[n].vals
            ∧ (s.outs[n].staged = false → s.outs[n].early = none → Entered (begin_ s) t)))

/-- GANG_SET (R185, R186): what a gang takes, its parting, and a pair that is not idle or does not fit; what the secondary takes is DEDUCED (log entry 15). -/
def Obligations.Gangs : Prop :=
  ∀ (p : Packet) (s : State) (x y : Fin 96),
    let b := p.payload
    let idle (n : Fin 96) : Prop := s.outs[n].st = .off ∧ s.outs[n].mode = 0
    let en : Bool := (byteAt b 2).getLsbD 0
    let fit : Prop := x.val < y.val ∧ outClass x = outClass y ∧ outBlock x = outBlock y
    let still : Prop := regionOn (outRegion x) s = false
      ∨ (pruneStage (outRegion x) s = 0 ∧ ∀ i ∈ regionUnits (outRegion x), s.prune[i].pruned = false)
    let frame (t : State) : Prop := t.kept = { s.kept with outs := t.outs, prune := t.prune, regs := t.regs }
    b.length = 4 → zeroAt [3] b = true → onlyBits 2 1 b = true → (byteAt b 0).toNat = x.val → (byteAt b 1).toNat = y.val →
    AtHead 0x0203 (.out x) [outDomain x] p s → AtHead 0x0203 (.out y) [outDomain y] p s →
    (fit → en = true → idle x → idle y → s.outs[x].partner = none → s.outs[y].partner = none →
      Answers (.gangSet p) 0x0203 p s fun a t => a = .ok ∧ frame t ∧ t.outs[x].partner = some y ∧ t.outs[y].partner = some x
        ∧ t.outs[y].cfg = s.outs[x].cfg ∧ t.outs[y].vals = s.outs[x].vals
        ∧ (still → t.outs[x] = { s.outs[x] with partner := some y }
          ∧ t.outs[y] = { s.outs[y] with partner := some x, cfg := s.outs[x].cfg, vals := s.outs[x].vals }
          ∧ (∀ m : Fin 96, m ≠ x → m ≠ y → t.outs[m] = s.outs[m]) ∧ t.kept = { s.kept with outs := t.outs }))
    ∧ (fit → en = false → idle x → idle y → s.outs[x].partner = some y →
      Answers (.gangSet p) 0x0203 p s fun a t => a = .ok ∧ frame t ∧ t.outs[x].partner = none ∧ t.outs[y].partner = none
        ∧ (still → t.outs[x] = { s.outs[x] with partner := none } ∧ t.outs[y] = { s.outs[y] with partner := none }
          ∧ (∀ m : Fin 96, m ≠ x → m ≠ y → t.outs[m] = s.outs[m]) ∧ t.kept = { s.kept with outs := t.outs }))
    ∧ (fit → en = false → s.outs[x].partner ≠ some y → Answers (.gangSet p) 0x0203 p s fun a t => a = .ok ∧ Entered (begin_ s) t)
    ∧ (fit → (en = true ∨ s.outs[x].partner = some y) → (¬ (idle x ∧ idle y) ∨ en = true ∧ (s.outs[x].partner ≠ none ∨ s.outs[y].partner ≠ none)) →
      Answers (.gangSet p) 0x0203 p s fun a t => a = .err 0x0241 ∧ Entered (begin_ s) t)
    ∧ (¬ fit → Answers (.gangSet p) 0x0203 p s fun a t => a = .err 0x0242 ∧ Entered (begin_ s) t)

/-- The rows of Table 5-3 (R166, R167) with the tokens of R237 to R240; a hot cell's wait is DEDUCED (log entry 16). -/
def Obligations.CellTransitions : Prop :=
  ∀ (n : Fin 96) (s : State), isSecondary n s = false →
    let free : Prop := demand s.outs[n] = true ∧ inhibited n s = false
    let frame (t : State) : Prop := t.kept = { s.kept with outs := t.outs }
      ∧ ∀ m : Fin 96, m ≠ n → s.outs[n].partner ≠ some m → t.outs[m] = s.outs[m]
    let ends (c : Instr) : Prop :=
      (¬ free → Effects c s fun t => t.outs[n].st = .off ∧ frame t)
      ∧ (free → isHot n s = true → Effects c s fun t => t.outs[n].st = .waitToken ∧ t.outs[n].tok = .none ∧ frame t)
      ∧ (free → isHot n s = false →
        (needsTok s.outs[n] = true → s.outs[n].tok = .none →
          Effects c s fun t => t.outs[n].st = .waitToken ∧ t.outs[n].tok = .waiting s.clk.now false ∧ frame t)
        ∧ ((needsTok s.outs[n] = false ∨ s.outs[n].tok.isHeld = true) → Effects c s fun t => t.outs[n].st = .rising ∧ frame t))
    (s.outs[n].st = .rising → Effects (.cellRiseDone n) s fun t => t.outs[n].st = .on ∧ frame t
        ∧ t.outs[n].tok = (if s.outs[n].env = none then .none else s.outs[n].tok))
    ∧ (s.outs[n].st ≠ .rising → Effects (.cellRiseDone n) s fun t => t = begin_ s)
    ∧ (s.outs[n].st = .falling → ends (.cellFallDone n))
    ∧ (s.outs[n].st ≠ .falling → Effects (.cellFallDone n) s fun t => t = begin_ s)
    ∧ (∀ mv : Int, s.outs[n].st = .demag → -500 < mv → ends (.cellDemagEnd n mv))
    ∧ (∀ mv : Int, (s.outs[n].st ≠ .demag ∨ mv ≤ -500) → Effects (.cellDemagEnd n mv) s fun t => t = begin_ s)
    ∧ (∀ mv : Int, s.outs[n].st = .falling → mv < -1000 → Effects (.cellDemagEntry n mv) s fun t => frame t
        ∧ (¬ free → t.outs[n].st = .demag) ∧ (free → t.outs[n].st = .rising))
    ∧ (∀ mv : Int, (s.outs[n].st ≠ .falling ∨ -1000 ≤ mv) → Effects (.cellDemagEntry n mv) s fun t => t = begin_ s)
    ∧ ∀ r : Fin 7,
      (regionOn r s = true → waitingUnits r s = [outIdx n] →
        (tokensUsed r s + min (weight (outIdx n) s) (tokenBudget r s) ≤ tokenBudget r s → s.outs[n].st = .waitToken → free →
          needsTok s.outs[n] = true → isHot n s = false → Effects (.tokenGrant r) s fun t => t.outs[n].st = .rising
            ∧ t.outs[n].tok = .held (min (weight (outIdx n) s) (tokenBudget r s)) ∧ frame t)
        ∧ (tokenBudget r s < tokensUsed r s + min (weight (outIdx n) s) (tokenBudget r s) →
          Effects (.tokenGrant r) s fun t => t = begin_ s))
      ∧ ((regionOn r s = false ∨ waitingUnits r s = []) → Effects (.tokenGrant r) s fun t => t = begin_ s)
      ∧ Effects (.tokenAged r) s fun t => t.kept = { s.kept with outs := t.outs, brs := t.brs, vls := t.vls, regs := t.regs }
        ∧ (∀ i ∈ regionUnits r, tokOf i t = (match tokOf i s with
          | .waiting t0 false => .waiting t0 (decide (t0 + 20000000 ≤ s.clk.now))
          | x => x))
        ∧ (∀ i : Fin 120, i ∉ regionUnits r → tokOf i t = tokOf i s)
        ∧ (∀ m : Fin 96, t.outs[m] = { s.outs[m] with tok := t.outs[m].tok })
        ∧ (∀ k : Fin 8, t.brs[k] = { s.brs[k] with tok := t.brs[k].tok })
        ∧ (∀ v : Fin 16, t.vls[v] = { s.vls[v] with tok := t.vls[v].tok })
        ∧ ∀ q : Fin 7, t.regs[q] = { s.regs[q] with sticky := t.regs[q].sticky }

/-- PWM_PERIOD_START (R177, R180, R181), PWM_ON_PHASE_END (R177), PWM_TOKEN_REQUEST (R182) and MIRROR_WRITE (R193) of every unit that has a mirror entry. -/
def Obligations.PwmRows : Prop :=
  ∀ (n : Fin 96) (s : State),
    let c := s.outs[n]
    let st := nextPeriod n s
    let frame (t : State) : Prop := t.kept = { s.kept with outs := t.outs }
      ∧ ∀ m : Fin 96, m ≠ n → c.partner ≠ some m → t.outs[m] = s.outs[m]
    let queued (u : UnitRef) (life : BitVec 48) (host : Fin 16) (st : List Byte) (t : State) : Prop :=
      ∃ base cls idx, mirrorArea u = some (base, cls, idx) ∧
        let e := slotEntry base cls idx 10 (mirrorBody life cls idx host st) (nvView s)
        t.alm.writes = s.alm.writes ++ (if mirrored u s = some st then [] else [⟨3, e.1, e.2, 0, none⟩])
    (pwmRuns n s = true → st ≤ s.zone.time + edgeLead n s → Effects (.pwmPeriodStart n) s fun t => frame t ∧ t.outs[n].mode = c.mode
      ∧ t.outs[n].vals = c.vals
      ∧ let on := (pwmOnNs c.mode c.vals (tPMN (outClass n) (slewOf c))).1
        t.outs[n].pwm = { act := c.vals, onPhase := decide (0 < on), onEnd := st + on, perEnd := st + c.vals.period * pwmUnit c.mode,
                          waitFrom := none })
    ∧ ((pwmRuns n s = false ∨ s.zone.time + edgeLead n s < st) → Effects (.pwmPeriodStart n) s fun t => t = begin_ s)
    ∧ (pwmRuns n s = true → c.pwm.onPhase = true → c.pwm.onEnd ≤ s.zone.time + edgeLead n s →
      (c.pwm.onEnd < c.pwm.perEnd ∨ c.vals ≠ c.pwm.act ∨ c.pwm.waitFrom.isSome = true) →
      Effects (.pwmOnPhaseEnd n) s fun t => frame t ∧ t.outs[n].pwm = { c.pwm with onPhase := false }
        ∧ (c.st = .on → c.early = none → t.outs[n].st = .falling))
    ∧ ((pwmRuns n s = false ∨ c.pwm.onPhase = false ∨ s.zone.time + edgeLead n s < c.pwm.onEnd
        ∨ (c.pwm.perEnd ≤ c.pwm.onEnd ∧ c.vals = c.pwm.act ∧ c.pwm.waitFrom = none)) →
      Effects (.pwmOnPhaseEnd n) s fun t => t = begin_ s)
    ∧ (pwmRuns n s = true → c.mode = 3 → c.st = .off → c.tok = .none → inhibited n s = false → isHot n s = false →
      st ≤ s.zone.time + 50000 → 0 < c.vals.on_ → Effects (.pwmTokenRequest n) s fun t =>
        t = { begin_ s with outs := s.outs.set n { c with tok := .waiting s.clk.now false, tokDue := some st } })
    ∧ ((pwmRuns n s = false ∨ c.mode ≠ 3 ∨ c.st ≠ .off ∨ c.tok ≠ .none ∨ inhibited n s = true ∨ isHot n s = true
        ∨ s.zone.time + 50000 < st ∨ c.vals.on_ = 0) → Effects (.pwmTokenRequest n) s fun t => t = begin_ s)
    ∧ (let due := mirrorDue c.mirAt s
      (c.mirPend = true → due = true → domOn 15 s = true → Effects (.mirrorWrite (.out n)) s fun t =>
        t.outs = s.outs.set n { c with mirPend := false, mirAt := some s.clk.now } ∧ t.kept = { s.kept with outs := t.outs }
          ∧ queued (.out n) c.mirLife c.lastHost (outMirror c) t)
      ∧ (c.mirPend = true → due = true → s.dom.dom[(15 : Fin 16)].st = .off ∨ s.dom.dom[(15 : Fin 16)].st = .ret →
        s.dom.dom[(15 : Fin 16)].upAfter = false → upAllowed 15 s = true → Effects (.mirrorWrite (.out n)) s fun t => t.kept = s.kept
          ∧ t.dom.dom[(15 : Fin 16)].st = (if s.dom.dom[(15 : Fin 16)].st = .off then .offToOn else .retToOn))
      ∧ ((c.mirPend = false ∨ due = false) → Effects (.mirrorWrite (.out n)) s fun t => t = begin_ s))
    ∧ (∀ m : Fin 16,
      let k := legBridge m
      let x := s.brs[k]
      (x.mirPend = true → mirrorDue x.mirAt s = true → domOn 15 s = true → Effects (.mirrorWrite (.leg m)) s fun t =>
        t.kept = { s.kept with brs := s.brs.set k { x with mirPend := false, mirAt := some s.clk.now } }
          ∧ queued (.leg (legA k)) x.mirLife x.lastHost (brMirror x) t)
      ∧ ((x.mirPend = false ∨ mirrorDue x.mirAt s = false) → Effects (.mirrorWrite (.leg m)) s fun t => t = begin_ s))
    ∧ (∀ m : Fin 16,
      let x := s.vls[m]
      (x.mirPend = true → mirrorDue x.mirAt s = true → domOn 15 s = true → Effects (.mirrorWrite (.vl m)) s fun t =>
        t.kept = { s.kept with vls := s.vls.set m { x with mirPend := false, mirAt := some s.clk.now } }
          ∧ queued (.vl m) x.mirLife x.lastHost (vlMirror x) t)
      ∧ ((x.mirPend = false ∨ mirrorDue x.mirAt s = false) → Effects (.mirrorWrite (.vl m)) s fun t => t = begin_ s))
    ∧ ∀ m : Fin 16,
      let x := s.io.fq[m]
      (x.mirPend = true → mirrorDue x.mirAt s = true → domOn 15 s = true → Effects (.mirrorWrite (.fq m)) s fun t =>
        t.kept = { s.kept with io := { s.io with fq := s.io.fq.set m { x with mirPend := false, mirAt := some s.clk.now } } }
          ∧ queued (.fq m) x.mirLife x.lastHost (fqMirror x) t)
      ∧ ((x.mirPend = false ∨ mirrorDue x.mirAt s = false) → Effects (.mirrorWrite (.fq m)) s fun t => t = begin_ s)

/-- The two-slot entries of the output state mirror (R191 to R193, R504, Table 5-10): write, then read the newest, and what stays. -/
def Obligations.MirrorEntryReadsBack : Prop :=
  ∀ (n : Fin 96) (life : BitVec 48) (host : Fin 16) (c : OutSt) (s : State), Memory.wf s.nv →
    let t := mirrorStore (.out n) life host (outMirror c) s
    mirrored (.out n) t = some (outMirror c) ∧ Memory.wf (nvView t) ∧ t.nv = s.nv
      ∧ ∀ a : Nat, (a < 0xC0000 + 0x40 * n.val ∨ 0xC0000 + 0x40 * n.val + 0x40 ≤ a) → Mem.read (nvView t) a = Mem.read (nvView s) a

/-- OVER_CURRENT_TRIP (R199), ENVELOPE_TRIP (R205), SHORT_CIRCUIT_LIMIT (R202), THERMAL_TRIP (R215) and WIRE_MODEL_STEP (R213) with R198, R200, R216 and R218; several trips of one core cycle follow log entry 16. -/
def Obligations.ProtectionTrips : Prop :=
  ∀ (n : Fin 96) (s : State), isSecondary n s = false →
    let c := s.outs[n]
    let frame (t : State) : Prop := t.kept = { s.kept with outs := t.outs }
      ∧ ∀ m : Fin 96, m ≠ n → c.partner ≠ some m → t.outs[m] = s.outs[m]
    let tripped (bit : Nat) (t : State) : Prop := frame t ∧ t.outs[n].sticky3.getLsbD bit = true ∧ t.outs[n].tripAt = s.clk.now
      ∧ t.outs[n].trips = BitVec.ofNat 4 (2 ^ bit)
      ∧ t.outs[n].prot = (if domOn (outDomain n) s && (tripLatch c || decide (c.retry = 0)) then .latched else .offPending)
      ∧ (gateOn c = true → t.outs[n].st = .falling) ∧ t.outs[n].mode = c.mode
    let again (bit : Nat) (t : State) : Prop := frame t ∧ t.outs[n].sticky3.getLsbD bit = true
      ∧ t.outs[n].trips = c.trips ||| BitVec.ofNat 4 (2 ^ bit) ∧ t.outs[n].prot = c.prot ∧ t.outs[n].tripAt = c.tripAt
    let first : Prop := trippedNow n s = false
    let live : Prop := c.prot ≠ .latched
    let same (i : Instr) : Prop := Effects i s fun t => t = begin_ s
    (cellPowered n s = false → ∀ (mA : Nat) (tj : Int),
      same (.overCurrentTrip n mA) ∧ same (.envelopeTrip n mA) ∧ same (.shortCircuitLimit n mA) ∧ same (.thermalTrip n tj))
    ∧ (cellPowered n s = true →
      (∀ mA : Nat,
        (first → live → staticMA (outClass n) (ocStep c) < mA → (gateOn c = true ∧ c.env = none ∨ c.st = .demag) →
          Effects (.overCurrentTrip n mA) s (tripped 0))
        ∧ (trippedNow n s = true → staticMA (outClass n) (ocStep c) < mA →
          (c.tripFrom.gate = true ∧ c.tripEnv = none ∨ c.tripFrom = .demag) → Effects (.overCurrentTrip n mA) s (again 0))
        ∧ (mA ≤ staticMA (outClass n) (ocStep c) ∨ (first ∧ gateOn c = false ∧ c.st ≠ .demag) → same (.overCurrentTrip n mA))
        ∧ (∀ e, c.env = some e → first →
          (live → gateOn c = true → envLimit n c e (sinceRiseUs c s) < mA → Effects (.envelopeTrip n mA) s (tripped 1))
          ∧ (gateOn c = false ∨ mA ≤ envLimit n c e (sinceRiseUs c s) → same (.envelopeTrip n mA)))
        ∧ (∀ e, c.tripEnv = some e → trippedNow n s = true → c.tripFrom.gate = true → envLimit n c e (sinceRiseUs c s) < mA →
          Effects (.envelopeTrip n mA) s (again 1))
        ∧ (c.env = none → first → same (.envelopeTrip n mA))
        ∧ (first → gateOn c = true → isclMA (outClass n) ≤ mA → Effects (.shortCircuitLimit n mA) s fun t => frame t
          ∧ t.outs[n] = { c with limiting := true, sticky3 := c.sticky3 ||| 0x8000 })
        ∧ (mA < isclMA (outClass n) ∨ (first ∧ gateOn c = false) → same (.shortCircuitLimit n mA)))
      ∧ ∀ tj : Int,
        (first → live → 175 ≤ tj → conducting c = true → Effects (.thermalTrip n tj) s fun t => tripped 2 t ∧ t.outs[n].tj = tj)
        ∧ (first → 175 ≤ tj → conducting c = false → Effects (.thermalTrip n tj) s fun t => frame t ∧ t.outs[n].prot = c.prot
          ∧ gateOn t.outs[n] = false ∧ t.outs[n].tj = tj ∧ isHot n t = true
          ∧ (c.st = .waitToken ∨ demand c = true → ∀ t0 a, t.outs[n].tok ≠ .waiting t0 a))
        ∧ (tj < 175 → same (.thermalTrip n tj)))
    ∧ ∀ high : Bool,
      let th := thetaStep c (wireCurrent n high s)
      (domOn (outDomain n) s = false → same (.wireModelStep n high))
      ∧ (domOn (outDomain n) s = true →
        (fld c.cfg2 8 8 = 0 → Effects (.wireModelStep n high) s fun t => t = { begin_ s with outs := s.outs.set n { c with theta := 0 } })
        ∧ (fld c.cfg2 8 8 ≠ 0 → th < 2 ^ 32 ∨ (2 ^ 32 ≤ c.theta ∧ c.prot ≠ .none) → Effects (.wireModelStep n high) s fun t => frame t
          ∧ t.outs[n] = { c with theta := th, sticky3 := t.outs[n].sticky3 })
        ∧ (fld c.cfg2 8 8 ≠ 0 → 2 ^ 32 ≤ th → c.theta < 2 ^ 32 ∨ c.prot = .none → first → live →
          Effects (.wireModelStep n high) s fun t => tripped 3 t ∧ t.outs[n].theta = th)
        ∧ (fld c.cfg2 8 8 ≠ 0 → 2 ^ 32 ≤ th → c.theta < 2 ^ 32 ∨ c.prot = .none → trippedNow n s = true →
          Effects (.wireModelStep n high) s fun t => again 3 t ∧ t.outs[n].theta = th))

/-- PROTECTION_RELEASE (R216, R217), CLEAN_PERIOD_RELOAD (R217), ENVELOPE_END (R205, R206), LEARN_SPAN_END (R208, R209) and JUNCTION_COOLED (R215); what a release spends and what ends a hot hold are DEDUCED (log entry 16). -/
def Obligations.ProtectionRestart : Prop :=
  ∀ (n : Fin 96) (s : State), isSecondary n s = false →
    let c := s.outs[n]
    let frame (t : State) : Prop := t.kept = { s.kept with outs := t.outs }
      ∧ ∀ m : Fin 96, m ≠ n → c.partner ≠ some m → t.outs[m] = s.outs[m]
    let same (i : Instr) : Prop := Effects i s fun t => t = begin_ s
    let granted : Prop := c.clear = true ∧ cool n s = true
    (domOn (outDomain n) s = true →
      (c.prot ≠ .none → granted → Effects (.protectionRelease (.out n)) s fun t => frame t ∧ t.outs[n].prot = .none
        ∧ t.outs[n].clear = false ∧ t.outs[n].mode = c.mode ∧ t.outs[n].retry = c.retry)
      ∧ (c.prot = .offPending → ¬ granted → tripLatch c = false → c.retry ≠ 0 →
        (cool n s = true → Effects (.protectionRelease (.out n)) s fun t => frame t ∧ t.outs[n].prot = .none ∧ t.outs[n].mode = c.mode
          ∧ t.outs[n].retry = (if demand c && decide (retrySet c ≠ 15) then c.retry - 1 else c.retry))
        ∧ (cool n s = false → same (.protectionRelease (.out n))))
      ∧ (c.prot = .offPending → ¬ granted → (tripLatch c = true ∨ c.retry = 0) →
        Effects (.protectionRelease (.out n)) s fun t => frame t ∧ t.outs[n] = { c with prot := .latched, sticky3 := t.outs[n].sticky3 }
          ∧ t.outs[n].sticky3.getLsbD 10 = true)
      ∧ (c.prot = .latched → ¬ granted → same (.protectionRelease (.out n))))
    ∧ ((domOn (outDomain n) s = false ∨ c.prot = .none) → same (.protectionRelease (.out n)))
    ∧ (let ns := if c.mode != 0 && c.prot == .none && domOn (outDomain n) s then c.cleanNs + (s.clk.now - c.cleanAt) else c.cleanNs
      Effects (.cleanPeriodReload (.out n)) s fun t => t = { begin_ s with outs := s.outs.set n (if 60000000000 ≤ ns
        then { c with cleanNs := 0, cleanAt := s.clk.now, retry := retrySet c } else { c with cleanNs := ns, cleanAt := s.clk.now }) })
    ∧ (∀ e, c.env = some e →
      (gateOn c = true → envEnd e * 1000 ≤ s.clk.now - c.riseAt → Effects (.envelopeEnd n) s fun t => frame t
        ∧ t.outs[n] = { c with env := none, tok := .none })
      ∧ (gateOn c = false ∨ s.clk.now - c.riseAt < envEnd e * 1000 → same (.envelopeEnd n)))
    ∧ (c.env = none → same (.envelopeEnd n))
    ∧ (∀ peaks : List Nat,
      let top := (List.range 10).map fun i => max (c.peaks.getD i 0) (peaks.getD i 0)
      let codes := top.map (windowCode n c)
      let e := slotEntry (learnArea n) 1 n.val 10 (be 6 s.clk.life.toNat ++ be 1 1 ++ be 1 n.val ++ be 1 (outClass n + 4 * ocStep c) ++ be 1 0
        ++ codes.map (BitVec.ofNat 8) ++ be 4 0) (nvView s)
      (c.learnRun = true → gateOn c = true → envMode c = 3 → 128000000 ≤ s.clk.now - c.riseAt →
        (c.learn < 7 → Effects (.learnSpanEnd n peaks) s fun t => frame t
          ∧ t.outs[n] = { c with learnRun := false, learn := c.learn + 1, peaks := top })
        ∧ (7 ≤ c.learn → Effects (.learnSpanEnd n peaks) s fun t => frame t ∧ envMode t.outs[n] = 2 ∧ t.outs[n].learned = some codes
          ∧ t.outs[n].learnRun = false ∧ t.alm.writes = s.alm.writes ++ [⟨5, e.1, e.2, 0, none⟩]))
      ∧ (c.learnRun = false ∨ gateOn c = false ∨ envMode c ≠ 3 ∨ s.clk.now - c.riseAt < 128000000 → same (.learnSpanEnd n peaks)))
    ∧ ∀ tj : Int,
      (tj < 150 → cellPowered n s = true → c.st = .waitToken → c.tok = .none → (∀ m, c.partner = some m → s.outs[m].hotHold = false) →
        inhibited n s = false → demand c = true → needsTok c = true → Effects (.junctionCooled n tj) s fun t =>
          t = { begin_ s with outs := s.outs.set n { c with tj := tj, hotHold := false, tok := .waiting s.clk.now false } })
      ∧ (tj < 150 → cellPowered n s = true → Effects (.junctionCooled n tj) s fun t => frame t ∧ t.outs[n].tj = tj ∧ t.outs[n].hotHold = false)
      ∧ (150 ≤ tj ∨ cellPowered n s = false → same (.junctionCooled n tj))

/-- PROT_CONFIG (R223), LATCH_CLEAR (R220) and ENVELOPE_LEARN (R208, R212, R224) on one cell; what LATCH_CLEAR does in NONE is DEDUCED (log entry 16). -/
def Obligations.ProtectionPackets : Prop :=
  ∀ (p : Packet) (s : State) (n : Fin 96), outMask p.payload = [.out n] →
    let b := p.payload
    let c := s.outs[n]
    let frame (t : State) : Prop := t.kept = { s.kept with outs := t.outs }
      ∧ ∀ m : Fin 96, m ≠ n → c.partner ≠ some m → t.outs[m] = s.outs[m]
    let one (st d : Half) (o : Byte) : Ans := ⟨st, d, be 2 1 ++ [o]⟩
    let refused (i : Instr) (op : Half) (st : Half) (o : Byte) : Prop := Answers i op p s fun a t => a = one st 0 o ∧ Entered (begin_ s) t
    (b.length = 24 → opProtConfig.resOk b = true → AtHead 0x0300 (.out n) [outDomain n] p s →
      let w := numAt b 12 2
      (isSecondary n s = true → refused (.protConfig p) 0x0300 0x0240 0x13)
      ∧ (isSecondary n s = false → protRange (outClass n) w (wordAt b 16) (wordAt b 20) = true →
        Answers (.protConfig p) 0x0300 p s fun a t => a = one 0 0 0 ∧ frame t
          ∧ t.outs[n] = { c with cfg1 := merge c.cfg1 (wordAt b 16) (protMask1 w), cfg2 := merge c.cfg2 (wordAt b 20) (protMask2 w),
                                 retry := if w.testBit 2 then fld (wordAt b 16) 24 4 else c.retry,
                                 learned := if w.testBit 4 && fld (wordAt b 16) 18 2 == 2 then learnedCodes n (nvView s) else c.learned,
                                 sticky3 := t.outs[n].sticky3 })
      ∧ (isSecondary n s = false → protRange (outClass n) w (wordAt b 16) (wordAt b 20) = false → refused (.protConfig p) 0x0300 0x0340 0x20))
    ∧ (b.length = 16 → zeroAt [13, 14, 15] b = true → (byteAt b 12).toNat ≤ 1 → AtHead 0x0301 (.out n) [outDomain n] p s →
      let held (t : State) : Prop := frame t ∧ t.outs[n].mode = (if byteAt b 12 = 1 then 0 else c.mode) ∧ t.outs[n].retry = retrySet c
      (isSecondary n s = true → refused (.latchClear p) 0x0301 0x0240 0x13)
      ∧ (isSecondary n s = false →
        (c.prot = .none → Answers (.latchClear p) 0x0301 p s fun a t => a = one 0 2 0x21 ∧ held t ∧ t.outs[n].prot = .none)
        ∧ (c.prot ≠ .none → cool n s = true → Answers (.latchClear p) 0x0301 p s fun a t => a = one 0 0 0 ∧ held t
            ∧ t.outs[n].prot = .none)
        ∧ (c.prot ≠ .none → cool n s = false → Answers (.latchClear p) 0x0301 p s fun a t => a = one stDeferred 0 0x22 ∧ held t
            ∧ t.outs[n].prot = (if c.prot = .latched ∨ tripLatch c = true ∨ retrySet c = 0 then .latched else .offPending)
            ∧ t.outs[n].clear = true ∧ t.outs[n].clearFor = p.host ∧ t.outs[n].sticky2.getLsbD 6 = true)))
    ∧ (b.length = 16 → zeroAt [13, 14, 15] b = true → (byteAt b 12).toNat ≤ 2 → AtHead 0x0302 (.out n) [outDomain n] p s →
      (isSecondary n s = true → refused (.envelopeLearn p) 0x0302 0x0240 0x13)
      ∧ (isSecondary n s = false →
        (byteAt b 12 = 0 → fld c.cfg1 0 8 ≠ 0 → Answers (.envelopeLearn p) 0x0302 p s fun a t => a = one 0 0 0 ∧ frame t
            ∧ t.outs[n] = { c with cfg1 := setFld c.cfg1 18 2 3, learn := 0, learnRun := false, peaks := [],
                                   envBefore := if envMode c = 3 then c.envBefore else envMode c })
        ∧ (byteAt b 12 = 0 → fld c.cfg1 0 8 = 0 → refused (.envelopeLearn p) 0x0302 0x0341 0x23)
        ∧ (byteAt b 12 = 1 → envMode c = 3 → Answers (.envelopeLearn p) 0x0302 p s fun a t => a = one 0 0 0 ∧ frame t
            ∧ envMode t.outs[n] = c.envBefore ∧ t.outs[n].learnRun = false
            ∧ t.outs[n] = { c with cfg1 := t.outs[n].cfg1, learnRun := false, sticky3 := t.outs[n].sticky3 })
        ∧ ((byteAt b 12 = 1 ∧ envMode c ≠ 3) ∨ (byteAt b 12 = 2 ∧ learnedCodes n (nvView s) = none) → refused (.envelopeLearn p) 0x0302 0 0)
        ∧ (byteAt b 12 = 2 → (learnedCodes n (nvView s)).isSome = true → Answers (.envelopeLearn p) 0x0302 p s fun a t => a = one 0 0 0
            ∧ frame t ∧ t.outs[n] = { c with learned := none, sticky3 := t.outs[n].sticky3 }
            ∧ t.alm.writes = s.alm.writes ++ [⟨5, learnArea n, be 64 0, 0, none⟩])))

/-- REGION_CONFIG (R244, R259), PRUNE_CLASS_SET (R256) and MODULE_BUDGET (R258). -/
def Obligations.RegionPackets : Prop :=
  ∀ (p : Packet) (s : State),
    let b := p.payload
    (∀ r : Fin 7, b.length = 12 → opRegionConfig.resOk b = true → byteAt b 0 = BitVec.ofNat 8 (2 ^ r.val) → AtHead 0x0400 (.region r) [] p s →
      let w := numAt b 2 2
      let c1 := merge s.regs[r].cfg1 (wordAt b 4) (maskOf w [(0, 23, 9), (1, 14, 9), (2, 5, 9), (3, 2, 3)])
      let c2 := merge s.regs[r].cfg2 (wordAt b 8) (maskOf w [(4, 24, 8), (5, 16, 8), (6, 8, 8), (7, 4, 4)])
      (regionOk w c1 c2 = true → Answers (.regionConfig p) 0x0400 p s fun a t => a = ⟨0, 0, be 2 1 ++ [0]⟩
        ∧ t.regs = s.regs.set r { s.regs[r] with cfg1 := c1, cfg2 := c2 } ∧ t.kept = { s.kept with regs := t.regs })
      ∧ (regionOk w c1 c2 = false → Answers (.regionConfig p) 0x0400 p s fun a t => a = ⟨0x0440, 0, be 2 1 ++ [0x30]⟩ ∧ Entered (begin_ s) t))
    ∧ (∀ i : Fin 120, b.length = 20 → opPruneClassSet.resOk b = true → numAt b 0 15 = 2 ^ i.val → governed i s = true →
      AtHead 0x0401 (idxUnit i) (unitDomain (idxUnit i)).toList p s → Answers (.pruneClassSet p) 0x0401 p s fun a t =>
        a = ⟨0, 0, be 2 1 ++ [0]⟩ ∧ t.prune[i].cls = BitVec.ofNat 2 (byteAt b 15).toNat
          ∧ (∀ k : Fin 120, k ≠ i → t.prune[k].cls = s.prune[k].cls) ∧ (∀ q : Fin 7, q ≠ idxRegion i → t.regs[q] = s.regs[q])
          ∧ (∀ k : Fin 120, k ∉ regionUnits (idxRegion i) → t.prune[k] = s.prune[k])
          ∧ t.kept = { s.kept with prune := t.prune, regs := t.regs, outs := t.outs, brs := t.brs, legs := t.legs, vls := t.vls, vhs := t.vhs })
    ∧ (∀ n : Fin 96, b.length = 20 → opPruneClassSet.resOk b = true → numAt b 0 15 = 2 ^ n.val → isSecondary n s = true →
      AtHead 0x0401 (.out n) [outDomain n] p s → Answers (.pruneClassSet p) 0x0401 p s fun a t =>
        a = ⟨0x0240, 0, be 2 1 ++ [0x13]⟩ ∧ Entered (begin_ s) t)
    ∧ (b.length = 4 → zeroAt [1, 2, 3] b = true → AtHead 0x0402 .chip [] p s →
      (20 ≤ (byteAt b 0).toNat → (byteAt b 0).toNat ≤ 120 → Answers (.moduleBudget p) 0x0402 p s fun a t => a = .ok
        ∧ Acted s (fun u => { u with modb := { s.modb with pmax := (byteAt b 0).toNat } }) t)
      ∧ (((byteAt b 0).toNat < 20 ∨ 120 < (byteAt b 0).toNat) → Answers (.moduleBudget p) 0x0402 p s fun a t =>
          a = .err 0x0440 ∧ Entered (begin_ s) t))

/-- SUPPLY_LEVEL_SET and SUPPLY_LEVEL_CLEAR (R243), UNDERVOLTAGE_OFF and UNDERVOLTAGE_RESTORE (R245), RESTORE_RELEASE (R255, R257), THERMAL_ROUND (R246 to R249), THERMAL_LEVEL_CLEAR (R249), DISSIPATION_ESTIMATE (R251), BUDGET_STEP (R252) and MODULE_BUDGET_STEP (R253); averages and regions 5 and 6 follow log entry 17. -/
def Obligations.SupplyAndHeatRows : Prop :=
  (∀ (r : Fin 7) (s : State),
    let reading (mV : Nat) (t : State) : Prop := t = setVs r mV (begin_ s)
    let frame (t : State) : Prop := (∀ q : Fin 7, q ≠ r → t.regs[q] = s.regs[q])
      ∧ t.kept = { s.kept with prune := t.prune, regs := t.regs, outs := t.outs, brs := t.brs, legs := t.legs, vls := t.vls, vhs := t.vhs }
    (∀ (l : Fin 3) (mV us : Nat),
      (mV < pruneMV s.regs[r].cfg1 l → pruneFilter s.regs[r].cfg1 ≤ us * 1000 → Effects (.supplyLevelSet r l ⟨mV, us⟩) s fun t => frame t
        ∧ t.regs[r].vs = mV ∧ t.regs[r].level = s.regs[r].level ||| BitVec.ofNat 3 (2 ^ (l.val + 1) - 1))
      ∧ (pruneMV s.regs[r].cfg1 l ≤ mV ∨ us * 1000 < pruneFilter s.regs[r].cfg1 → Effects (.supplyLevelSet r l ⟨mV, us⟩) s (reading mV))
      ∧ (pruneMV s.regs[r].cfg1 l + 500 ≤ mV → 10000 ≤ us → Effects (.supplyLevelClear r l ⟨mV, us⟩) s fun t => frame t
        ∧ t.regs[r].vs = mV ∧ t.regs[r].level = s.regs[r].level &&& ~~~ BitVec.ofNat 3 (2 ^ l.val))
      ∧ (mV < pruneMV s.regs[r].cfg1 l + 500 ∨ us < 10000 → Effects (.supplyLevelClear r l ⟨mV, us⟩) s (reading mV)))
    ∧ (∀ mV us : Nat,
      (mV < 3500 → s.regs[r].uv = false → Effects (.undervoltageOff r mV) s fun t => t.regs[r].vs = mV ∧ t.regs[r].uv = true
        ∧ t.regs[r].uvAt = s.clk.now ∧ t.regs[r].uvLow = mV ∧ frame t
        ∧ (∀ i ∈ regionUnits r, governed i s = true → idxUvOff i t = true)
        ∧ ∀ n : Fin 96, outRegion n = r → isSecondary n s = false → gateOn t.outs[n] = false)
      ∧ (mV < 3500 → s.regs[r].uv = true → Effects (.undervoltageOff r mV) s fun t =>
          t = modReg r (fun x => { x with uvLow := min x.uvLow mV }) (setVs r mV (begin_ s)))
      ∧ (3500 ≤ mV → Effects (.undervoltageOff r mV) s (reading mV))
      ∧ (4000 ≤ mV → s.regs[r].uv = true → 10000 ≤ us →
        Effects (.undervoltageRestore r ⟨mV, us⟩) s fun t => t.regs[r].uv = false ∧ t.regs[r].vs = mV ∧ t.regs[r].lowAt = none ∧ frame t
          ∧ ∀ i ∈ regionUnits r, governed i s = true → idxUvOff i s = true → s.prune[i].pruned = false → i ∈ t.regs[r].restore)
      ∧ ((mV < 4000 ∨ s.regs[r].uv = false ∨ us < 10000) → Effects (.undervoltageRestore r ⟨mV, us⟩) s (reading mV)))
    ∧ (∀ i, nextRestore r s = some i →
      let due := s.regs[r].releaseAt.all (fun t => decide (t + 100000 ≤ s.clk.now))
      (regionOn r s = true → s.regs[r].uv = false → due = true → Effects (.restoreRelease r) s fun t => i ∉ t.regs[r].restore
        ∧ t.regs[r].restore = s.regs[r].restore.filter (· ≠ i) ∧ t.regs[r].releaseAt = some s.clk.now ∧ t.prune[i].pruned = false
        ∧ (∀ k : Fin 120, k ≠ i → t.prune[k] = s.prune[k]) ∧ idxUvOff i t = false ∧ frame t)
      ∧ ((regionOn r s = false ∨ s.regs[r].uv = true ∨ due = false) → Effects (.restoreRelease r) s fun t => t = begin_ s))
    ∧ (nextRestore r s = none → Effects (.restoreRelease r) s fun t => t = begin_ s))
  ∧ (∀ (r : Fin 7) (s : State),
    let x := s.regs[r]
    let frame (t : State) : Prop := (∀ q : Fin 7, q ≠ r → t.regs[q] = s.regs[q])
      ∧ t.kept = { s.kept with prune := t.prune, regs := t.regs, outs := t.outs, brs := t.brs, legs := t.legs, vls := t.vls, vhs := t.vhs }
    (∀ temps : List Int,
      (regionOn r s = true → Effects (.thermalRound r temps) s fun t => t.regs[r].temps = temps ∧ t.regs[r].hotValid = true
        ∧ (t.regs[r].hot, t.regs[r].hotIdx) = hotSpot r temps t.regs[r].invalid (thermLimit x)
        ∧ t.regs[r].therm = x.therm ||| thermLevels t.regs[r].hot (thermLimit x) ∧ x.invalid <+: t.regs[r].invalid
        ∧ frame t)
      ∧ (regionOn r s = false → Effects (.thermalRound r temps) s fun t => t = begin_ s))
    ∧ (∀ l : Fin 3,
      (∀ t0, x.coolAt[l] = some t0 → regionOn r s = true → x.therm.getLsbD l.val = true → t0 + 1000000000 ≤ s.clk.now →
        Effects (.thermalLevelClear r l) s fun t => t.regs[r].therm = x.therm &&& ~~~ BitVec.ofNat 3 (2 ^ l.val) ∧ frame t)
      ∧ (regionOn r s = false ∨ x.coolAt[l].any (fun t0 => decide (t0 + 1000000000 ≤ s.clk.now)) = false ∨ x.therm.getLsbD l.val = false →
        Effects (.thermalLevelClear r l) s fun t => t = begin_ s))
    ∧ Effects (.dissipationEstimate r) s (fun t => t = if regionOn r s
        then { begin_ s with regs := s.regs.set r { x with samples := addSample (estimate r s).1 (estimate r s).2 x.samples } } else begin_ s)
    ∧ (r.val < 5 →
      let over_ := decide (pmaxMW x < powerAvg x) || decide (imaxMA x < currentAvg x)
      let low := decide (10 * powerAvg x < 8 * pmaxMW x) && decide (10 * currentAvg x < 8 * imaxMA x)
      Effects (.budgetStep r) s fun t => (t.regs[r].budget, t.regs[r].budgetAt, t.regs[r].budgetLow)
          = budgetRule over_ low x.budget x.budgetAt x.budgetLow s.clk.now ∧ frame t)
    ∧ (5 ≤ r.val → Effects (.budgetStep r) s fun t => t = begin_ s)
    ∧ ∀ own : Nat,
      let p := ((List.range 5).map fun r => powerAvg s.regs[(Fin.ofNat 7 r : Fin 7)]).sum + own
      let b := budgetRule (decide (s.modb.pmax * 250 < p)) (decide (10 * p < 8 * (s.modb.pmax * 250))) s.modb.stage s.modb.at_ s.modb.lowAt s.clk.now
      Effects (.moduleBudgetStep own) s fun t =>
        t.kept = { s.kept with modb := t.modb, prune := t.prune, regs := t.regs, outs := t.outs, brs := t.brs, legs := t.legs, vls := t.vls, vhs := t.vhs }
        ∧ t.modb = { s.modb with own := own, pavg := p, stage := b.1, at_ := b.2.1, lowAt := b.2.2 })

/-- FAULT_INJECT (R519 to R521), FAULT_CLEAR (R522), INJECTION_ARM (R521), INJECTION_DURATION_END (R520) and an injected SUPPLY_CROSSCHECK_FAULT; DURATION, a block out of range and arming without a reply follow log entry 33. -/
def Obligations.FaultInjection : Prop :=
  ∀ (p : Packet) (s : State),
    let b := p.payload
    let bn := numAt b 1 1
    let mode := numAt b 2 1
    let ms := numAt b 4 2
    let k : Fin 25 := Fin.ofNat 25 bn
    let c : BitVec 6 := BitVec.ofNat 6 (numAt b 0 1)
    let said (i : Instr) (op : Half) (x : Ans) : Prop := Answers i op p s fun a t => a = x ∧ Entered (begin_ s) t
    (b.length = 8 → zeroAt [6, 7] b = true → (injAny 1 p = [] ∨ ∃ d ∈ injAny 1 p, domOn d s = true) →
      AtHead 0x1000 .chip (injDoms 1 p) p s → mode ≤ 2 →
      let fits : Prop := bn < 25 ∧ checkerIn (numAt b 0 1) bn = true ∧ targetOk (numAt b 0 1) k (numAt b 3 1) = true
        ∧ (mode = 1 → contChecker (numAt b 0 1) = true ∧ 1 ≤ ms ∧ ms ≤ 10000)
      ((p.host = 11 ∨ p.host = 12) → said (.faultInject p) 0x1000 (.err stBadParam))
      ∧ (p.host ≠ 11 → p.host ≠ 12 →
        (mode ≤ 1 → ¬ fits → said (.faultInject p) 0x1000 (.err 0x1040))
        ∧ (mode ≤ 1 → fits → s.flt.inject ≠ none → said (.faultInject p) 0x1000 (.err 0x1041))
        ∧ (mode ≤ 1 → fits → s.flt.inject = none → inForce k c s = true → said (.faultInject p) 0x1000 (.err 0x1042))
        ∧ (mode ≤ 1 → fits → s.flt.inject = none → inForce k c s = false →
          Answers (.faultInject p) 0x1000 p s fun a t => a = .ok ∧ t.kept = s.kept ∧ t.flt.injSticky.getLsbD 0 = true
            ∧ t.flt.inject = some { checker := c, block := k, cont := decide (mode = 1), target := numAt b 3 1
                                    endAt := s.clk.now + ms * 1000000
                                    armWait := fatalChecker c && p.replyWanted && takesReply p.host
                                    armAt := if fatalChecker c && !(p.replyWanted && takesReply p.host) then some (s.clk.now + 100000) else none
                                    fired := 0 })
        ∧ (mode = 2 → Answers (.faultInject p) 0x1000 p s fun a t => a = .ok ∧ t.flt.inject = none
            ∧ t.kept = { s.kept with regs := t.regs }
            ∧ ((∀ j, s.flt.inject = some j → j.cont = false) → t.regs = s.regs)
            ∧ (∀ j, s.flt.inject = some j → j.cont = false → t.flt.injSticky.getLsbD 1 = true))))
    ∧ (b.length = 4 → zeroAt [1, 2, 3] b = true → (injAny 0 p = [] ∨ ∃ d ∈ injAny 0 p, domOn d s = true) →
      AtHead 0x1001 .chip (injDoms 0 p) p s →
      let f : Fin 25 := Fin.ofNat 25 (numAt b 0 1)
      ((p.host = 11 ∨ p.host = 12 ∨ 25 ≤ numAt b 0 1) → said (.faultClear p) 0x1001 (.err stBadParam))
      ∧ (p.host ≠ 11 → p.host ≠ 12 → numAt b 0 1 < 25 →
        (inForce f 1 s = false → said (.faultClear p) 0x1001 ⟨0, 1, []⟩)
        ∧ (inForce f 1 s = true → Begins (.faultClear p) s fun q t => q.pkt = { p with opcode := 0x1001 } ∧ t.kept = s.kept
          ∧ t.flt = { s.flt with clear := s.flt.clear ++ [(q, f, 2)] })))
    ∧ (∀ j, s.flt.inject = some j →
      Effects .injectionArm s (fun t => t = if j.armAt.any (fun t => decide (t ≤ s.clk.now))
          then { begin_ s with flt := { s.flt with inject := some { j with armAt := none } } } else begin_ s)
      ∧ (j.cont = true → j.endAt ≤ s.clk.now → Effects .injectionDurationEnd s fun t => t.flt.inject = none
          ∧ t.kept = { s.kept with regs := t.regs })
      ∧ ((j.cont = false ∨ s.clk.now < j.endAt) → Effects .injectionDurationEnd s fun t => t = begin_ s)
      ∧ ∀ (r : Fin 7) (mV : Nat), armed j = true → j.checker = 2 → j.block = regionBlock r → 3 ≤ s.boot.phase →
        inForce (regionBlock r) 2 s = false → Effects (.supplyCrosscheckFault r mV) s fun t => inForce (regionBlock r) 2 t = true
          ∧ t.flt.inject = (if j.cont then some { j with fired := j.fired + 1 } else none))
    ∧ (s.flt.inject = none → Effects .injectionArm s (fun t => t = begin_ s) ∧ Effects .injectionDurationEnd s fun t => t = begin_ s)

/-- ADC_SLOT (R187, R513), ECC_ERROR (R513), FATAL_FAULT (R516, R517), SUPPLY_CROSSCHECK_FAULT, SUPPLY_CROSSCHECK_RECOVER and ENTROPY_HEALTH_FAIL (R513, R514). A row of a slot that is not due and the rounding to 12 bits follow log entry 8, the fault classes between the rules log entry 33. -/
def Obligations.FaultRows : Prop :=
  ∀ s : State, s.flt.inject.any armed = false →
    let same (i : Instr) : Prop := Effects i s fun t => t = begin_ s
    (∀ (b : Fin 25) (i : Fin 16) (uA mV tj vs : Int),
      let row : Instr := .adcSlot b (.cell i uA mV tj vs)
      let d := dueSlot b s
      ((adcRuns b s = false ∨ 16 ≤ b.val ∨ (d.1 ≠ .current i.val ∧ d.1 ≠ .voltage i.val)) → same row)
      ∧ (adcRuns b s = true → b.val < 12 →
        let n : Fin 96 := blockCell b i.val
        let c := s.outs[n]
        let cell (t : State) : Prop := t.kept = { s.kept with outs := t.outs, adc := t.adc } ∧ t.outs[n].tj = tj
          ∧ (∀ m : Fin 96, m ≠ n → primary n s ≠ m → s.outs[primary n s].partner ≠ some m → t.outs[m] = s.outs[m])
          ∧ (c.hotHold = false ∨ 150 ≤ tj → t.outs[n].st = c.st)
        let wait : Prop := d = (.current i.val, false) ∧ pwmCell n s = true ∧ inOnPhase n s = false
        let range := if rangeOf c = 0 then c.rb.next else rangeOf c - 1
        let fs : Int := (fullScale (outClass n) range : Nat)
        (wait → Effects row s fun t => t = modSeq b (fun q => { q with waits := (i.val, s.clk.now + 10000000) :: q.waits.filter (·.1 ≠ i.val) })
          (slotDone b d.1 d.2 (begin_ s)))
        ∧ (¬ wait → d.1 = .current i.val → Effects row s fun t => cell t ∧ t.outs[n].rb.timeI = s.clk.now ∧ t.outs[n].rb.gotI = true
          ∧ t.outs[n].rb.range = range ∧ t.outs[n].rb.over_ = decide (fs ≤ uA)
          ∧ t.outs[n].rb.current = (if fs ≤ uA then fs else converted (fullScale (outClass n) range) uA))
        ∧ (d.1 = .voltage i.val → Effects row s fun t => cell t ∧ t.outs[n].rb.timeV = s.clk.now ∧ t.outs[n].rb.gotV = true
          ∧ t.outs[n].rb.vout = mV))
      ∧ (adcRuns b s = true → 12 ≤ b.val → b.val < 14 →
        let n : Fin 16 := Fin.ofNat 16 (8 * (b.val - 12) + i.val)
        let x := s.brs[legBridge n]
        let m := if n.val % 2 = 0 then (legModes x).1 else (legModes x).2
        let leg (t : State) : Prop := t.kept = { s.kept with brs := t.brs, legs := s.legs.set n { s.legs[n] with tj := tj }, adc := t.adc }
        (d.1 = .current i.val → Effects row s fun t => leg t ∧ t.brs = (if m = 0 ∨ m = 2
            then s.brs.set (legBridge n) { x with current := uA / 1000, timeI := some s.clk.now } else s.brs))
        ∧ (d.1 = .voltage i.val → Effects row s fun t => leg t ∧ t.brs = s.brs.set (legBridge n) (if n.val % 2 = 0
            then { x with va := mV, timeA := some s.clk.now } else { x with vb := mV, timeB := some s.clk.now })))
      ∧ (adcRuns b s = true → 14 ≤ b.val → b.val < 16 →
        let n : Fin 16 := Fin.ofNat 16 (8 * (b.val - 14) + i.val)
        let g : Fin 4 := Fin.ofNat 4 (2 * (b.val - 14) + (i.val - 8))
        (d.1 = .voltage i.val → i.val < 8 → Effects row s fun t => t.kept = { s.kept with vls := t.vls, adc := t.adc }
          ∧ t.vls[n].volt = mV ∧ t.vls[n].tj = tj ∧ t.vls[n].timeV = some s.clk.now ∧ t.vls[n].st = s.vls[n].st
          ∧ ∀ m : Fin 16, m ≠ n → t.vls[m] = s.vls[m])
        ∧ (d.1 = .voltage i.val → 8 ≤ i.val → Effects row s fun t => t.kept = { s.kept with
            vhs := s.vhs.set g { s.vhs[g] with volt := mV, tj := tj, timeV := some s.clk.now }, adc := t.adc })
        ∧ (d.1 = .current i.val → 8 ≤ i.val → Effects row s fun t => t.kept = { s.kept with
            vhs := s.vhs.set g { s.vhs[g] with current := uA / 1000, tj := tj, timeI := some s.clk.now }, adc := t.adc })))
    ∧ (∀ (b : Fin 25) (ok : Bool),
      (adcRuns b s = true → b.val < 16 → dueSlot b s = (.pump, false) → Effects (.adcSlot b (.chargePump ok)) s fun t =>
        t = slotDone b .pump false (begin_ s))
      ∧ ((adcRuns b s = false ∨ 16 ≤ b.val ∨ dueSlot b s ≠ (.pump, false)) → same (.adcSlot b (.chargePump ok))))
    ∧ (∀ b : Fin 25, hasAdc b = true → domOn (blockDomain b) s = true →
      let x := s.flt.blocks[b]
      (inForce b 1 s = false → (b.val = 17 ∨ dueSlot b s = (.selfCheck, false)) →
        (x.selfFail = false → Effects (.adcSlot b (.selfCheck false)) s fun t =>
          t.flt.blocks[b] = { x with selfFail := true, selfInj := false } ∧ t.adc[b] = [] ∧ t.net = (begin_ s).net)
        ∧ (x.selfFail = true → Effects (.adcSlot b (.selfCheck false)) s fun t =>
          inForce b 1 t = true ∧ t.flt.blocks[b].selfFail = false ∧ t.adc[b] = [] ∧ t.net = (begin_ s).net)
        ∧ ((s.flt.clear.any fun y => y.2.1 = b) = false → Effects (.adcSlot b (.selfCheck true)) s fun t =>
          inForce b 1 t = false ∧ t.flt.blocks[b].selfFail = false ∧ t.kept = { s.kept with adc := s.adc.set b [] }))
      ∧ (inForce b 1 s = false → b.val ≠ 17 → dueSlot b s ≠ (.selfCheck, false) → ∀ ok, same (.adcSlot b (.selfCheck ok)))
      ∧ (inForce b 1 s = true → (s.flt.clear.any fun y => y.2.1 = b) = false → ∀ ok, same (.adcSlot b (.selfCheck ok)))
      ∧ (∀ q m, inForce b 1 s = true → s.flt.clear.find? (fun y => y.2.1 = b) = some (q, b, m) →
        (2 ≤ m → Effects (.adcSlot b (.selfCheck true)) s fun t =>
          t = { begin_ s with flt := { s.flt with clear := s.flt.clear.filter (fun y => y.2.1 ≠ b) ++ [(q, b, m - 1)] } })
        ∧ (m ≤ 1 → ∃ t, exec (.adcSlot b (.selfCheck true)) s = .next (conclude (complete q .ok t)) ∧ inForce b 1 t = false
            ∧ t.flt.clear = s.flt.clear.filter (fun y => y.2.1 ≠ b) ∧ t.kept = s.kept)
        ∧ ∃ t, exec (.adcSlot b (.selfCheck false)) s = .next (conclude (complete q (.err stContained) t)) ∧ inForce b 1 t = true
            ∧ t.flt.clear = s.flt.clear.filter (fun y => y.2.1 ≠ b) ∧ t.kept = s.kept))
    ∧ ((∀ place double, s.boot.phase < 4 → same (.eccError place double))
      ∧ (4 ≤ s.boot.phase →
        (∀ place, Effects (.eccError place false) s fun t => t.kept = s.kept ∧ t.flt.blocks[eccBlock place].corrected.toNat
            = min 255 (s.flt.blocks[eccBlock place].corrected.toNat + 1))
        ∧ (∀ a, Effects (.eccError (.nonVolatile a) true) s fun t => t.kept = { s.kept with nv := loseLine a s.nv })
        ∧ (∀ d, Effects (.eccError (.domainImage d) true) s fun t => t.kept = s.kept ∧ t.dom.dom[d].imageBad = true)
        ∧ (∀ place, place = .switchSram ∨ place = .keySram ∨ place = .stagingSram ∨ place = .trellisSram →
          Effects (.eccError place true) s fun t => t.kept = { s.kept with net := t.kept.net }
            ∧ t.flt.blocks[eccBlock place].sticky.getLsbD 1 = true)))
    ∧ (∀ row : Instr, ∀ checker : BitVec 6, (row = .fatalFault checker ∧ fatalChecker checker = true ∧ s.dom.root = true)
        ∨ (row = .eccError .engineSram true ∧ checker = 0x12 ∧ 4 ≤ s.boot.phase) →
      let gone (t : State) : Prop := t.cmd.ready = false ∧ t.cmd.waiting = [] ∧ t.cmd.sched = [] ∧ t.flt.lastFatal = checker ∧ t.io = s.io
        ∧ (∀ n : Fin 96, t.outs[n].mode = s.outs[n].mode ∧ t.outs[n].prot = s.outs[n].prot)
        ∧ ((∀ n : Fin 96, s.outs[n].staged = false ∧ s.outs[n].early = none) → t.outs = s.outs)
      let recent := s.flt.fatals.filter fun t => decide (s.clk.life.toNat < t.toNat + tenSec)
      (s.boot.condition ≠ 1 → s.boot.condition ≠ 3 → recent.length < 2 → Effects row s fun t => gone t ∧ t.boot.condition = 2 ∧ t.boot.phase = 5)
      ∧ (s.boot.condition = 1 → recent.length < 2 → Effects row s fun t => t.kept = s.kept ∧ t.flt.lastFatal = checker ∧ t.cmd = (begin_ s).cmd)
      ∧ (s.boot.condition ≠ 3 → 2 ≤ recent.length → Effects row s fun t => gone t ∧ t.boot.condition = 3 ∧ t.flt.fatalCount = 3)
      ∧ (s.boot.condition = 3 → same row))
    ∧ (∀ checker : BitVec 6, (fatalChecker checker = false ∨ s.dom.root = false) → same (.fatalFault checker))
    ∧ (∀ r : Fin 7,
      (∀ mV, 3 ≤ s.boot.phase → inForce (regionBlock r) 2 s = false → 500 < mV → Effects (.supplyCrosscheckFault r mV) s fun t =>
        inForce (regionBlock r) 2 t = true
          ∧ t.kept = { s.kept with regs := s.regs.set r { s.regs[r] with crossBad := true, crossAt := some s.clk.now } })
      ∧ (∀ mV, (s.boot.phase < 3 ∨ mV ≤ 500 ∨ inForce (regionBlock r) 2 s = true) → same (.supplyCrosscheckFault r mV))
      ∧ (inForce (regionBlock r) 2 s = true → s.regs[r].crossAt.all (fun t => decide (t + 1000000000 ≤ s.clk.now)) = true →
        Effects (.supplyCrosscheckRecover r) s fun t => inForce (regionBlock r) 2 t = false
          ∧ t.kept = { s.kept with regs := s.regs.set r { s.regs[r] with crossBad := false, crossAt := none } })
      ∧ (inForce (regionBlock r) 2 s = false ∨ s.regs[r].crossAt.all (fun t => decide (t + 1000000000 ≤ s.clk.now)) = false →
        same (.supplyCrosscheckRecover r)))
    ∧ (domOn 14 s = true → Effects .entropyHealthFail s fun t => t.flt.entropyBad = true ∧ inForce 22 0x18 t = true ∧ t.kept = s.kept)
    ∧ (domOn 14 s = false → same .entropyHealthFail)

/-- BR_MOVE (R267, R285), BR_CONFIG (R286), BR_READ, BR_CLEAR and BR_POSITION (R270, R287) and BR_LEARN (R278) on one bridge; what a reversal defers is DEDUCED (log entry 19). -/
def Obligations.BridgePackets : Prop :=
  ∀ (p : Packet) (s : State) (k : Fin 8),
    let b := p.payload
    let x := s.brs[k]
    let u : UnitRef := .leg (legA k)
    let one (o : Nat) : Ans := ⟨(brStatus o).1, (brStatus o).2, be 2 1 ++ [BitVec.ofNat 8 o]⟩
    let frame (t : State) : Prop := (∀ j : Fin 8, j ≠ k → t.brs[j] = s.brs[j]) ∧ t.kept = { s.kept with brs := t.brs }
    let said (i : Instr) (op : Half) (y : Ans) : Prop := Answers i op p s fun a t => a = y ∧ Entered (begin_ s) t
    let mine : Prop := byteAt b 0 = BitVec.ofNat 8 (2 ^ k.val)
    (b.length = 12 → opBrMove.resOk b = true → mine → AtHead 0x0500 u [10] p s →
      let c : BrCmd := ⟨(byteAt b 1).toNat, numAt b 2 2, (wordAt b 4).toInt, (byteAt b 8).getLsbD 0⟩
      let held : Prop := x.st = .tripped ∧ moveDemand c x.pos = true
      let refused (o : Nat) : Prop := Answers (.brMove p) 0x0500 p s fun a t => a = one o ∧ frame t ∧ t.brs[k].cmd = x.cmd
        ∧ t.brs[k].deferred = x.deferred ∧ (x.staged = false → Entered (begin_ s) t)
      (¬ held → brFields x c = true → (c.mode = 4 → x.posValid = true) → brHomeOk x c = true →
        Answers (.brMove p) 0x0500 p s fun a t => frame t
          ∧ a = one (if brDefers x c then 1 else if moveDemand c x.pos && (prunedAt (brIdx k) s || x.uvOff) then 2 else 0)
          ∧ (x.st ≠ .reversing → t.brs[k].cmd = c ∧ t.brs[k].lastHost = (if x.cmd = c then x.lastHost else p.host))
          ∧ (x.st = .reversing → t.brs[k].deferred = some (c, p.host) ∧ t.brs[k].cmd = x.cmd)
          ∧ ((x.st = .coast ∨ x.st = .brake) → moveDemand c x.pos = true → brInhibited k s = false → x.tok = .none →
              t.brs[k].st = .waitToken ∧ t.brs[k].tok = .waiting s.clk.now false)
          ∧ ((x.st = .coast ∨ x.st = .brake) → c.mode ≤ 1 → t.brs[k].st = (if c.mode = 0 then .coast else .brake))
          ∧ ((x.st = .start ∨ x.st = .run) → c.mode = 0 → t.brs[k].st = .coast)
          ∧ ((x.st = .start ∨ x.st = .run) → c.mode = 1 → t.brs[k].st = .stopping))
      ∧ (held → refused 0x10)
      ∧ (¬ held → brFields x c = false → refused 0x41)
      ∧ (¬ held → brFields x c = true → c.mode = 4 → x.posValid = false → refused 0x40)
      ∧ (¬ held → brFields x c = true → (c.mode = 4 → x.posValid = true) → brHomeOk x c = false → refused 0x41))
    ∧ (b.length = 16 → opBrConfig.resOk b = true → mine → AtHead 0x0501 u [10] p s →
      let w := numAt b 2 2
      let m := brMasks w
      let y := { x with cfg1 := merge x.cfg1 (wordAt b 4) m.1, cfg2 := merge x.cfg2 (wordAt b 8) m.2.1,
                        cfg3 := merge x.cfg3 (wordAt b 12) m.2.2 }
      (brConfigOk w (wordAt b 4) (wordAt b 8) (wordAt b 12) = true → Answers (.brConfig p) 0x0501 p s fun a t => a = one 0
        ∧ t.kept = { s.kept with brs := s.brs.set k (if w.testBit 13 then { y with profile := profileFor k (fld y.cfg3 16 16) (nvView s) } else y) })
      ∧ (brConfigOk w (wordAt b 4) (wordAt b 8) (wordAt b 12) = false → said (.brConfig p) 0x0501 (one 0x41)))
    ∧ (b.length = 4 → zeroAt [2, 3] b = true → (byteAt b 0).toNat = k.val → byteAt b 1 = 1 → AtHead 0x0502 u [10] p s →
      said (.brRead p) 0x0502 (.ok (b ++ brEntry k s)))
    ∧ (b.length = 4 → zeroAt [1, 2, 3] b = true → mine → AtHead 0x0503 u [10] p s →
      (x.st = .tripped → legsCool k s = true → Answers (.brClear p) 0x0503 p s fun a t => a = one 0 ∧ frame t ∧ t.brs[k].st = .coast
          ∧ t.brs[k].clear = false ∧ t.brs[k].cmd = ⟨0, 0, 0, false⟩
          ∧ t.brs[k].lastHost = (if x.cmd = ⟨0, 0, 0, false⟩ then x.lastHost else p.host))
      ∧ (x.st = .tripped → legsCool k s = false → Answers (.brClear p) 0x0503 p s fun a t => a = one 0x22
          ∧ t.kept = { s.kept with brs := s.brs.set k { x with clear := true, clearFor := p.host } })
      ∧ (x.st ≠ .tripped → said (.brClear p) 0x0503 (one 0x21)))
    ∧ (b.length = 8 → zeroAt [2, 3] b = true → onlyBits 1 1 b = true → (byteAt b 0).toNat = k.val → AtHead 0x0504 u [10] p s →
      let y := { x with pos := (wordAt b 4).toInt, posValid := (byteAt b 1).getLsbD 0 }
      (x.atRest = true → Answers (.brPosition p) 0x0504 p s fun a t => a = ⟨0, 0, [0]⟩ ∧ frame t ∧ t.brs[k].pos = y.pos
          ∧ t.brs[k].posValid = y.posValid ∧ t.brs[k].cmd = x.cmd
          ∧ (y.demand = false ∨ brInhibited k s = true → t.brs[k] = y)
          ∧ (y.demand = true → brInhibited k s = false → x.tok = .none → t.brs[k].st = .waitToken))
      ∧ (x.atRest = false → said (.brPosition p) 0x0504 ⟨0x0543, 0, [0x43]⟩))
    ∧ (b.length = 4 → zeroAt [2, 3] b = true → mine → AtHead 0x0505 u [10] p s →
      (byteAt b 1 = 0 → fld x.cfg3 16 16 ≠ 0 → x.posValid = true → Answers (.brLearn p) 0x0505 p s fun a t => a = one 0
          ∧ Acted s (modBr k fun y => { y with learning := true, learnt := [], learnRun := none }) t)
      ∧ (byteAt b 1 = 0 → (fld x.cfg3 16 16 = 0 ∨ x.posValid = false) → said (.brLearn p) 0x0505 (one 0x42))
      ∧ (byteAt b 1 = 1 → Answers (.brLearn p) 0x0505 p s fun a t => a = one 0
          ∧ Acted s (modBr k fun y => { y with learning := false, learnt := [], learnRun := none }) t)
      ∧ (byteAt b 1 = 2 → Answers (.brLearn p) 0x0505 p s fun a t => a = one 0
          ∧ t.kept = { s.kept with brs := s.brs.set k { x with profile := none } }
          ∧ t.alm.writes = s.alm.writes ++ [⟨5, profileArea k, be 512 0, 0, none⟩])
      ∧ (3 ≤ (byteAt b 1).toNat → said (.brLearn p) 0x0505 (one 0x41)))

/-- Table 8-4: BRIDGE_START_END, MOTOR_STILL and BRAKE_LIMIT (R266), RIPPLE_PULSE (R271, R273), RUN_LIMIT and BRIDGE_STALL (R273, R274), ANTI_PINCH_CHECK (R275) and REVERSAL_DRIVE_START (R276). When PINCH is set and how a reversal ends are DEDUCED (log entry 19). -/
def Obligations.BridgeMotion : Prop :=
  ∀ (k : Fin 8) (s : State),
    let x := s.brs[k]
    let frame (t : State) : Prop := (∀ j : Fin 8, j ≠ k → t.brs[j] = s.brs[j]) ∧ t.kept = { s.kept with brs := t.brs }
    let brake : BrCmd := ⟨1, 0, 0, false⟩
    let stopped (bit : Nat) (t : State) : Prop := frame t ∧ t.brs[k].st = .stopping ∧ t.brs[k].cmd = brake
      ∧ t.brs[k].lastHost = (if x.cmd = brake then x.lastHost else 13) ∧ t.brs[k].sticky.getLsbD bit = true ∧ t.brs[k].tok = .none
    let reversed (t : State) : Prop := frame t ∧ t.brs[k].st = .reversing ∧ t.brs[k].cmd = x.cmd
      ∧ (∃ pause, pause ≤ 6000000 ∧ t.brs[k].rev = some ⟨s.clk.now, pause, none, 0⟩) ∧ legModes t.brs[k] = (2, 2)
    let rests (c : Instr) : Prop := Effects c s fun t => frame t
      ∧ (x.deferred = none → t.brs[k].cmd = x.cmd ∧ (x.cmd.mode ≤ 1 → t.brs[k].st = (if x.cmd.mode = 0 then .coast else .brake)))
      ∧ (∀ d h, x.deferred = some (d, h) → t.brs[k].cmd = d) ∧ t.brs[k].deferred = none
    let same (c : Instr) : Prop := Effects c s fun t => t = begin_ s
    (x.st = .start → x.stateAt + startSpan x ≤ s.clk.now → Effects (.bridgeStartEnd k) s fun t =>
      t = { begin_ s with brs := s.brs.set k { x with st := .run, stateAt := s.clk.now, tok := .none } })
    ∧ (x.st ≠ .start ∨ s.clk.now < x.stateAt + startSpan x → same (.bridgeStartEnd k))
    ∧ (rippleCounts x = true → (x.lastPulse = none ∨ x.periods.length < 8
        ∨ ∃ t0, x.lastPulse = some t0 ∧ 4 * x.periods.sum ≤ 80 * (s.clk.now - t0) ∧ 32 * (s.clk.now - t0) ≤ 7 * x.periods.sum) →
      Effects (.ripplePulse k) s fun t => frame t ∧ t.brs[k].pos = (if x.fwd then x.pos + 1 else x.pos - 1)
        ∧ t.brs[k].lastPulse = some s.clk.now
        ∧ ((x.st = .start ∨ x.st = .run) → x.cmd.mode = 4 → t.brs[k].pos = x.cmd.target → isEnd x x.cmd.target = false →
            stopped 4 t))
    ∧ (∀ t0, x.lastPulse = some t0 → 8 ≤ x.periods.length → 80 * (s.clk.now - t0) < 4 * x.periods.sum → same (.ripplePulse k))
    ∧ (rippleCounts x = false → same (.ripplePulse k))
    ∧ ((x.st = .start ∨ x.st = .run) → runLimitNs x ≤ x.ranNs + (s.clk.now - x.driveAt) → Effects (.runLimit k) s (stopped 7))
    ∧ ((x.st ≠ .start ∧ x.st ≠ .run) ∨ x.ranNs + (s.clk.now - x.driveAt) < runLimitNs x → same (.runLimit k))
    ∧ (let drives : Prop := x.st = .run ∨ (x.st = .reversing ∧ (x.rev.bind (·.driveAt)).isSome = true)
      let quiet : Prop := max (x.lastPulse.getD 0) (if x.st == .run then x.stateAt else x.driveAt) + stallT x ≤ s.clk.now
      (drives → quiet →
        (∀ e, stallEnd x = some e → Effects (.bridgeStall k) s fun t => stopped 5 t ∧ t.brs[k].pos = e ∧ t.brs[k].posValid = true
          ∧ (x.st = .reversing → t.brs[k].sticky.getLsbD 3 = true))
        ∧ (stallEnd x = none → x.st = .run → (closing x && pinchEn x) = true → Effects (.bridgeStall k) s reversed)
        ∧ (stallEnd x = none → (x.st = .reversing ∨ (closing x && pinchEn x) = false) → Effects (.bridgeStall k) s fun t => stopped 6 t
          ∧ t.brs[k].pos = x.pos ∧ (x.st = .reversing → t.brs[k].sticky.getLsbD 3 = true)))
      ∧ (¬ drives ∨ ¬ quiet → same (.bridgeStall k)))
    ∧ (∀ i,
      (pinchArmed x = true → pinchHit x i ≠ 0 → Effects (.antiPinchCheck k i) s fun t => reversed t ∧ t.brs[k].filtered = i)
      ∧ (pinchArmed x = false ∨ pinchHit x i = 0 → Effects (.antiPinchCheck k i) s fun t => frame t
        ∧ t.brs[k] = { x with filtered := i, learnRun := t.brs[k].learnRun, sticky := t.brs[k].sticky }
        ∧ (x.learnRun = none → t.brs[k].learnRun = none) ∧ (pinchArmed x = false → t.brs[k].sticky = x.sticky)))
    ∧ (∀ r, x.st = .reversing → x.rev = some r → r.driveAt = none →
        (r.detectAt + 6000000 ≤ s.clk.now ∨ max r.detectAt (x.lastPulse.getD 0) + r.pause ≤ s.clk.now) →
      Effects (.reversalDriveStart k) s fun t =>
        let y := { x with fwd := !closeFwd x, driveAt := s.clk.now, lastPulse := none, periods := [] }
        t = { begin_ s with brs := s.brs.set k { y with rev := some { r with driveAt := some s.clk.now } } })
    ∧ (x.st ≠ .reversing ∨ x.rev = none → same (.reversalDriveStart k))
    ∧ (∀ r, x.rev = some r → (r.driveAt.isSome = true
        ∨ (s.clk.now < r.detectAt + 6000000 ∧ s.clk.now < max r.detectAt (x.lastPulse.getD 0) + r.pause)) → same (.reversalDriveStart k))
    ∧ (x.st = .stopping → brStill x s.clk.now = true → rests (.motorStill k))
    ∧ (x.st ≠ .stopping ∨ brStill x s.clk.now = false → same (.motorStill k))
    ∧ (x.st = .stopping → x.stateAt + brakeMax x ≤ s.clk.now → rests (.brakeLimit k))
    ∧ (x.st ≠ .stopping ∨ s.clk.now < x.stateAt + brakeMax x → same (.brakeLimit k))

/-- LEG_TRIP (R269, R270) and BRIDGE_CLEAR_RELEASE (R266), with the leg modes of Table 8-2; that a trip drops a deferred command is DEDUCED (log entry 19). -/
def Obligations.BridgeTrips : Prop :=
  ∀ (n : Fin 16) (s : State),
    let k := legBridge n
    let x := s.brs[k]
    let conducts : Prop := (if n.val % 2 = 0 then (legModes x).1 else (legModes x).2) ≠ 0
    let coast : BrCmd := ⟨0, 0, 0, false⟩
    let warm (tj : Int) (t : State) : Prop := t = { begin_ s with legs := s.legs.set n { s.legs[n] with tj := tj } }
    let tripped (bit : Nat) (tj : Int) (t : State) : Prop := t.kept = { s.kept with brs := t.brs, legs := t.legs }
      ∧ (∀ j : Fin 8, j ≠ k → t.brs[j] = s.brs[j]) ∧ (∀ m : Fin 16, m ≠ n → t.legs[m] = s.legs[m])
      ∧ t.brs[k].st = .tripped ∧ t.brs[k].cmd = coast ∧ t.brs[k].lastHost = (if x.cmd = coast then x.lastHost else 13)
      ∧ t.brs[k].tok = .none ∧ t.brs[k].clear = false ∧ legModes t.brs[k] = (0, 0) ∧ t.legs[n].tj = tj
      ∧ t.legs[n].sticky.getLsbD bit = true ∧ t.brs[k].sticky.getLsbD 2 = true
    let same (i : Instr) : Prop := Effects i s fun t => t = begin_ s
    (∀ (mA : Nat) (tj : Int) (lim : Bool), (domState 10 s).answer ≠ .off → x.st ≠ .tripped →
      (conducts → legThreshold n x s.clk.now < mA → Effects (.legTrip n .overCurrent mA tj lim) s fun t => tripped 0 tj t
        ∧ (lim = true → legISCL n ≤ mA → t.legs[n].sticky.getLsbD 2 = true))
      ∧ (175 ≤ tj → Effects (.legTrip n .thermal mA tj lim) s (tripped 1 tj))
      ∧ (mA ≤ legThreshold n x s.clk.now ∨ ¬ conducts → Effects (.legTrip n .overCurrent mA tj lim) s (warm tj))
      ∧ (tj < 175 → (lim = false ∨ ¬ conducts ∨ mA < legISCL n) → Effects (.legTrip n .thermal mA tj lim) s (warm tj))
      ∧ ((lim = false ∨ ¬ conducts ∨ mA < legISCL n) → Effects (.legTrip n .wire mA tj lim) s (warm tj)))
    ∧ (∀ kind mA tj lim, x.st = .tripped ∨ (domState 10 s).answer = .off → same (.legTrip n kind mA tj lim))
    ∧ (x.st = .tripped → x.clear = true → legsCool k s = true → Effects (.bridgeClearRelease k) s fun t =>
        t.brs[k].st = .coast ∧ t.brs[k].clear = false ∧ t.brs[k].cmd = coast ∧ legModes t.brs[k] = (0, 0)
          ∧ (∀ j : Fin 8, j ≠ k → t.brs[j] = s.brs[j]) ∧ t.kept = { s.kept with brs := t.brs })
    ∧ ((x.st ≠ .tripped ∨ x.clear = false ∨ legsCool k s = false) → same (.bridgeClearRelease k))

/-- VALVE_SET (R299, R311), VALVE_CONFIG and HEADER_CONFIG (R310, R311), VALVE_READ (R310), VALVE_CLEAR (R300, R302) and VALVE_EXCL (R299, R311) on one valve, header or pair; a marked valve counts as latched (DEDUCED, log entry 21). -/
def Obligations.ValvePackets : Prop :=
  ∀ (p : Packet) (s : State) (n : Fin 16),
    let b := p.payload
    let v := s.vls[n]
    let frame (t : State) : Prop := (∀ m : Fin 16, m ≠ n → t.vls[m] = s.vls[m]) ∧ t.kept = { s.kept with vls := t.vls, vhs := t.vhs }
      ∧ ∀ g : Fin 4, g ≠ vlGroup n → t.vhs[g] = s.vhs[g]
    let one (o : Nat) : Ans := ⟨(vlStatus o).1, (vlStatus o).2, be 2 1 ++ [BitVec.ofNat 8 o]⟩
    let said (i : Instr) (op : Half) (y : Ans) : Prop := Answers i op p s fun a t => a = y ∧ Entered (begin_ s) t
    let mine : Prop := numAt b 0 2 = 2 ^ n.val
    (b.length = 4 → zeroAt [3] b = true → mine → AtHead 0x0600 (.vl n) [10] p s →
      let latched : Prop := v.st = .tripped ∨ v.marked = true ∨ s.vhs[vlGroup n].prot = .latched
      let conflict : Prop := ∃ j, v.partner = some j ∧ (s.vls[j].mode = true
        ∨ (v.guard_ = true ∧ (s.vls[j].st = .clamp ∨ s.vls[j].st = .window)) ∨ j = n)
      let refused (o : Nat) : Prop := Answers (.valveSet p) 0x0600 p s fun a t => a = one o ∧ frame t ∧ t.vls[n].mode = v.mode
        ∧ (v.staged = false → Entered (begin_ s) t)
      ((byteAt b 2 = 0 ∨ byteAt b 2 = 1 ∧ ¬ latched ∧ ¬ conflict) → Answers (.valveSet p) 0x0600 p s fun a t => frame t
        ∧ t.vls[n].mode = (byteAt b 2 == 1) ∧ t.vls[n].lastHost = (if v.mode = (byteAt b 2 == 1) then v.lastHost else p.host)
        ∧ a = one (if byteAt b 2 == 1 && (s.vhs[vlGroup n].prot == .offPending || prunedAt (vlIdx n) s || v.uvOff) then 2 else 0)
        ∧ (byteAt b 2 = 0 → v.st = .on → t.vls[n].st = .clamp)
        ∧ (byteAt b 2 = 1 → v.st = .off → v.tok = .none → vlInhibited n s = false →
            t.vls[n].st = .waitToken ∧ t.vls[n].tok = .waiting s.clk.now false))
      ∧ (byteAt b 2 = 1 → latched → refused 0x10)
      ∧ (byteAt b 2 = 1 → ¬ latched → conflict → Answers (.valveSet p) 0x0600 p s fun a t => a = one 0x50 ∧ frame t
          ∧ t.vls[n].mode = v.mode ∧ t.vls[n].sticky.getLsbD 6 = true
          ∧ (v.staged = false → t.vls[n] = { v with sticky := v.sticky ||| 0x040 } ∧ t.vhs = s.vhs))
      ∧ (2 ≤ (byteAt b 2).toNat → refused 0x51))
    ∧ (b.length = 8 → opValveConfig.resOk b = true → mine → AtHead 0x0601 (.vl n) [10] p s →
      let w := (byteAt b 2).toNat
      let c := wordAt b 4
      let bad : Prop := (w.testBit 1 = true ∧ fld c 25 6 = 0) ∨ (w.testBit 2 = true ∧ fld c 18 7 = 0)
      (¬ bad → Answers (.valveConfig p) 0x0601 p s fun a t => a = one 0 ∧ Acted s (modVl n fun y =>
        { y with cfg := merge y.cfg c (maskOf w [(0, 31, 1), (1, 25, 6), (2, 18, 7), (3, 10, 8), (4, 9, 1)]) }) t)
      ∧ (bad → said (.valveConfig p) 0x0601 (one 0x51)))
    ∧ (∀ g : Fin 4, b.length = 8 → opHeaderConfig.resOk b = true → (byteAt b 0).toNat = 2 ^ g.val → AtHead 0x0602 (.vh g) [10] p s →
      let w := (byteAt b 1).toNat
      let c := merge s.vhs[g].cfg (wordAt b 4) (maskOf w [(0, 28, 4), (1, 27, 1), (2, 23, 4), (3, 19, 4)])
      let bad : Prop := w.testBit 0 = true ∧ fld (wordAt b 4) 28 4 = 15
      (¬ bad → Answers (.headerConfig p) 0x0602 p s fun a t => a = one 0 ∧
        t.kept = { s.kept with vhs := s.vhs.set g { s.vhs[g] with cfg := c, retry := if w.testBit 2 then fld c 23 4 else s.vhs[g].retry } })
      ∧ (bad → said (.headerConfig p) 0x0602 (one 0x51)))
    ∧ (b.length = 4 → byteAt b 3 = 0 → byteAt b 2 = 1 →
      (byteAt b 0 = 0 → (byteAt b 1).toNat = n.val → AtHead 0x0603 (.vl n) [10] p s → said (.valveRead p) 0x0603 (.ok (b ++ valveEntry (.vl n) s)))
      ∧ (∀ g : Fin 4, byteAt b 0 = 1 → (byteAt b 1).toNat = g.val → AtHead 0x0603 (.vh g) [10] p s →
        said (.valveRead p) 0x0603 (.ok (b ++ valveEntry (.vh g) s))))
    ∧ (b.length = 4 → zeroAt [2, 3] b = true → mine → AtHead 0x0604 (.vl n) [10] p s →
      (v.st = .tripped → v.tj < 150 → Answers (.valveClear p) 0x0604 p s fun a t => a = one 0 ∧ frame t ∧ t.vls[n].marked = false
          ∧ t.vls[n].clear = false ∧ t.vls[n].st ≠ .tripped ∧ t.vls[n].mode = v.mode)
      ∧ ((v.st = .tripped ∧ 150 ≤ v.tj) ∨ (v.st ≠ .tripped ∧ v.marked = true) → Answers (.valveClear p) 0x0604 p s fun a t =>
          a = one 0x22 ∧ t.kept = { s.kept with vls := s.vls.set n { v with clear := true } })
      ∧ (v.st ≠ .tripped → v.marked = false → said (.valveClear p) 0x0604 (one 0x21)))
    ∧ (∀ g : Fin 4, b.length = 4 → zeroAt [0, 1, 3] b = true → (byteAt b 2).toNat = 2 ^ g.val → AtHead 0x0604 (.vh g) [10] p s →
      let h := s.vhs[g]
      (h.prot = .none → Answers (.valveClear p) 0x0604 p s fun a t => a = one 0x21
        ∧ Acted s (modVh g fun h => { h with retry := hdrRetrySet h }) t)
      ∧ (h.prot ≠ .none → vhCool g s = true → Answers (.valveClear p) 0x0604 p s fun a t => a = one 0 ∧ t.vhs[g].prot = .none
        ∧ t.vhs[g].clear = false ∧ t.vhs[g].retry = hdrRetrySet h ∧ t.kept = { s.kept with vls := t.vls, vhs := t.vhs })
      ∧ (h.prot ≠ .none → vhCool g s = false → Answers (.valveClear p) 0x0604 p s fun a t => a = one 0x22
        ∧ t.vhs[g].prot = (if h.prot = .latched ∨ hdrLatch h = true ∨ hdrRetrySet h = 0 then .latched else .offPending)
        ∧ t.kept = { s.kept with vhs := s.vhs.set g { h with retry := hdrRetrySet h, clear := true, sticky := t.vhs[g].sticky, prot := t.vhs[g].prot } }))
    ∧ (∀ m : Fin 16, b.length = 4 → zeroAt [3] b = true → onlyBits 2 3 b = true → (byteAt b 0).toNat = n.val → (byteAt b 1).toNat = m.val →
        AtHead 0x0605 (.vl n) [10] p s → AtHead 0x0605 (.vl m) [10] p s →
      let g := (byteAt b 2).getLsbD 1
      let on : Bool := (byteAt b 2).getLsbD 0
      let pair (x y : VlSt) (t : State) : Prop := t.kept = { s.kept with vls := (s.vls.set n x).set m y }
      (m = n → said (.valveExcl p) 0x0605 (.err 0x0641))
      ∧ (m ≠ n →
        (on = true → v.partner = none → s.vls[m].partner = none → (v.mode = false ∨ s.vls[m].mode = false) →
          Answers (.valveExcl p) 0x0605 p s fun a t => a = .ok
            ∧ pair { v with partner := some m, guard_ := g } { s.vls[m] with partner := some n, guard_ := g } t)
        ∧ (on = true → (v.partner ≠ none ∨ s.vls[m].partner ≠ none ∨ (v.mode = true ∧ s.vls[m].mode = true)) →
          said (.valveExcl p) 0x0605 (.err 0x0642))
        ∧ (on = false → v.partner = some m → Answers (.valveExcl p) 0x0605 p s fun a t => a = .ok
          ∧ pair { v with partner := none, guard_ := false } { s.vls[m] with partner := none, guard_ := false } t)
        ∧ (on = false → v.partner ≠ some m → said (.valveExcl p) 0x0605 .ok)))
    ∧ (b.length = 4 → zeroAt [3] b = true → onlyBits 2 3 b = true → (16 ≤ (byteAt b 0).toNat ∨ 16 ≤ (byteAt b 1).toNat) →
        AtHead 0x0605 .chip [10] p s → said (.valveExcl p) 0x0605 (.err 0x0641))

/-- Table 9-3: HEADER_RISE_DONE and CLAMP_END (R293), HEADER_OFF (R291), CLOSURE_SAMPLE and CLOSURE_WINDOW_END (R295 to R297) and VALVE_TOKEN_RETURN (R294). The 8-bit rounding, the sample a clamp ends with and a marked valve's window are DEDUCED (log entry 21). -/
def Obligations.ValveRows : Prop :=
  ∀ (n : Fin 16) (s : State),
    let g := vlGroup n
    let v := s.vls[n]
    let frame (t : State) : Prop := (∀ m : Fin 16, m ≠ n → t.vls[m] = s.vls[m]) ∧ t.kept = { s.kept with vls := t.vls, vhs := t.vhs }
    let same (c : Instr) : Prop := Effects c s fun t => t = begin_ s
    let only (y : VlSt) (t : State) : Prop := t = { begin_ s with vls := s.vls.set n y }
    let open_ : Prop := v.ended = false ∧ closeDet v.act = true
    let off (t : State) : Prop := frame t ∧ t.vls[n].st ≠ .clamp ∧ t.vls[n].st ≠ .window ∧ (v.mode = false → t.vls[n].st = .off)
    let found (res cause : Nat) (t : State) : Prop := t.vls[n].result = BitVec.ofNat 2 res ∧ t.vls[n].cause = BitVec.ofNat 3 cause
    (s.vhs[g].st = .rising → Effects (.headerRiseDone g) s fun t => t.vhs[g].st = .on
        ∧ t.kept = { s.kept with vls := t.vls, vhs := t.vhs }
        ∧ ∀ m : Fin 16, t.vls[m].st = (if vlGroup m = g ∧ s.vls[m].st = .hdrRise then .on else s.vls[m].st))
    ∧ (s.vhs[g].st ≠ .rising → same (.headerRiseDone g))
    ∧ (s.vhs[g].st = .falling → Effects (.headerOff g) s fun t => t.kept = { s.kept with vhs := t.vhs }
        ∧ (∀ k : Fin 4, k ≠ g → t.vhs[k] = s.vhs[k])
        ∧ t.vhs[g].st = (if headerDemand g s && !hdrInhibit g s && !s.regs[(4 : Fin 7)].uv then .rising else .off))
    ∧ (s.vhs[g].st ≠ .falling → same (.headerOff g))
    ∧ (∀ drain header : Int, drain < header + 5000 →
      let k := v.samples.length + 1
      (v.st = .clamp → v.marked = false → s.dom.dom[(10 : Fin 16)].st ≠ .toOff →
        (open_ → Effects (.clampEnd n drain header) s (only { v with st := .window, clampTime := k * 10, k0 := k }))
        ∧ (¬ open_ → Effects (.clampEnd n drain header) s off))
      ∧ (v.st = .clamp → v.marked = false → s.dom.dom[(10 : Fin 16)].st = .toOff → Effects (.clampEnd n drain header) s fun t => off t
        ∧ (open_ → found 3 4 t))
      ∧ (v.st = .clamp → v.marked = true → Effects (.clampEnd n drain header) s fun t => frame t ∧ t.vls[n].st = .tripped
        ∧ (open_ → found 3 5 t))
      ∧ (v.st = .off → v.marked = true → Effects (.clampEnd n drain header) s (only { v with st := .tripped })))
    ∧ (∀ drain header : Int, ((v.st ≠ .clamp ∧ ¬ (v.st = .off ∧ v.marked = true)) ∨ header + 5000 ≤ drain) → same (.clampEnd n drain header))
    ∧ (∀ vd : Int,
      let l := drainCode vd :: v.samples
      let k := l.length
      let over_ : Prop := closeWinNs v.act ≤ k * 10000
      (domOn 10 s = true → closeDet v.act = true →
        (v.st = .clamp → ¬ over_ → belowClamp (drainCode vd) = false → Effects (.closureSample n vd) s (only { v with samples := l }))
        ∧ (v.st = .clamp → ¬ over_ → belowClamp (drainCode vd) = true → v.marked = false → v.ended = false →
          Effects (.closureSample n vd) s (only { v with samples := l, st := .window, clampTime := k * 10, k0 := k }))
        ∧ (v.st = .clamp → over_ → belowClamp (drainCode vd) = false → Effects (.closureSample n vd) s fun t => off t
          ∧ (v.ended = false → found 3 3 t))
        ∧ (v.st = .window → v.k0 + 20 ≤ k → kinkAt l k v.act = true → Effects (.closureSample n vd) s fun t => off t
          ∧ (v.ended = false → t.vls[n].result = 1 ∧ t.vls[n].closeTime = (k - 10) * 10))
        ∧ (v.st = .window → (k < v.k0 + 20 ∨ kinkAt l k v.act = false) →
          (¬ over_ → Effects (.closureSample n vd) s (only { v with samples := l }))
          ∧ (over_ → Effects (.closureSample n vd) s fun t => off t ∧ (v.ended = false → found 2 0 t))))
      ∧ ((domOn 10 s = false ∨ closeDet v.act = false ∨ (v.st ≠ .clamp ∧ v.st ≠ .window)) → same (.closureSample n vd)))
    ∧ (closeDet v.act = true → v.offAt + closeWinNs v.act ≤ s.clk.now →
      (v.st = .window → Effects (.closureWindowEnd n) s fun t => off t ∧ (v.ended = false → found 2 0 t))
      ∧ (v.st = .clamp → Effects (.closureWindowEnd n) s fun t => off t ∧ (v.ended = false → found 3 3 t)))
    ∧ ((closeDet v.act = false ∨ s.clk.now < v.offAt + closeWinNs v.act ∨ (v.st ≠ .clamp ∧ v.st ≠ .window)) → same (.closureWindowEnd n))
    ∧ (v.st = .on → v.onAt + 2000000 ≤ s.clk.now → Effects (.valveTokenReturn n) s (only { v with tok := .none }))
    ∧ ((v.st ≠ .on ∨ s.clk.now < v.onAt + 2000000) → same (.valveTokenReturn n))

/-- VALVE_THERMAL_TRIP (R302), HEADER_TRIP (R300, R301), VALVE_CLEAR_RELEASE (R293) and PROTECTION_RELEASE of a header (R300). A thermal trip in the clamp and the settings a trip acts on are DEDUCED (log entry 21). -/
def Obligations.ValveProtection : Prop :=
  ∀ (n : Fin 16) (s : State),
    let g := vlGroup n
    let v := s.vls[n]
    let h := s.vhs[g]
    let frame (t : State) : Prop := t.kept = { s.kept with vls := t.vls, vhs := t.vhs } ∧ (∀ k : Fin 4, k ≠ g → t.vhs[k] = s.vhs[k])
      ∧ ∀ m : Fin 16, vlGroup m ≠ g → t.vls[m] = s.vls[m]
    let same (i : Instr) : Prop := Effects i s fun t => t = begin_ s
    let powered : Prop := (domState 10 s).answer ≠ .off
    let acted : VhSt := { h with act := h.cfg }
    let hot (bit : Nat) (t : State) : Prop := frame t ∧ t.vhs[g].st = .falling
      ∧ t.vhs[g].sticky.getLsbD bit = true ∧ (h.prot ≠ .latched →
        t.vhs[g].prot = (if domOn 10 s && (hdrLatch acted || decide (h.retry = 0)) then .latched else .offPending))
      ∧ ∀ m : Fin 16, vlGroup m = g → (s.vls[m].st = .on → t.vls[m].st = .clamp)
          ∧ ((s.vls[m].st = .hdrRise ∨ s.vls[m].st = .waitToken ∨ s.vls[m].st = .window) → t.vls[m].st = .off) ∧ t.vls[m].mode = s.vls[m].mode
    (∀ tj : Int,
      (powered → 175 ≤ tj → v.st = .on ∨ v.st = .clamp → Effects (.valveThermalTrip n tj) s fun t => frame t ∧ t.vls[n].st = .clamp
        ∧ t.vls[n].marked = true ∧ t.vls[n].clear = false ∧ t.vls[n].tj = tj ∧ t.vls[n].sticky.getLsbD 4 = true
        ∧ (v.st = .on → t.vls[n].tok = .none) ∧ ∀ m : Fin 16, m ≠ n → t.vls[m] = s.vls[m])
      ∧ ((¬ powered ∨ tj < 175 ∨ (v.st ≠ .on ∧ v.st ≠ .clamp)) → same (.valveThermalTrip n tj))
      ∧ (v.st = .tripped → v.clear = true → tj < 150 → Effects (.valveClearRelease n tj) s fun t => frame t ∧ t.vls[n].marked = false
        ∧ t.vls[n].st ≠ .tripped ∧ t.vls[n].clear = false ∧ t.vls[n].mode = v.mode ∧ ∀ m : Fin 16, m ≠ n → t.vls[m] = s.vls[m])
      ∧ ((v.st ≠ .tripped ∨ v.clear = false ∨ 150 ≤ tj) → Effects (.valveClearRelease n tj) s fun t =>
          t = { begin_ s with vls := s.vls.set n { v with tj := tj } }))
    ∧ (∀ (mA : Nat) (tj : Int) (lim : Bool),
      (powered → (h.st = .rising ∨ h.st = .on) →
        (hdrThreshold h < mA → Effects (.headerTrip g .overCurrent mA tj lim) s (hot 1))
        ∧ (175 ≤ tj → Effects (.headerTrip g .thermal mA tj lim) s (hot 2))
        ∧ (mA ≤ hdrThreshold h → Effects (.headerTrip g .overCurrent mA tj lim) s fun t =>
            t = { begin_ s with vhs := s.vhs.set g { h with tj := tj } })
        ∧ (tj < 175 → Effects (.headerTrip g .thermal mA tj lim) s fun t => t.kept = { s.kept with vhs := t.vhs }
            ∧ t.vhs[g] = { h with tj := tj, limiting := t.vhs[g].limiting, sticky := t.vhs[g].sticky })
        ∧ Effects (.headerTrip g .wire mA tj lim) s fun t => t.kept = { s.kept with vhs := t.vhs }
            ∧ t.vhs[g] = { h with tj := tj, limiting := t.vhs[g].limiting, sticky := t.vhs[g].sticky })
      ∧ (¬ powered ∨ (h.st ≠ .rising ∧ h.st ≠ .on) → ∀ kind, same (.headerTrip g kind mA tj lim)))
    ∧ (let granted : Prop := h.clear = true ∧ vhCool g s = true
      (domOn 10 s = true → h.prot ≠ .none → granted → Effects (.protectionRelease (.vh g)) s fun t => frame t ∧ t.vhs[g].prot = .none
        ∧ t.vhs[g].clear = false ∧ t.vhs[g].retry = h.retry)
      ∧ (domOn 10 s = true → h.prot = .offPending → ¬ granted → (hdrLatch h = true ∨ h.retry = 0) →
        Effects (.protectionRelease (.vh g)) s fun t => t.kept = { s.kept with vhs := s.vhs.set g { h with prot := .latched, sticky := t.vhs[g].sticky } })
      ∧ (domOn 10 s = true → h.prot = .offPending → ¬ granted → hdrLatch h = false → h.retry ≠ 0 → vhCool g s = true →
        Effects (.protectionRelease (.vh g)) s fun t => frame t ∧ t.vhs[g].prot = .none
          ∧ t.vhs[g].retry = (if commandedOn g s && decide (hdrRetrySet h ≠ 15) then h.retry - 1 else h.retry))
      ∧ ((domOn 10 s = false ∨ h.prot = .none ∨ (¬ granted ∧ (h.prot = .latched
          ∨ hdrLatch h = false ∧ h.retry ≠ 0 ∧ vhCool g s = false))) → same (.protectionRelease (.vh g))))

/-- SW_CONFIG, AN_CONFIG, CYCLIC_CONFIG, FIELD_CONFIG (R338, R339), SW_READ, AN_READ, FIELD_READ (R338) and FQ_SET (R332, R333, R339); the scaling of AN_READ and a waiting output are DEDUCED (log entry 22). -/
def Obligations.InputPackets : Prop :=
  ∀ (p : Packet) (s : State),
    let b := p.payload
    let one (o : Nat) : Ans := ⟨(ioStatus o).1, (ioStatus o).2, be 2 1 ++ [BitVec.ofNat 8 o]⟩
    let said (i : Instr) (op : Half) (y : Ans) : Prop := Answers i op p s fun a t => a = y ∧ Entered (begin_ s) t
    (∀ n : Fin 64, b.length = 16 → opSwConfig.resOk b = true → numAt b 0 8 = 2 ^ n.val → AtHead 0x0700 (.sw n) [11] p s →
      let x := s.io.sw[n]
      let w := numAt b 8 2
      let c := merge x.cfg (wordAt b 12)
        (maskOf w [(0, 31, 1), (1, 28, 3), (2, 25, 3), (3, 24, 1), (4, 16, 8), (5, 15, 1), (6, 14, 1), (7, 13, 1)])
      let y := { x with cfg := c, run := if (x.cfg ^^^ c) &&& 0xFFFF0000 == 0 then x.run else 0
                        held := if swArmed c then x.held else none, cand := if swArmed c then x.cand else none }
      (swOk n c = true → Answers (.swConfig p) 0x0700 p s fun a t => a = one 0 ∧ t.kept = { s.kept with io := { s.io with
          sw := s.io.sw.set n (if swEnable c then y else { y with closed := false, valid := false, source := 3, hold := false }) } })
      ∧ (swOk n c = false → said (.swConfig p) 0x0700 (one 0x60)))
    ∧ (b = [] → AtHead 0x0701 .chip [11] p s → said (.swRead p) 0x0701
        (.ok (swMap (·.closed) s ++ swMap (·.valid) s ++ swMap (·.source != 0) s)))
    ∧ (∀ m : Fin 12, b.length = 12 → opAnConfig.resOk b = true → numAt b 0 2 = 2 ^ m.val → AtHead 0x0702 (.sw (anSwitch m)) [11] p s →
      let w := (byteAt b 2).toNat
      let c2 := merge s.io.an[m].cfg2 (wordAt b 4) (maskOf w [(0, 30, 2), (1, 28, 2), (2, 25, 3)])
      let c3 := merge s.io.an[m].cfg3 (wordAt b 8) (maskOf w [(3, 20, 12), (4, 8, 12)])
      let fits : Prop := fld c2 30 2 ≠ 3 ∧ fld c2 28 2 ≠ 3 ∧ fld c2 25 3 ≤ 4
      (fits → Answers (.anConfig p) 0x0702 p s fun a t => a = one 0 ∧ Acted s (modAn m fun x => { x with cfg2 := c2, cfg3 := c3 }) t)
      ∧ (¬ fits → said (.anConfig p) 0x0702 (one 0x60)))
    ∧ (∀ m : Fin 12, b.length = 4 → zeroAt [2, 3] b = true → (byteAt b 0).toNat = m.val → byteAt b 1 = 1 →
        AtHead 0x0703 (.sw (anSwitch m)) [11] p s → said (.anRead p) 0x0703 (.ok (b ++ anEntry m s)))
    ∧ (b.length = 4 → byteAt b 2 = 0 → onlyBits 3 1 b = true → AtHead 0x0704 .chip [] p s →
      let fits : Prop := fld (wordAt b 0) 29 3 ≤ 6 ∧ fld (wordAt b 0) 24 3 ≤ 5
      (fits → Answers (.cyclicConfig p) 0x0704 p s fun a t => a = .ok ∧ Acted s (modIo fun x => { x with cyc := wordAt b 0 &&& 0xFF800000#32 }) t)
      ∧ (¬ fits → said (.cyclicConfig p) 0x0704 (.err 0x0740)))
    ∧ (∀ n : Fin 16, b.length = 4 → zeroAt [3] b = true → numAt b 0 2 = 2 ^ n.val → AtHead 0x0800 (.fq n) [12] p s →
      let q := s.io.fq[n]
      let on : Bool := byteAt b 2 == 1
      ((byteAt b 2).toNat ≤ 1 → Answers (.fqSet p) 0x0800 p s fun a t =>
        a = one (if on && (s.io.fld.supply == .missing || q.wait) then 2 else 0)
          ∧ t.io.fq[n].mode = on ∧ t.io.fq[n].lastHost = (if q.mode = on then q.lastHost else p.host)
          ∧ t.io.fq[n].latched = (q.latched && on) ∧ t.io.fq[n].wait = q.wait
          ∧ t.kept = { s.kept with io := { s.io with fq := t.io.fq, fld := { s.io.fld with faultAt := t.io.fld.faultAt, sticky := t.io.fld.sticky } } }
          ∧ ∀ m : Fin 16, m ≠ n → t.io.fq[m] = s.io.fq[m])
      ∧ (1 < (byteAt b 2).toNat → said (.fqSet p) 0x0800 (one 0x70)))
    ∧ (∀ n : Fin 16, b.length = 8 → opFieldConfig.resOk b = true →
      let w := (byteAt b 4).toNat
      (numAt b 0 2 = 2 ^ n.val → numAt b 2 2 = 0 → AtHead 0x0801 (.fi n) [12] p s →
        (w.testBit 0 = true → (byteAt b 5).toNat ≤ 8 → Answers (.fieldConfig p) 0x0801 p s fun a t => a = one 0 ∧ t.kept = { s.kept with
          io := { s.io with fi := s.io.fi.set n { s.io.fi[n] with cfg := setFld s.io.fi[n].cfg 25 4 (byteAt b 5).toNat, runAt := none } } })
        ∧ (w.testBit 0 = true → 8 < (byteAt b 5).toNat → Answers (.fieldConfig p) 0x0801 p s fun a t => a = one 0x70 ∧ t.kept = s.kept)
        ∧ (w.testBit 0 = false → Answers (.fieldConfig p) 0x0801 p s fun a t => a = one 0 ∧ t.kept = s.kept))
      ∧ (numAt b 0 2 = 0 → numAt b 2 2 = 2 ^ n.val → AtHead 0x0801 (.fq n) [12] p s →
        Answers (.fieldConfig p) 0x0801 p s fun a t => a = one 0 ∧ t.io.fi = s.io.fi ∧ t.kept = { s.kept with io := { s.io with
            fq := s.io.fq.set n { s.io.fq[n] with cfg := t.io.fq[n].cfg }, fld := { s.io.fld with faultAt := t.io.fld.faultAt, sticky := t.io.fld.sticky } } }
          ∧ fld t.io.fq[n].cfg 28 1 = (if w.testBit 1 then (byteAt b 6).toNat % 2 else fld s.io.fq[n].cfg 28 1)
          ∧ fld t.io.fq[n].cfg 27 1 = (if w.testBit 2 then (byteAt b 6).toNat / 2 % 2 else fld s.io.fq[n].cfg 27 1)
          ∧ fld t.io.fq[n].cfg 0 27 = fld s.io.fq[n].cfg 0 27 ∧ fld t.io.fq[n].cfg 29 3 = fld s.io.fq[n].cfg 29 3))
    ∧ (b = [] → AtHead 0x0802 .chip [12] p s → said (.fieldRead p) 0x0802
        (.ok (be 2 (fiMask (·.value) s) ++ be 2 (fiMask (·.valid) s) ++ be 2 (fqCommanded s)
          ++ be 2 (fqMask (driven · s.io.fld.supply) s) ++ be 2 (s.io.fld.mv / 10) ++ be 1 (supplyCode s.io.fld.supply)
          ++ be 1 ((if fieldFault s then 1 else 0) + (if fiFrozen s then 2 else 0)))))

/-- RAKE_SAMPLE (R316 to R319), CYCLIC_PULSE and CYCLIC_CONFIRM (R317, R320, R321), ANALOG_CONVERSION (R323) and FIELD_INPUT_SAMPLE (R330); the zone time of a parked change and the first held value are DEDUCED (log entry 22). -/
def Obligations.InputRows : Prop :=
  ∀ (mv : List Nat) (s : State),
    let same (i : Instr) : Prop := Effects i s fun t => t = begin_ s
    let switches (t : State) : Prop := t.kept = { s.kept with io := { s.io with sw := t.io.sw } }
    (domOn 11 s = true → Effects (.rakeSample mv) s fun t => switches t ∧ ∀ n : Fin 64,
        let x := s.io.sw[n]
        let y := t.io.sw[n]
        let raw := rawOf x.cfg x.raw (mv.getD n.val 0)
        let run := if x.run ≠ 0 ∧ x.runVal = raw then x.run + 1 else 1
        (swEnable x.cfg = false → y = x)
        ∧ (swEnable x.cfg = true → supplyHeld x.cfg s = true → y = { x with hold := true, run := 0 })
        ∧ (swEnable x.cfg = true → supplyHeld x.cfg s = false → y.hold = false ∧ y.raw = raw ∧ y.cfg = x.cfg ∧ y.held = x.held
          ∧ (x.valid = true → raw = x.closed → y.closed = x.closed ∧ y.valid = true ∧ y.run = 0 ∧ y.sticky = x.sticky)
          ∧ (x.valid = true → raw ≠ x.closed → swDebounce x.cfg ≤ run → y.closed = raw ∧ y.valid = true ∧ y.run = 0
            ∧ y.sticky = x.sticky ||| (if raw then 2 else 1))
          ∧ (x.valid = false → swDebounce x.cfg ≤ run → y.closed = raw ∧ y.valid = true ∧ y.run = 0 ∧ y.sticky = x.sticky)
          ∧ ((x.valid = false ∨ raw ≠ x.closed) → run < swDebounce x.cfg → y.closed = x.closed ∧ y.valid = x.valid ∧ y.run = run
            ∧ y.sticky = x.sticky)))
    ∧ (domOn 11 s = false → same (.rakeSample mv))
    ∧ (cyclicRuns s = true →
      Effects (.cyclicPulse mv) s (fun t => switches t ∧ ∀ n : Fin 64,
        let x := s.io.sw[n]
        let y := t.io.sw[n]
        let raw := rawOf x.cfg x.raw (mv.getD n.val 0)
        (swArmed x.cfg = false → y = x)
        ∧ (swArmed x.cfg = true → supplyHeld x.cfg s = true → y = { x with hold := true })
        ∧ (swArmed x.cfg = true → supplyHeld x.cfg s = false → y.hold = false ∧ y.raw = raw
          ∧ (x.held ≠ some (!raw) → y.held = some (x.held.getD raw) ∧ y.parked = x.parked ∧ y.closed = x.closed)
          ∧ (x.held = some (!raw) → s.io.cyc.getLsbD 23 = true → y.cand = some (raw, s.clk.now, s.zone.time) ∧ y.held = x.held ∧ y.parked = x.parked)
          ∧ (x.held = some (!raw) → s.io.cyc.getLsbD 23 = false → y.held = some raw ∧ y.closed = (raw && swEnable x.cfg)
            ∧ y.parked = x.parked ++ [(raw, s.zone.time, wakeEnabled 5 n.val s)])))
      ∧ Effects (.cyclicConfirm mv) s (fun t => switches t ∧ ∀ n : Fin 64,
        let x := s.io.sw[n]
        let y := t.io.sw[n]
        let raw := rawOf x.cfg x.raw (mv.getD n.val 0)
        (x.cand = none → y = x)
        ∧ ∀ c at_ z, x.cand = some (c, at_, z) →
          (s.clk.now < at_ + 1000000 → y = x)
          ∧ (at_ + 1000000 ≤ s.clk.now → supplyHeld x.cfg s = true → y = { x with hold := true, cand := none })
          ∧ (at_ + 1000000 ≤ s.clk.now → supplyHeld x.cfg s = false → raw ≠ c → y = { x with hold := false, raw := raw, cand := none })
          ∧ (at_ + 1000000 ≤ s.clk.now → supplyHeld x.cfg s = false → raw = c → y.held = some c ∧ y.cand = none
            ∧ y.closed = (c && swEnable x.cfg) ∧ y.parked = x.parked ++ [(c, z, wakeEnabled 5 n.val s)])))
    ∧ (cyclicRuns s = false → same (.cyclicPulse mv) ∧ same (.cyclicConfirm mv))
    ∧ (∀ (m : Fin 12) (code : BitVec 12),
      let x := s.io.an[m]
      (domOn 11 s = true → inForce 17 1 s = false → swAnalog s.io.sw[anSwitch m].cfg = true → Effects (.analogConversion m code) s fun t =>
        let used := ((code.toNat :: x.convs).take 16).take (2 ^ fld x.cfg2 25 3)
        let mean := used.sum / used.length
        t.kept = { s.kept with adc := t.adc, io := { s.io with an := s.io.an.set m { x with
          convs := (code.toNat :: x.convs).take 16, code := mean, valid := true, convAt := some s.clk.now, sticky := t.io.an[m].sticky
          below := decide (mean < fld x.cfg3 20 12), above := decide (fld x.cfg3 8 12 < mean) } } })
      ∧ (domOn 11 s = true → swAnalog s.io.sw[anSwitch m].cfg = false → Effects (.analogConversion m code) s fun t => t.kept = { s.kept with adc := t.adc })
      ∧ (domOn 11 s = false ∨ inForce 17 1 s = true → same (.analogConversion m code)))
    ∧ (domOn 12 s = true → s.io.fld.supply ≠ .missing → Effects (.fieldInputSample mv) s fun t =>
      t.kept = { s.kept with io := { s.io with fi := t.io.fi } } ∧ ∀ n : Fin 16,
        let x := s.io.fi[n]
        let y := t.io.fi[n]
        let v := mv.getD n.val 0
        let raw := if 11000 ≤ v then true else if v ≤ 5000 then false else x.raw
        let since := if raw = x.raw then x.runAt.getD s.clk.now else s.clk.now
        let settled : Prop := x.known = true ∧ x.valid = true ∧ raw = x.value
        (settled → y = { x with raw := raw, runAt := none })
        ∧ (¬ settled → since + fiFilter x.cfg ≤ s.clk.now → y.value = raw ∧ y.known = true ∧ y.valid = true ∧ y.runAt = none ∧ y.changeAt = s.clk.now
          ∧ y.sticky = (if x.known && x.value != raw then x.sticky ||| (if raw then 2 else 1) else x.sticky))
        ∧ (¬ settled → s.clk.now < since + fiFilter x.cfg → y = { x with raw := raw, runAt := some since }))
    ∧ ((domOn 12 s = false ∨ s.io.fld.supply = .missing) → same (.fieldInputSample mv))

/-- FIELD_SUPPLY_CHANGE (R325, R326), FIELD_REDRIVE_START and FIELD_REDRIVE_STEP (R328), FIELD_OUTPUT_SHUTDOWN and FIELD_OUTPUT_RESTART (R333), FIELD_CURRENT_LIMIT, FIELD_OUTPUT_FED and FAULT_STRETCH_END (R334); the limits of a fed output are DEDUCED (log entry 22). -/
def Obligations.FieldRows : Prop :=
  ∀ s : State,
    let f := s.io.fld
    let same (c : Instr) : Prop := Effects c s fun t => t = begin_ s
    let turn (i mask : Nat) (t : State) : Prop := t.kept = { s.kept with io := t.io } ∧
      match (List.range 16).filter (fun n => decide (i ≤ n) && s.io.fq[(Fin.ofNat 16 n : Fin 16)].mode) with
      | [] => t.io.fld.owed = false ∧ t.io.fld.redrive = none ∧ t.io.fld.okAt = none ∧ ∀ m : Fin 16, t.io.fq[m].wait = false
      | n :: more => (∀ m : Fin 16, m.val ≤ n → t.io.fq[m].wait = false)
        ∧ (more ≠ [] → t.io.fld.redrive = some (n + 1, s.clk.now, mask + 2 ^ n) ∧ ∀ m : Fin 16, n < m.val → t.io.fq[m] = s.io.fq[m])
        ∧ (more = [] → t.io.fld.owed = false ∧ t.io.fld.redrive = none)
    (∀ mv : Nat,
      ((domState 12 s).answer ≠ .off → Effects (.fieldSupplyChange mv) s fun t => t.kept = { s.kept with io := t.io } ∧ t.io.fld.mv = mv
        ∧ t.io.fld.supply = fieldNext f.supply mv ∧ t.io.sw = s.io.sw ∧ (∀ n : Fin 16, t.io.fq[n].mode = s.io.fq[n].mode)
        ∧ (f.supply ≠ .missing → t.io.fld.supply = .missing → ∀ n : Fin 16, t.io.fq[n].wait = true ∧ t.io.fq[n].latched = false
            ∧ fqGate t.io.fq[n] t.io.fld.supply = false))
      ∧ ((domState 12 s).answer = .off → same (.fieldSupplyChange mv)))
    ∧ (∀ t0, f.okAt = some t0 →
      (f.supply ≠ .missing → f.redrive = none → t0 + 1000000 ≤ s.clk.now → (domState 12 s).answer = .on →
        Effects .fieldRedriveStart s (turn 0 0))
      ∧ (f.supply = .missing ∨ f.redrive ≠ none ∨ s.clk.now < t0 + 1000000 ∨ (domState 12 s).answer ≠ .on → same .fieldRedriveStart))
    ∧ (f.okAt = none → same .fieldRedriveStart)
    ∧ (∀ i t0 mask, f.redrive = some (i, t0, mask) →
      (f.supply ≠ .missing → t0 + 100000 ≤ s.clk.now → (domState 12 s).answer = .on → Effects .fieldRedriveStep s (turn i mask))
      ∧ (f.supply = .missing ∨ s.clk.now < t0 + 100000 ∨ (domState 12 s).answer ≠ .on → same .fieldRedriveStep))
    ∧ (f.redrive = none → same .fieldRedriveStep)
    ∧ ∀ n : Fin 16,
      let q := s.io.fq[n]
      let frame (t : State) : Prop := t.kept = { s.kept with io := t.io } ∧ (∀ m : Fin 16, m ≠ n → t.io.fq[m] = s.io.fq[m])
        ∧ t.io.fq[n].mode = q.mode ∧ t.io.fi = s.io.fi ∧ t.io.sw = s.io.sw
      (∀ tj : Int,
        (175 ≤ tj → fqGate q f.supply = true → Effects (.fieldOutputShutdown n tj) s fun t => frame t
          ∧ t.io.fq[n].shut = true ∧ t.io.fq[n].limiting = false ∧ t.io.fq[n].latched = q.cfg.getLsbD 28)
        ∧ (tj < 175 ∨ fqGate q f.supply = false → same (.fieldOutputShutdown n tj))
        ∧ (tj < 150 → q.shut = true → Effects (.fieldOutputRestart n tj) s fun t => frame t ∧ t.io.fq[n].shut = false
          ∧ t.io.fq[n].latched = q.latched)
        ∧ (150 ≤ tj ∨ q.shut = false → same (.fieldOutputRestart n tj)))
      ∧ (fqGate q f.supply = true → q.limiting = false → Effects (.fieldCurrentLimit n true) s fun t => frame t
          ∧ t.io.fq[n].limiting = true)
      ∧ (q.limiting = true → Effects (.fieldCurrentLimit n false) s fun t => frame t ∧ t.io.fq[n].limiting = false)
      ∧ (fqGate q f.supply = false ∨ q.limiting = true → same (.fieldCurrentLimit n true))
      ∧ (q.limiting = false → same (.fieldCurrentLimit n false))
      ∧ (∀ mv : Nat,
        let on : Prop := (domState 12 s).answer ≠ .off
        (on → 9000 < mv → q.mode = false → f.supply ≠ .missing → Effects (.fieldOutputFed n mv) s fun t => frame t ∧ t.io.fq[n].fed = true)
        ∧ (on → mv ≤ 9000 → q.fed = true → Effects (.fieldOutputFed n mv) s fun t => frame t ∧ t.io.fq[n].fed = false)
        ∧ (¬ on ∨ (mv ≤ 9000 ∧ q.fed = false) ∨ (9000 < mv ∧ (q.mode = true ∨ f.supply = .missing)) → same (.fieldOutputFed n mv)))
      ∧ (∀ t0, q.stretch = some t0 →
        (t0 ≤ s.clk.now → Effects (.faultStretchEnd n) s fun t => frame t ∧ t.io.fq[n] = { q with stretch := none })
        ∧ (s.clk.now < t0 → same (.faultStretchEnd n)))
      ∧ (q.stretch = none → same (.faultStretchEnd n))

/-- REFLEX_WRITE, REFLEX_ENABLE and REFLEX_READ (R349, R355, R356), REFLEX_EVALUATE (R346, R347), REFLEX_TIMER_EXPIRY (R345) and PROX_WAIT_EXPIRY (R351); the steps of R347 within a core cycle and the verdicts that count are DEDUCED (log entry 23). -/
def Obligations.ReflexTable : Prop :=
  ∀ (p : Packet) (s : State),
    let b := p.payload
    let img := b.drop 4
    let i0 : Fin 128 := Fin.ofNat 128 (byteAt b 0).toNat
    let said (c : Instr) (op : Half) (y : Ans) : Prop := Answers c op p s fun a t => a = y ∧ Entered (begin_ s) t
    let same (c : Instr) : Prop := Effects c s fun t => t = begin_ s
    (b.length = 68 → opReflexWrite.resOk b = true → AtHead 0x0900 .chip [0] p s →
      let allowed : Prop := (rfxAct img = true → rfxPermitted (rfxOpcode img) = true) ∧ rfxPayLen img ≤ 40
      (rfxRange img = true → allowed → Answers (.reflexWrite p) 0x0900 p s fun a t => a = .ok ∧ t.kept = s.kept ∧ t.rfx.occs = s.rfx.occs
          ∧ t.rfx.entries = s.rfx.entries.set i0 { s.rfx.entries[i0] with image := img, timerAt := none, waiting := none, holdUntil := 0 })
      ∧ (rfxRange img = false → said (.reflexWrite p) 0x0900 (.err 0x0940))
      ∧ (rfxRange img = true → ¬ allowed → said (.reflexWrite p) 0x0900 (.err 0x0941)))
    ∧ (b.length = 20 → opReflexEnable.resOk b = true → AtHead 0x0901 .chip [0] p s →
      Answers (.reflexEnable p) 0x0901 p s fun a t => a = .ok ∧ t.kept = s.kept ∧ t.rfx.occs = s.rfx.occs ∧ ∀ i : Fin 128,
        let x := s.rfx.entries[i]
        t.rfx.entries[i] = if entryMask b i.val then
            (if byteAt b 16 = 1 then { x with image := (byteAt x.image 0 ||| 0x80) :: x.image.drop 1 }
             else { x with image := (byteAt x.image 0 &&& 0x7F) :: x.image.drop 1, timerAt := none, waiting := none, holdUntil := 0 })
          else x)
    ∧ (b.length = 4 → opReflexRead.resOk b = true → AtHead 0x0902 .chip [0] p s → said (.reflexRead p) 0x0902 (.ok s.rfx.entries[i0].image))
    ∧ ((reflexRuns s = false ∨ s.rfx.occs = []) → same .reflexEvaluate)
    ∧ (∀ (o : Occ) (rest : List Occ) (i : Fin 128), reflexRuns s = true → takeOcc s.rfx.occs = some (o, rest) →
        (∀ j : Fin 128, (entryEnabled s.rfx.entries[j].image && trigMatches j.val s.rfx.entries[j].image o.kind) = decide (j = i)) →
      let e := s.rfx.entries[i]
      let only (y : RfxEntry) (t : State) : Prop := t.rfx.entries = s.rfx.entries.set i y ∧ t.rfx.discarded = 0
      let held := { e with holdUntil := s.clk.d00Clock + rfxRearm e.image }
      let free : Prop := e.holdUntil ≤ s.clk.d00Clock ∧ e.waiting = none
      let passes : Prop := rfxProx e.image = false ∨ nearHeld o.kind (rfxWait e.image) s = true
      (free → qualMet e.image s = true → passes → Effects .reflexEvaluate s fun t =>
          t.kept = { s.kept with fired := s.rfx.fired ++ [(i, e.image, o)] } ∧ only held t ∧ t.rfx.occs = rest)
      ∧ (free → qualMet e.image s = true → ¬ passes → Effects .reflexEvaluate s fun t => t.kept = s.kept ∧ t.rfx.occs = rest
          ∧ only { held with waiting := some (o, s.clk.d00Clock, s.clk.d00Clock + rfxWait e.image) } t)
      ∧ (free → qualMet e.image s = false → Effects .reflexEvaluate s fun t => t.kept = s.kept ∧ only e t ∧ t.rfx.occs = rest)
      ∧ (¬ free → Effects .reflexEvaluate s fun t => t.kept = s.kept ∧ only { e with sticky := e.sticky ||| 1 } t))
    ∧ (∀ (o : Occ) (i : Fin 128) (image : List Byte),
      let s0 := { s with rfx := { s.rfx with fired := [] } }
      let next : Fin 128 := Fin.ofNat 128 (byteAt image 18).toNat
      (admitFired { s with rfx := { s.rfx with fired := [(i, image, o)] } }
          = firedRest i image o (if rfxAct image && engineRuns s0 then arriveInside (storedPacket i image s0) false s0 else s0))
      ∧ ((byteAt image 18).getLsbD 7 = true → entryEnabled s.rfx.entries[next].image = true → trigType s.rfx.entries[next].image = 4 →
          (firedRest i image o s).rfx.entries[next].timerAt = some (s.clk.d00Clock + rfxDelay s.rfx.entries[next].image)))
    ∧ ∀ i : Fin 128,
      let e := s.rfx.entries[i]
      (∀ t0, e.timerAt = some t0 →
        (reflexRuns s = true → t0 ≤ s.clk.d00Clock → Effects (.reflexTimerExpiry i) s fun t => t.kept = s.kept
          ∧ t.rfx.entries = s.rfx.entries.set i { e with timerAt := none })
        ∧ ((reflexRuns s = false ∨ s.clk.d00Clock < t0) → same (.reflexTimerExpiry i)))
      ∧ (e.timerAt = none → same (.reflexTimerExpiry i))
      ∧ (∀ o t1 t2, e.waiting = some (o, t1, t2) →
        (reflexRuns s = true → t2 ≤ s.clk.d00Clock → Effects (.proxWaitExpiry i) s fun t => t.kept = s.kept
          ∧ t.rfx.entries = s.rfx.entries.set i { e with waiting := none, sticky := e.sticky ||| 2 })
        ∧ ((reflexRuns s = false ∨ s.clk.d00Clock < t2) → same (.proxWaitExpiry i)))
      ∧ (e.waiting = none → same (.proxWaitExpiry i))

/-- PORT_CONFIG (R389, R391), VLAN_WRITE, LIN_SCHEDULE (R378), FILTER_WRITE (R380), AUTH_CHANNEL (R384), FRAME_SEND (R382, R383, R385, R413) and FRAME_SEND_TIMEOUT (R382); what a change of settings ends and the codes between the rules are DEDUCED (log entries 25 and 26). -/
def Obligations.NetPackets : Prop :=
  ∀ (p : Packet) (s : State),
    let b := p.payload
    let one (st : Half) (o : Byte) : Ans := ⟨st, 0, be 2 1 ++ [o]⟩
    let said (c : Instr) (op : Half) (y : Ans) : Prop := Answers c op p s fun a t => a = y ∧ Entered (begin_ s) t
    let kind := (byteAt b 0).toNat
    let wr := numAt b 2 2
    let img (old : Word) : Word := writeFields (wordAt b 4) wr 0 (portFields kind) old
    let net (t : State) (x : NetSts) : Prop := t.kept = { s.kept with net := { x with swOut := [], canOut := [], linOut := [], wakeOut := [] } }
    (b.length = 8 → opPortConfig.resOk b = true →
      (∀ n : Fin 2, kind = 0 → (byteAt b 1).toNat = 2 ^ n.val → AtHead 0x0A00 (.eth n) [Fin.ofNat 16 (1 + n.val)] p s →
        Answers (.portConfig p) 0x0A00 p s fun a t => a = one 0 0 ∧ net t { s.net with eth := t.net.eth }
          ∧ t.net.eth[n].cfg = img s.net.eth[n].cfg ∧ (∀ m : Fin 2, m ≠ n → t.net.eth[m] = s.net.eth[m])
          ∧ t.net.eth[n].link = (if fld s.net.eth[n].cfg 30 2 ≠ fld (img s.net.eth[n].cfg) 30 2 ∧ s.net.eth[n].link ≠ 0 then 1
              else s.net.eth[n].link))
      ∧ (∀ c : Fin 6, kind = 1 → (byteAt b 1).toNat = 2 ^ c.val → AtHead 0x0A00 (.can c) [canDomain c] p s →
        let old := s.net.cans[c]
        let new := img old.cfg
        let bufs := if fld old.cfg 30 2 ≠ fld new 30 2 then [] else old.bufs
        let ends : Prop := fld old.cfg 30 2 ≠ fld new 30 2 ∨ (wr.testBit 0 = true ∧ new.getLsbD 11 = false)
        let frame (t : State) (wait : List (Fin 6 × QPkt × Nat)) : Prop :=
          net t { s.net with cans := t.net.cans, nets := t.net.nets, txWait := wait } ∧ (∀ m : Fin 6, m ≠ c → t.net.cans[m] = s.net.cans[m])
          ∧ (∀ m : Fin 16, m ≠ canNet c → t.net.nets[m] = s.net.nets[m]) ∧ t.net.cans[c].cfg = new
          ∧ (s.net.nets[canNet c].st ≠ .asleep → (ends → t.net.cans[c].busOff = false) ∧ (¬ ends → t.net.cans[c].busOff = old.busOff))
        (portOk 1 new = true → (∀ w ∈ s.net.txWait, w.1 ≠ c) → Answers (.portConfig p) 0x0A00 p s fun a t => a = one 0 0
          ∧ frame t s.net.txWait ∧ t.net.cans[c].bufs = bufs)
        ∧ (∀ w, portOk 1 new = true → s.net.txWait.find? (·.1 = c) = some w → Answers (.portConfig p) 0x0A00 p s fun a t => a = one 0 0
          ∧ (bufs.length < 8 → frame t (s.net.txWait.filter fun v => decide (v.2.1.seq ≠ w.2.1.seq))
            ∧ t.net.cans[c].bufs = bufs ++ [waitFrame w.2.1.pkt])
          ∧ (8 ≤ bufs.length → frame t s.net.txWait ∧ t.net.cans[c].bufs = bufs))
        ∧ (portOk 1 new = false → said (.portConfig p) 0x0A00 (one 0x0A40 0x80)))
      ∧ (∀ c : Fin 8, kind = 2 → (byteAt b 1).toNat = 2 ^ c.val → AtHead 0x0A00 (.lin c) [5] p s →
        (portOk 2 (img s.net.lins[c].cfg) = true → Answers (.portConfig p) 0x0A00 p s fun a t => a = one 0 0
          ∧ net t { s.net with lins := t.net.lins } ∧ (∀ m : Fin 8, m ≠ c → t.net.lins[m] = s.net.lins[m])
          ∧ t.net.lins[c].cfg = img s.net.lins[c].cfg ∧ t.net.lins[c].table = s.net.lins[c].table)
        ∧ (portOk 2 (img s.net.lins[c].cfg) = false → said (.portConfig p) 0x0A00 (one 0x0A40 0x80)))
      ∧ (2 < kind → AtHead 0x0A00 .chip [] p s → said (.portConfig p) 0x0A00 (.err 0x0A40)))
    ∧ (b.length = 8 → opVlanWrite.resOk b = true → AtHead 0x0A01 .chip [] p s → (domOn 1 s = true ∨ domOn 2 s = true) →
      (∀ h : kind < 32, Answers (.vlanWrite p) 0x0A01 p s fun a t => a = .ok ∧ Acted s (fun u => { u with net := { u.net with
        vlans := u.net.vlans.set kind ⟨(byteAt b 1).getLsbD 7, (byteAt b 1).setWidth 3, (byteAt b 2).setWidth 3, (halfAt b 4).setWidth 12⟩ } }) t)
      ∧ (32 ≤ kind → said (.vlanWrite p) 0x0A01 (.err 0x0A40)))
    ∧ (b.length = 4 + 12 * (byteAt b 1).toNat → opLinSchedule.resOk b = true →
      (∀ c : Fin 8, kind = c.val → AtHead 0x0A02 (.lin c) [5] p s →
        let tab := (List.range (byteAt b 1).toNat).map (linSlotAt b)
        let x := s.net.lins[c]
        (tab.length ≤ 32 → (∀ t ∈ tab, linSlotOk x t = true) → Answers (.linSchedule p) 0x0A02 p s fun a t => a = .ok
          ∧ net t { s.net with lins := s.net.lins.set c (if x.slotAt = none then { x with
              table := tab, next := none, slot := 0, awaiting := false, txNeed := [], sticky := x.sticky ||| 1 } else { x with next := some tab }) })
        ∧ ((32 < tab.length ∨ ∃ t ∈ tab, linSlotOk x t = false) → said (.linSchedule p) 0x0A02 (.err 0x0A40)))
      ∧ (7 < kind → AtHead 0x0A02 .chip [] p s → said (.linSchedule p) 0x0A02 (.err 0x0A40)))
    ∧ (b.length = 16 → opFilterWrite.resOk b = true → AtHead 0x0A03 .chip [0] p s →
      let port := (byteAt b 2).toNat
      (∀ h : kind < 64, port ≤ 15 → port ≠ 6 → port ≠ 7 → Answers (.filterWrite p) 0x0A03 p s fun a t => a = .ok ∧
        Acted s (fun u => { u with net := { u.net with filters := u.net.filters.set kind ⟨(byteAt b 1).getLsbD 7, (byteAt b 1).getLsbD 6,
          (byteAt b 1).getLsbD 5, port, (byteAt b 3).setWidth 2, numAt b 4 4, numAt b 8 4, (halfAt b 12).setWidth 10⟩ } }) t)
      ∧ ((64 ≤ kind ∨ port = 6 ∨ port = 7 ∨ 15 < port) → said (.filterWrite p) 0x0A03 (.err 0x0A40)))
    ∧ (b.length = 12 → opAuthChannel.resOk b = true → AtHead 0x0A04 .chip [0] p s →
      let good : Prop := kind < 32 ∧ (byteAt b 2).toNat < 6 ∧ (byteAt b 3).toNat < 64 ∧ 1 ≤ numAt b 8 2
      let i : Fin 32 := Fin.ofNat 32 kind
      let reset := (byteAt b 1).getLsbD 4
      (good → Answers (.authChannel p) 0x0A04 p s fun a t => a = .ok ∧ net t { s.net with chans := t.net.chans }
          ∧ (∀ m : Fin 32, m ≠ i → t.net.chans[m] = s.net.chans[m])
          ∧ t.net.chans[i] = { s.net.chans[i] with valid := (byteAt b 1).getLsbD 7, tx := (byteAt b 1).getLsbD 6, ext := (byteAt b 1).getLsbD 5, port := (byteAt b 2).toNat, slot := Fin.ofNat 64 (byteAt b 3).toNat, id := numAt b 4 4, window := numAt b 8 2, counter := if reset then 0 else s.net.chans[i].counter, dirty := s.net.chans[i].dirty || reset })
      ∧ (¬ good → said (.authChannel p) 0x0A04 (.err 0x0A40)))
    ∧ (b.length = 8 + fsLen b → opFrameSend.resOk b = true →
      (∀ u, opFrameSend.units p s = [u] → AtHead 0x0A05 u (rowDoms opFrameSend p u) p s → fsRange b = false →
        (fsAuth b = true → fsPort b < 6 → cryptoReady s = true) → said (.frameSend p) 0x0A05 (.err 0x0A40))
      ∧ (∀ c : Fin 6, fsPort b = c.val → AtHead 0x0A05 (.can c) [canDomain c] p s → fsAuth b = true → cryptoReady s = false →
        Begins (.frameSend p) s fun _ t => ∃ w ∈ t.cmd.waiting, w.pkt = { p with opcode := 0x0A05 } ∧ w.begun = true ∧ t.kept = s.kept)
      ∧ (∀ c : Fin 6, fsPort b = c.val → AtHead 0x0A05 (.can c) [canDomain c] p s → fsRange b = true →
        let x := s.net.cans[c]
        let n := canNet c
        let asleep : Prop := s.net.nets[n].st = .asleep ∨ s.net.nets[n].st = .transition
        let lets : Prop := asleep → txWake s.net.nets[n] = true
        let sends : Prop := canMode x = 1 ∧ x.busOff = false ∧ (fsFd b = true → fdEn x = true)
        let placed (f : CanFrame) (chans : Vector AuthChan 32) : Prop :=
          (x.bufs.length < 8 → Answers (.frameSend p) 0x0A05 p s fun a t => a = .ok
            ∧ net t { s.net with cans := t.net.cans, chans := chans, nets := t.net.nets } ∧ (∀ m : Fin 6, m ≠ c → t.net.cans[m] = s.net.cans[m])
            ∧ (∀ m : Fin 16, m ≠ n → t.net.nets[m] = s.net.nets[m]) ∧ t.net.cans[c].bufs = x.bufs ++ [f]
            ∧ (¬ asleep → t.net.cans[c] = { x with bufs := x.bufs ++ [f] })
            ∧ (asleep → t.net.nets[n].st = .need ∧ t.net.nets[n].lastCause = 4))
          ∧ (8 ≤ x.bufs.length → Begins (.frameSend p) s fun _ t => ∃ w, w.pkt = { p with opcode := 0x0A05, payload := b.take 8 ++ f.data }
              ∧ net t { s.net with chans := chans, txWait := s.net.txWait ++ [(c, w, s.clk.now)] })
        (lets → sends → fsAuth b = false → placed (fsFrame b) s.net.chans)
        ∧ (lets → ¬ sends → (fsAuth b = true → cryptoReady s = true) → said (.frameSend p) 0x0A05 (.err 0x0A42))
        ∧ (lets → sends → fsAuth b = true → cryptoReady s = true →
          (chanFor true c.val (fsExt b) (fsId b) s = none → said (.frameSend p) 0x0A05 (.err 0x0A43))
          ∧ ∀ i, chanFor true c.val (fsExt b) (fsId b) s = some i →
            let y := s.net.chans[i]
            let k := s.ks.slots[y.slot]
            let no (e : Ans) : Prop := Answers (.frameSend p) 0x0A05 p s fun a t => a = e ∧ t.kept = s.kept
            let mac := frameMac k.key (fsExt b) (fsFrame b).id.toNat (y.counter + 1) (b.drop 8)
            (k.st = .loaded → k.attr.getLsbD 1 = true → y.counter ≠ 0xFFFFFFFF →
              placed { fsFrame b with data := b.drop 8 ++ be 2 ((y.counter + 1).toNat % 65536) ++ mac }
              (s.net.chans.set i { y with counter := y.counter + 1, dirty := true }))
            ∧ (k.st = .loaded → k.attr.getLsbD 1 = true → y.counter = 0xFFFFFFFF → no (.err stAuthFail))
            ∧ (k.st ≠ .orphaned → (k.st ≠ .loaded ∨ k.attr.getLsbD 1 = false) → no (.err stAuthFail 1))
            ∧ (k.st = .orphaned → no (.err stOrphaned)))
        ∧ (¬ lets → (fsAuth b = true → cryptoReady s = true) → Answers (.frameSend p) 0x0A05 p s fun a t =>
            a = .err 0x0C41 ∧ t.net.nets[n].sticky.getLsbD 0 = true ∧ net t { s.net with nets := t.net.nets }))
      ∧ (∀ c : Fin 8, fsPort b = 8 + c.val → AtHead 0x0A05 (.lin c) [5] p s → fsRange b = true →
        let x := s.net.lins[c]
        let n := linNet c
        let asleep : Prop := s.net.nets[n].st = .asleep ∨ s.net.nets[n].st = .transition
        let lets : Prop := asleep → txWake s.net.nets[n] = true
        let mine (t : LinSlot) : Bool := t.publish && decide (t.id.toNat = fsId b)
        let table := x.table.map fun t => if mine t then { t with data := b.drop 8 } else t
        (lets → fsFd b = false → fsAuth b = false → (∃ t ∈ x.table, mine t = true) → Answers (.frameSend p) 0x0A05 p s fun a t => a = .ok
          ∧ (¬ asleep → net t { s.net with lins := s.net.lins.set c { x with table := table } })
          ∧ (asleep → net t { s.net with lins := t.net.lins, nets := t.net.nets } ∧ (∀ m : Fin 8, m ≠ c → t.net.lins[m] = s.net.lins[m])
            ∧ t.net.lins[c].table = table ∧ BitVec.ofNat 6 (fsId b) ∈ t.net.lins[c].txNeed ∧ t.net.nets[n].st = .need
            ∧ t.net.nets[n].lastCause = 4))
        ∧ (lets → fsFd b = false → fsAuth b = false → (∀ t ∈ x.table, mine t = false) → said (.frameSend p) 0x0A05 (.err 0x0A42))
        ∧ (lets → fsFd b = true → said (.frameSend p) 0x0A05 (.err 0x0A42))
        ∧ (lets → fsFd b = false → fsAuth b = true → said (.frameSend p) 0x0A05 (.err 0x0A43))
        ∧ (¬ lets → Answers (.frameSend p) 0x0A05 p s fun a t => a = .err 0x0C41 ∧ t.net.nets[n].sticky.getLsbD 0 = true
            ∧ net t { s.net with nets := t.net.nets })))
    ∧ ∀ c : Fin 6,
      (∀ w, s.net.txWait.find? (·.1 = c) = some w → w.2.2 + 10000000 ≤ s.clk.now → Effects (.frameSendTimeout c) s fun t =>
          (let y := { s.net.cans[c] with sticky := s.net.cans[c].sticky ||| 1 }
           net t { s.net with cans := s.net.cans.set c y, txWait := s.net.txWait.filter (fun v => decide (v.2.1.seq ≠ w.2.1.seq)) })
          ∧ ∃ u, t = complete w.2.1 (.err 0x0A41) u)
      ∧ ((∀ w, s.net.txWait.find? (·.1 = c) = some w → s.clk.now < w.2.2 + 10000000) → Effects (.frameSendTimeout c) s fun t => t = begin_ s)

/-- LINK_CHANGE, LINK_QUALITY_UPDATE (R360), SWITCH_FRAME, MAC_ENTRY_AGE (R362 to R365), CAN_BUS_ERROR, CAN_BUS_OFF, BUS_OFF_RECOVERY (R376), CAN_FRAME_RECEIVED (R379, R386), CAN_FRAME_SENT (R382), the LIN rows (R377, R378), FORWARD_PACKET_BUILD (R381) and TRANSCEIVER_SUPPLY_CHANGE (R560). The readings between the rules are DEDUCED (log entries 25, 26, 27 and 37). -/
def Obligations.NetRows : Prop :=
  ∀ s : State,
    let same (c : Instr) : Prop := Effects c s fun t => t = begin_ s
    let net (t : State) (x : NetSts) : Prop := t.kept = { s.kept with net := { x with swOut := [], canOut := [], linOut := [], wakeOut := [] } }
    let took (port flags au : Nat) (ext : Bool) (id z : Nat) (data : List Byte) (t : State) : Prop := ∀ h : Fin 10,
      let named := s.net.filters.toList.any fun f => filterMatches f port ext id && f.hosts.getLsbD h.val
      (named = true → ∃ e, e.port = port ∧ e.bytes = fwdEntry port flags au id z data ∧ t.net.fwd[h].entries = s.net.fwd[h].entries ++ [e])
      ∧ (named = false → t.net.fwd[h] = s.net.fwd[h])
    (∀ n : Fin 2,
      let x := s.net.eth[n]
      (∀ l : BitVec 2,
        let may : Prop := domOn (Fin.ofNat 16 (1 + n.val)) s = true ∧ s.net.nets[ethNet n].st ≠ .asleep ∧ l ≠ 3 ∧ (s.boot.condition = 1 → l = 0)
        (may → l ≠ x.link →
          Effects (.linkChange n l) s fun t => t.net.eth[n].link = l ∧ net t { s.net with eth := t.net.eth }
            ∧ (∀ m : Fin 2, m ≠ n → t.net.eth[m] = s.net.eth[m]) ∧ (l = 2 → t.net.eth[n].sticky = x.sticky ||| 0x40)
            ∧ (x.link = 2 → t.net.eth[n].sticky = x.sticky ||| 0x80) ∧ (l ≠ 2 → x.link ≠ 2 → t.net.eth[n] = { x with link := l }))
        ∧ (¬ may ∨ l = x.link → same (.linkChange n l)))
      ∧ ∀ q : BitVec 3,
        (x.link = 2 → Effects (.linkQualityUpdate n q) s fun t => net t { s.net with eth := s.net.eth.set n { x with
          quality := q, sticky := if q.toNat < 3 ∧ 3 ≤ x.quality.toNat then x.sticky ||| 1 else x.sticky } })
        ∧ (x.link ≠ 2 → same (.linkQualityUpdate n q)))
    ∧ (∀ (port : Fin 3) (f : EthFrame) (len : Nat) (fcs : Bool) (full : BitVec 3),
      let p : Fin 2 := Fin.ofNat 2 port.val
      let outer : Prop := port.val < 2
      let c := Instr.switchFrame port f len fcs full
      let passes : Prop := switchOn s = true ∧ (outer → portPasses p s = true)
      let stuck (m : BitVec 8) (t : State) : Prop := t.net.swOut = []
        ∧ net t { s.net with eth := s.net.eth.set p { s.net.eth[p] with sticky := s.net.eth[p].sticky ||| m } }
      let good : Prop := fcs = true ∧ 64 ≤ len ∧ len ≤ 1522
      let reserved : Prop := f.dst = timeMac ∨ reservedMac f.dst = true
      let cfg := s.net.eth[p].cfg
      let filter : Bool := decide (port.val < 2) && cfg.getLsbD 29
      let vid : BitVec 12 := f.tag.elim (if filter then BitVec.ofNat 12 (fld cfg 14 12) else 0) (·.2)
      let pcp : BitVec 3 := f.tag.elim (if port.val < 2 then BitVec.ofNat 3 (fld cfg 26 3) else 0) (·.1)
      let entry := vlanOf vid s
      let member (m : Nat) : Bool := entry.any fun v => v.members.getLsbD m
      let admitted : Prop := filter = true → member port.val = true
      let known := if groupMac f.dst = true then none else lookupMac f.dst vid (learnMac f.src vid port s)
      let goes (m : Nat) : Bool := decide (m ≠ port.val) && (!filter || member m) && known.all (·.val = m)
      let open_ (o : Fin 2) : Bool := goes o.val && portPasses o s
      let tagAt (o : Fin 2) := if filter then entry.elim f.tag (egressTag (Fin.ofNat 3 o.val) vid pcp) else f.tag
      (¬ passes → same c)
      ∧ (passes → outer → fcs = false → Effects c s (stuck 0x20))
      ∧ (passes → outer → fcs = true → (len < 64 ∨ 1522 < len) → Effects c s (stuck 0x10))
      ∧ (passes → ((¬ outer ∧ ¬ good) ∨ (good ∧ reserved)) → same c)
      ∧ (passes → good → ¬ reserved → outer → ¬ admitted → Effects c s (stuck 0x04))
      ∧ (passes → good → ¬ reserved → admitted → f.dst ≠ Config.endpointMac → Effects c s fun t =>
          net t { s.net with eth := t.net.eth, fdb := (learnMac f.src vid port s).net.fdb }
          ∧ t.net.swOut = (([0, 1] : List (Fin 2)).filter fun o => open_ o && !full.getLsbD o.val).map
              (fun o => (Fin.ofNat 3 o.val, pcpQueue pcp, { f with tag := tagAt o }))
          ∧ ∀ o : Fin 2, t.net.eth[o] = { s.net.eth[o] with sticky := s.net.eth[o].sticky
              ||| (if open_ o = true ∧ full.getLsbD o.val = true then 0x08 else 0)
              ||| (if o = p ∧ goes 2 = true ∧ full.getLsbD 2 = false then 0x02 else 0) })
      ∧ (passes → good → ¬ reserved → admitted → outer → f.dst = Config.endpointMac → (filter = true → member 2 = true) → full.getLsbD 2 = false →
        let s1 := learnMac f.src vid port (begin_ s)
        Effects c s fun t => t = if f.etherType = 0x88B5 then ethCommandFrame ⟨p, f.src, f.tag.elim 0 (·.2), pcp⟩ f.payload s1 else endpointDrop p s1))
    ∧ (∀ (mac : BitVec 48) (vlan : BitVec 12), Effects (.macEntryAge mac vlan) s fun t => net t { s.net with fdb := t.net.fdb }
        ∧ ∀ e, e ∈ t.net.fdb ↔ e ∈ s.net.fdb ∧ ¬ (e.mac = mac ∧ e.vlan = vlan ∧ e.at_ + 300000000000 ≤ s.clk.now))
    ∧ (∀ c : Fin 6,
      let x := s.net.cans[c]
      let live := canLive c s
      (∀ f : CanFrame,
        let r := Instr.canFrameReceived c f
        let woken : Prop := wakeMatches s.net.wufs[c] f = true ∧ netListens (canNet c) s = true
        let ok : Prop := ¬ woken ∧ live = true ∧ (f.fd = true → fdEn x = true)
        let ch := chanFor false c.val f.ext f.id.toNat s
        (woken → Effects r s fun t => t = netWakeDetect (canNet c) true (begin_ s))
        ∧ (¬ woken → live = false → same r)
        ∧ (live = true → f.fd = true → fdEn x = false → Effects r s fun t =>
            net t { s.net with cans := s.net.cans.set c { x with sticky := x.sticky ||| 2 } })
        ∧ (ok → domOn 0 s = false → Effects r s fun t => net t { s.net with nets := t.net.nets })
        ∧ (ok → domOn 0 s = true → ch = none → Effects r s fun t => took c.val (canFlags f) 0 f.ext f.id.toNat (zone s) f.data t
            ∧ net t { s.net with nets := t.net.nets, fwd := t.net.fwd })
        ∧ (∀ i, ok → domOn 0 s = true → ch = some i →
          let a := s.net.chans[i]
          let k := s.ks.slots[a.slot]
          (cryptoReady s = false → Effects r s fun t =>
            net t { s.net with nets := t.net.nets, authRx := s.net.authRx ++ [⟨c, f, zone s⟩] })
          ∧ (f.data.length < 9 → (receiveCheck i f s).1 = false)
          ∧ (cryptoReady s = true → (receiveCheck i f s).1 = false → Effects r s fun t => t.net.cans[c].sticky.getLsbD 3 = true
            ∧ net t { s.net with nets := t.net.nets, cans := t.net.cans, fwd := t.net.fwd } ∧ (∀ m : Fin 6, m ≠ c → t.net.cans[m] = s.net.cans[m])
            ∧ ((∃ g ∈ s.net.filters.toList, filterMatches g c.val f.ext f.id.toNat = true ∧ g.drop = true) → t.net.fwd = s.net.fwd)
            ∧ ((∀ g ∈ s.net.filters.toList, filterMatches g c.val f.ext f.id.toNat = true → g.drop = false) →
              took c.val (canFlags f) 2 f.ext f.id.toNat (zone s) f.data t))
          ∧ (∀ d : List Byte, cryptoReady s = true → k.st = .loaded → k.attr.getLsbD 1 = true → 1 ≤ a.window → a.counter ≠ 0xFFFFFFFF → d ≠ [] → k.key.length = 16 →
            f.data = d ++ be 2 ((a.counter + 1).toNat % 65536) ++ frameMac k.key f.ext f.id.toNat (a.counter + 1) d →
            Effects r s fun t => took c.val (canFlags f) 1 f.ext f.id.toNat (zone s) f.data t ∧ net t { s.net with
              nets := t.net.nets, fwd := t.net.fwd, chans := s.net.chans.set i { a with counter := a.counter + 1, dirty := true } })))
      ∧ (live = true → canMode x = 1 → s.net.vs5Low = false → busesDriven s = true → x.bufs ≠ [] → Effects (.canFrameSent c) s fun t =>
          ∃ f, f ∈ x.bufs ∧ (∀ g ∈ x.bufs, canKey f ≤ canKey g) ∧ (c, f) ∈ t.net.canOut
            ∧ ((∀ w ∈ s.net.txWait, w.1 ≠ c) → net t { s.net with nets := t.net.nets, cans := s.net.cans.set c { x with bufs := x.bufs.erase f } })
            ∧ ∀ w, s.net.txWait.find? (·.1 = c) = some w → x.bufs.length ≤ 8 →
              let left := s.net.txWait.filter (fun v => decide (v.2.1.seq ≠ w.2.1.seq))
              let y := { x with bufs := x.bufs.erase f ++ [waitFrame w.2.1.pkt] }
              net t { s.net with nets := t.net.nets, txWait := left, cans := s.net.cans.set c y })
      ∧ ((live = false ∨ canMode x ≠ 1 ∨ s.net.vs5Low = true ∨ busesDriven s = false ∨ x.bufs = []) → same (.canFrameSent c))
      ∧ (live = true → canMode x = 1 → Effects (.canBusOff c) s fun t =>
          let y := { x with busOff := true, tec := 256, bufs := [], sticky := x.sticky ||| (if x.bufs = [] then 0x80 else 0xA0) }
          net t { s.net with nets := t.net.nets, txWait := s.net.txWait.filter (fun w => decide (w.1 ≠ c)), cans := s.net.cans.set c y })
      ∧ ((live = false ∨ canMode x ≠ 1) → same (.canBusOff c))
      ∧ (canState c s = 3 → x.cfg.getLsbD 11 = true → Effects (.busOffRecovery c) s fun t =>
          net t { s.net with cans := s.net.cans.set c { x with busOff := false, tec := 0, rec_ := 0 } })
      ∧ ((canState c s ≠ 3 ∨ x.cfg.getLsbD 11 = false) → same (.busOffRecovery c))
      ∧ ∀ tec rec_ : Nat,
        (live = true → Effects (.canBusError c tec rec_) s fun t => t.net.cans[c].tec = tec ∧ t.net.cans[c].rec_ = rec_
          ∧ t.net.cans[c].sticky.getLsbD 1 = true ∧ t.net.cans[c].bufs = x.bufs ∧ net t { s.net with cans := t.net.cans }
          ∧ ∀ m : Fin 6, m ≠ c → t.net.cans[m] = s.net.cans[m])
        ∧ (live = false → same (.canBusError c tec rec_)))
    ∧ (∀ c : Fin 8,
      let x := s.net.lins[c]
      let frame (t : State) : Prop := net t { s.net with lins := t.net.lins, nets := t.net.nets } ∧ ∀ m : Fin 8, m ≠ c → t.net.lins[m] = s.net.lins[m]
      let j := if x.slotAt.isSome then (if x.slot + 1 < x.table.length then x.slot + 1 else 0) else x.slot
      (linSlotOver c s = false → same (.linSlotStart c))
      ∧ (linSlotOver c s = true → x.next = none → linRuns c s = false → Effects (.linSlotStart c) s fun t => frame t
          ∧ t.net.lins[c] = if x.slotAt.isSome then { x with slot := j, slotAt := none } else x)
      ∧ (∀ e, linSlotOver c s = true → x.next = none → linRuns c s = true → x.table[j]? = some e → Effects (.linSlotStart c) s fun t => frame t
          ∧ t.net.lins[c].slot = j ∧ t.net.lins[c].slotAt = some s.clk.now ∧ t.net.lins[c].awaiting = (!e.publish)
          ∧ t.net.linOut = [(c, e.id, e.classic || e.id == 0x3C || e.id == 0x3D, if e.publish then e.data else [])])
      ∧ (∀ tab, linSlotOver c s = true → x.next = some tab → Effects (.linSlotStart c) s fun t => frame t
          ∧ t.net.lins[c].table = tab ∧ t.net.lins[c].slot = 0 ∧ t.net.lins[c].next = none ∧ t.net.lins[c].sticky.getLsbD 0 = true
          ∧ (∀ e, linRuns c s = true → tab[0]? = some e → t.net.lins[c].slotAt = some s.clk.now ∧ t.net.lins[c].awaiting = (!e.publish)
            ∧ t.net.linOut = [(c, e.id, e.classic || e.id == 0x3C || e.id == 0x3D, if e.publish then e.data else [])]))
      ∧ (∀ at_ e, x.slotAt = some at_ → x.table[x.slot]? = some e →
        (∀ (data : List Byte) (framing sum : Bool),
          let r := Instr.linFrameReceived c data framing sum
          (domOn 5 s = false → same r)
          ∧ (domOn 5 s = true → framing = false → Effects r s fun t => frame t ∧ t.net.lins[c] =
              { x with awaiting := false, sticky := x.sticky ||| 2 })
          ∧ (domOn 5 s = true → framing = true → x.awaiting = false → same r)
          ∧ (domOn 5 s = true → framing = true → x.awaiting = true → data.length = e.len → sum = false → Effects r s fun t => frame t
              ∧ t.net.lins[c] = { x with awaiting := false, sticky := x.sticky ||| 4 })
          ∧ (domOn 5 s = true → framing = true → x.awaiting = true → data.length ≠ e.len → Effects r s fun t => frame t
              ∧ t.net.lins[c] = { x with awaiting := false, sticky := x.sticky ||| 8 })
          ∧ (domOn 5 s = true → domOn 0 s = false → framing = true → x.awaiting = true → data.length = e.len → sum = true → Effects r s fun t =>
              net t { s.net with lins := s.net.lins.set c { x with awaiting := false } })
          ∧ (domOn 5 s = true → domOn 0 s = true → framing = true → x.awaiting = true → data.length = e.len → sum = true → Effects r s fun t =>
              took (8 + c.val) 0 0 false e.id.toNat (zone s - (s.clk.now - at_)) data t
              ∧ net t { s.net with fwd := t.net.fwd, lins := s.net.lins.set c { x with awaiting := false } }))
        ∧ (x.awaiting = true → at_ + linBitTenths x (340 + 140 * (e.len + 1)) ≤ s.clk.now → Effects (.linResponseTimeout c) s fun t => frame t
            ∧ t.net.lins[c] = { x with awaiting := false, sticky := x.sticky ||| 8 })
        ∧ ((x.awaiting = false ∨ s.clk.now < at_ + linBitTenths x (340 + 140 * (e.len + 1))) → same (.linResponseTimeout c)))
      ∧ (x.slotAt = none ∨ x.table[x.slot]? = none → same (.linResponseTimeout c) ∧ ∀ data framing sum, same (.linFrameReceived c data framing sum)))
    ∧ (∀ h : Fin 10,
      let q := s.net.fwd[h]
      let h14 : Fin 14 := Fin.ofNat 14 h.val
      let due : Prop := domOn 0 s = true ∧ ∃ t0, q.at_ = some t0 ∧ t0 + 50000 ≤ s.clk.now
      (due → Effects (.forwardPacketBuild h) s fun t => t.net.fwd = s.net.fwd.set h ⟨[], none⟩
        ∧ net t { s.net with fwd := t.net.fwd, cans := t.net.cans, lins := t.net.lins }
        ∧ (q.entries ≠ [] → ((q.entries.map (·.bytes)).flatten).length ≤ 1020 → s.hosts[h14].out.length < Config.outCap →
          (h.val < 2 ∨ isLead s = true ∧ s.hosts[h14].reg.isSome = true) → ∃ prio : BitVec 2, t.hosts[h14].out = s.hosts[h14].out ++ [⟨1,
            packetBytes (hostPacket 0x4A00 prio (Fin.ofNat 16 h.val) (be 2 q.entries.length ++ be 2 0 ++ (q.entries.map (·.bytes)).flatten) s),
            0, s.clk.now, .none⟩]))
      ∧ (¬ due → same (.forwardPacketBuild h)))
    ∧ ∀ mV : Nat, Effects (.transceiverSupplyChange mV) s fun t => t = { begin_ s with net := { (begin_ s).net with vs5Low := decide (mV < 5000) } }

/-- TIME_READ (R390), TIME_CONFIG (R368, R391), TIME_SET (R372), WALL_SET (R373), PDELAY_REQUEST (R367, R368), SYNC_RECEIVED (R369), SYNC_SEND (R367) and SYNC_TIMEOUT (R370). The servo's gains are free values (log entry 3); AS_CAPABLE and FREE follow log entry 24. -/
def Obligations.ZoneAndWallTime : Prop :=
  ∀ (p : Packet) (s : State),
    let b := p.payload
    let same (c : Instr) : Prop := Effects c s fun t => t = begin_ s
    let eth (t : State) : Prop := t.kept = { s.kept with net := { s.kept.net with eth := t.net.eth } }
    let cfg := s.zone.cfg
    let held : Prop := s.zone.state = .locking ∨ s.zone.state = .locked
    (b = [] → AtHead 0x0B00 .chip [0] p s → Answers (.timeRead p) 0x0B00 p s fun a t => Entered (begin_ s) t
      ∧ a = .ok (be 8 s.zone.time ++ be 4 s.clk.wall.toNat ++ be 4 (sat32 s.zone.offset) ++ be 4 (twos 32 (s.zone.rate * 1000000 / 4294967296))
        ++ be 6 s.clk.life.toNat ++ be 1 s.zone.state.code ++ [0] ++ be 4 (sinceSync s)) ∧ a.data.length = 32)
    ∧ (b.length = 4 → onlyBits 3 0xE0 b = true → AtHead 0x0B01 .chip [0] p s →
      let w := wordAt b 0
      (timeConfigOk w = true → Answers (.timeConfig p) 0x0B01 p s fun a t => a = .ok ∧ t.zone.cfg = w ∧ t.zone.time = s.zone.time
          ∧ (upstreamPort w = none → t.zone.state = .free) ∧ eth t)
      ∧ ((timeConfigOk w = false ∨ (portRole 0 w = 1 ∧ portRole 1 w = 1)) → Answers (.timeConfig p) 0x0B01 p s fun a t =>
          a = .err 0x0B40 ∧ Entered (begin_ s) t))
    ∧ (b.length = 12 → zeroAt [9, 10, 11] b = true → AtHead 0x0B02 .chip [0] p s →
      let v := numAt b 0 8
      let new := if byteAt b 8 = 0 then v else (s.zone.time + v) % 2 ^ 64
      (1 < (byteAt b 8).toNat → Answers (.timeSet p) 0x0B02 p s fun a t => a = .err 0x0B40 ∧ Entered (begin_ s) t)
      ∧ ((byteAt b 8).toNat ≤ 1 → (held ∨ followsLead s = true) → Answers (.timeSet p) 0x0B02 p s fun a t =>
          a = .err 0x0B41 ∧ Entered (begin_ s) t)
      ∧ ((byteAt b 8).toNat ≤ 1 → ¬ held → followsLead s = false → Answers (.timeSet p) 0x0B02 p s fun a t => a = .ok ∧ t.zone.time = new
          ∧ t.net = (begin_ s).net ∧ t.nv = s.nv ∧ (new ≠ s.zone.time → t.zone.sticky.getLsbD 5 = true)))
    ∧ (b.length = 8 → zeroAt [4, 5, 6, 7] b = true → AtHead 0x0B03 .chip [0] p s →
      (followsLead s = true → Answers (.wallSet p) 0x0B03 p s fun a t => a = .err 0x0B41 ∧ Entered (begin_ s) t)
      ∧ (followsLead s = false → Answers (.wallSet p) 0x0B03 p s fun a t => a = .ok ∧ t.clk = { s.clk with wall := wordAt b 0, wallFrac := 0 }
          ∧ t.zone = { s.zone with sticky := s.zone.sticky ||| 4 } ∧ t.kept = s.kept))
    ∧ (∀ n : Fin 2,
      let x := s.net.eth[n]
      let runs := portTimeRuns n s
      let frame (t : State) : Prop := eth t ∧ ∀ m : Fin 2, m ≠ n → t.net.eth[m] = s.net.eth[m]
      (∀ (yes : Bool) (d : Nat),
        let answers := (yes :: x.answers).take 3
        let delay := if yes then d else x.delay
        (runs = true → portRole n cfg ≠ 0 → Effects (.pdelayRequest n yes d) s fun t => frame t ∧ t.net.eth[n].answers = answers
          ∧ t.net.eth[n].delay = delay ∧ t.net.eth[n].asCap = (answers.all id && decide (delay ≤ neighborThresh cfg))
          ∧ (answers = [false, false, false] → t.net.eth[n].stickyT.getLsbD 3 = true)
          ∧ (yes = true → neighborThresh cfg < d → t.net.eth[n].stickyT.getLsbD 1 = true))
        ∧ ((runs = false ∨ portRole n cfg = 0) → same (.pdelayRequest n yes d)))
      ∧ (∀ (o : Nat) (corr : Int) (one : Bool),
        let c := Instr.syncReceived n o corr one
        let off : Int := s.zone.time - (o + corr + x.delay)
        let far : Prop := s.zone.state = .free ∨ fld cfg 17 8 * 10000 < off.natAbs
        let good := if off.natAbs ≤ 1000 then s.zone.good + 1 else 0
        (runs = true → portRole n cfg = 1 → one = true → Effects c s fun t => t.zone = s.zone
          ∧ t.kept = { s.kept with net := { s.kept.net with eth := s.net.eth.set n { x with stickyT := x.stickyT ||| 1 } } })
        ∧ (runs = true → portRole n cfg = 1 → one = false → x.asCap = true → far → Effects c s fun t => t.zone.state = .locking
          ∧ (t.zone.time : Int) = (s.zone.time - off) % 2 ^ 64 ∧ t.zone.offset = off ∧ t.zone.good = 0
          ∧ t.zone.lastSync = some s.clk.now ∧ t.zone.sticky.getLsbD 5 = true ∧ t.net = (begin_ s).net)
        ∧ (runs = true → portRole n cfg = 1 → one = false → x.asCap = true → ¬ far → Effects c s fun t => t.zone.time = s.zone.time
          ∧ t.zone.offset = off ∧ t.zone.lastSync = some s.clk.now ∧ t.zone.good = good ∧ t.zone.rate.natAbs ≤ 2147483648
          ∧ t.kept = s.kept ∧ t.zone.state = (if s.zone.state = .locked ∧ 5000 < off.natAbs then .locking
              else if (s.zone.state = .locking ∨ s.zone.state = .holdover) ∧ 4 ≤ good then .locked else s.zone.state))
        ∧ ((runs = false ∨ portRole n cfg ≠ 1 ∨ (one = false ∧ x.asCap = false)) → same c))
      ∧ (runs = true → portRole n cfg = 2 → Effects (.syncSend n) s fun t => t.zone = s.zone
          ∧ t.kept = { s.kept with net := { s.kept.net with eth := s.net.eth.set n { x with syncAt := some s.zone.time } } })
      ∧ ((runs = false ∨ portRole n cfg ≠ 2) → same (.syncSend n))
      ∧ (upstreamPort cfg = some n →
        let due := s.zone.lastSync.getD 0 + fld cfg 5 4 * syncInterval cfg
        (held → due ≤ s.clk.now → Effects .syncTimeout s fun t => t.zone.state = .holdover ∧ t.zone.time = s.zone.time
          ∧ t.zone.rate = s.zone.rate ∧ frame t ∧ t.net.eth[n].stickyT.getLsbD 2 = true)
        ∧ ((¬ held ∨ s.clk.now < due) → same .syncTimeout)))
    ∧ (upstreamPort cfg = none → same .syncTimeout)

/-- DORM_CONFIG, DORM_NEED, DORM_KEEP and DORM_WUF (R398 to R400, R410, R415, R416). That host ID 13 has no bit is the model's choice (log entry 28). -/
def Obligations.DormancyPackets : Prop :=
  ∀ (p : Packet) (s : State),
    let b := p.payload
    let one (st : Half) (o : Byte) : Ans := ⟨st, 0, be 2 1 ++ [o]⟩
    let said (c : Instr) (op : Half) (y : Ans) : Prop := Answers c op p s fun a t => a = y ∧ Entered (begin_ s) t
    let net (t : State) (x : NetSts) : Prop := t.kept = { s.kept with net := { x with swOut := [], canOut := [], linOut := [], wakeOut := [] } }
    (∀ n : Fin 16,
      let x := s.net.nets[n]
      let frame (t : State) (leases : Vector (Option Nat) 13) : Prop :=
        net t { s.net with nets := t.net.nets, lins := t.net.lins, cans := t.net.cans, eth := t.net.eth, leases := leases }
        ∧ ∀ m : Fin 16, m ≠ n → t.net.nets[m] = s.net.nets[m]
      (b.length = 16 → opDormConfig.resOk b = true → numAt b 0 2 = 2 ^ n.val → AtHead 0x0C00 .chip [] p s →
        let w := dormWords n (numAt b 2 2) b x
        let ok := dormOk { x with cfg1 := w.1, cfg2 := w.2.1, cfg3 := w.2.2 }
        (ok = true → Answers (.dormConfig p) 0x0C00 p s fun a t => a = one 0 0 ∧ frame t s.net.leases
          ∧ t.net.nets[n].cfg1 = w.1 ∧ t.net.nets[n].cfg2 = w.2.1 ∧ t.net.nets[n].cfg3 = w.2.2
          ∧ (w.1.getLsbD 31 = false → t.net.nets[n].st = .disabled)
          ∧ (w.1.getLsbD 31 = true → x.st = .disabled → t.net.nets[n].st = (if localNeed n s then .need else .idle))
          ∧ (w.1.getLsbD 31 = true → x.st ≠ .disabled → t.net.nets[n].st = x.st)
          ∧ (w.1.getLsbD 31 = false → x.st = .asleep → t.net.nets[n].lastCause = 7))
        ∧ (ok = false → said (.dormConfig p) 0x0C00 (one 0x0C40 0x90)))
      ∧ (b.length = 4 → numAt b 0 2 = 2 ^ n.val → AtHead 0x0C01 (netUnit n) [netDomain n] p s →
        (1 < (byteAt b 2).toNat → said (.dormNeed p) 0x0C01 (.err 0x0C40))
        ∧ ((byteAt b 2).toNat ≤ 1 → 13 ≤ p.host.val → said (.dormNeed p) 0x0C01 (one 0 0))
        ∧ ∀ h : Fin 13, p.host.val = h.val →
          let bit : BitVec 13 := BitVec.ofNat 13 (2 ^ h.val)
          let lease := (byteAt b 3).toNat
          (byteAt b 2 = 1 → Answers (.dormNeed p) 0x0C01 p s fun a t => a = one 0 0
            ∧ frame t (s.net.leases.set h (if lease = 0 then none else some (s.clk.now + lease * 100000000)))
            ∧ t.net.nets[n].needHosts = x.needHosts ||| bit ∧ t.net.nets[n].st = (if x.st = .disabled then .disabled else .need)
            ∧ (x.st = .asleep → t.net.nets[n].lastCause = 3 ∧ t.net.nets[n].sticky.getLsbD 3 = true))
          ∧ (byteAt b 2 = 0 → Answers (.dormNeed p) 0x0C01 p s fun a t => a = one 0 0 ∧ frame t s.net.leases
            ∧ t.net.nets[n].needHosts = x.needHosts &&& ~~~bit
            ∧ (x.st = .need → x.needHosts &&& ~~~bit = 0 → txNeed n s = false → x.linWait = none →
                t.net.nets[n].st = .idle ∧ t.net.nets[n].idleAt = s.clk.now))))
    ∧ (b.length = 4 → opDormKeep.resOk b = true → AtHead 0x0C02 .chip [] p s →
      Answers (.dormKeep p) 0x0C02 p s fun a t => a = .ok ∧ net t { s.net with nets := t.net.nets } ∧ ∀ n : Fin 16,
        let k := n.val = 14 ∧ (byteAt b 0).getLsbD 0 = true ∨ n.val = 15 ∧ (byteAt b 0).getLsbD 1 = true
        (¬ k → t.net.nets[n] = s.net.nets[n]) ∧ (k → t.net.nets[n].kaAt = some s.clk.now ∧ t.net.nets[n].idleAt = s.clk.now
          ∧ (s.net.nets[n].st = .prepare → t.net.nets[n].st = .idle ∧ t.net.nets[n].sticky.getLsbD 1 = true)
          ∧ (s.net.nets[n].st = .transition → t.net.nets[n].lastCause = 5 ∧ t.net.nets[n].st = (if localNeed n s then .need else .idle))))
    ∧ (b.length = 20 → opDormWuf.resOk b = true → AtHead 0x0C03 .chip [] p s →
      let b1 := (byteAt b 1).toNat
      let reply (w : WakeFrame) : Ans := .ok (be 1 (byteAt b 0).toNat
        ++ be 1 (b1 / 128 * 128 + (if w.ext then 64 else 0) + w.dlc) ++ be 2 0 ++ be 4 w.id ++ be 4 w.mask ++ w.data)
      (∀ h : (byteAt b 0).toNat < 6, b1 % 16 ≤ 8 →
        let new : WakeFrame := ⟨b1.testBit 6, b1 % 16, numAt b 4 4, numAt b 8 4, slice b 12 8⟩
        ((byteAt b 1).getLsbD 7 = true → Answers (.dormWuf p) 0x0C03 p s fun a t => a = reply new
          ∧ net t { s.net with wufs := s.net.wufs.set (byteAt b 0).toNat new })
        ∧ ((byteAt b 1).getLsbD 7 = false → said (.dormWuf p) 0x0C03 (reply s.net.wufs[(byteAt b 0).toNat])))
      ∧ ((6 ≤ (byteAt b 0).toNat ∨ 8 < b1 % 16) → said (.dormWuf p) 0x0C03 (.err 0x0C40)))

/-- Table 13-3: KEEP_ALIVE_SEND (R399), IDLE_TIMEOUT and HOLD_END (R400, R401), PREPARE_END (R403 to R405), SLEEP_TRANSITION_END (R402, R412), the TC10 rows (R405), NET_WAKE_DETECT (R409, R410), LIN_WAKE_WAIT_END (R407) and NEED_LEASE_EXPIRY (R416). The wake signals and the request's timeout are DEDUCED (log entry 28). -/
def Obligations.DormancyRows : Prop :=
  ∀ (n : Fin 16) (s : State),
    let x := s.net.nets[n]
    let now := s.clk.now
    let same (c : Instr) : Prop := Effects c s fun t => t = begin_ s
    let net (t : State) (y : NetSts) : Prop := t.kept = { s.kept with net := { y with swOut := [], canOut := [], linOut := [], wakeOut := [] } }
    let others (t : State) : Prop := ∀ m : Fin 16, m ≠ n → t.net.nets[m] = s.net.nets[m]
    let goes (st : NetState) (t : State) : Prop := t.net.nets[n].st = st ∧ others t ∧ net t { s.net with nets := t.net.nets }
    let idle : Prop := x.st = .idle ∧ x.idleAt + idleTime x ≤ now ∧ x.holdUntil ≤ now
    let prepared : Prop := x.st = .prepare ∧ x.stateAt + prepTime x ≤ now ∧ txNeed n s = false
    let due : Prop := x.st = .need ∧ x.kaSentAt + kaPeriod x ≤ now
    let drives : Prop := s.net.vs5Low = false ∧ busesDriven s = true
    (due → Effects (.keepAliveSend n) s fun t => goes .need t ∧ t.net.nets[n].kaSentAt = now
        ∧ (∀ c : Fin 6, n = canNet c →
          let sends : Prop := kaSend x = true ∧ canNormal c s = true ∧ netUp n s = true ∧ s.net.cans[c].busOff = false ∧ drives
          (sends → t.net.canOut.map (·.1) = [c] ∧ ∀ f ∈ t.net.canOut, f.2.ext = kaExt x ∧ f.2.id.toNat = kaId x
            ∧ f.2.fd = false ∧ f.2.data = [1, BitVec.ofNat 8 (c.val + 16 * s.boot.member.toNat)])
          ∧ (¬ sends → t.net.canOut = []))
        ∧ (∀ q : Fin 2, n = ethNet q → netUp n s = true → s.net.eth[q].link = 2 → ∀ h : Fin 14, s.hosts[h].reg.any (·.port = q) = true →
          s.hosts[h].out.length < Config.outCap → t.hosts[h].out = s.hosts[h].out ++ [⟨2,
            packetBytes (hostPacket 0x4C00 3 (Fin.ofNat 16 h.val) (be 1 q.val ++ be 1 1 ++ be 2 0) s), 0, now, .none⟩]))
    ∧ (¬ due → same (.keepAliveSend n))
    ∧ (idle → Effects (.idleTimeout n) s (goes .prepare) ∧ Effects (.holdEnd n) s (goes .prepare))
    ∧ (¬ idle → same (.idleTimeout n) ∧ same (.holdEnd n))
    ∧ (prepared → n.val < 6 → Effects (.prepareEnd n) s (goes .transition))
    ∧ (∀ c : Fin 8, n = linNet c → prepared →
      (linSlotOver c s = true → Effects (.prepareEnd n) s fun t => t.net.nets[n].st = .transition ∧ others t
        ∧ (netUp n s = true → drives → t.net.linOut = [(c, 0x3C, true, [0, 0xFF, 0xFF, 0xFF, 0xFF, 0xFF, 0xFF, 0xFF])])
        ∧ ((netUp n s = false ∨ ¬ drives) → t.net.linOut = [])
        ∧ net t { s.net with nets := t.net.nets, lins := s.net.lins.set c { s.net.lins[c] with slotAt := none, awaiting := false, slot := 0 } })
      ∧ (linSlotOver c s = false → same (.prepareEnd n)))
    ∧ (∀ q : Fin 2, n = ethNet q → prepared →
      (x.tc10 = none → netUp n s = true → Effects (.prepareEnd n) s fun t => goes .prepare t ∧ t.net.nets[n] = { x with tc10 := some now })
      ∧ ((x.tc10 ≠ none ∨ netUp n s = false) → same (.prepareEnd n)))
    ∧ (¬ prepared → same (.prepareEnd n))
    ∧ (x.st = .transition → x.stateAt + 1000000 ≤ now →
      ((localNeed n s = false ∨ netUp n s = false) → Effects (.sleepTransitionEnd n) s fun t =>
        t.net.nets[n].st = .asleep ∧ others t ∧ t.net.nets[n].sleptAt = now ∧ t.net.nets[n].sticky.getLsbD 2 = true
        ∧ (x.quiet = true → t.net.nets[n].sticky.getLsbD 6 = true) ∧ net t { s.net with nets := t.net.nets, eth := t.net.eth }
        ∧ ∀ q : Fin 2, (n = ethNet q → netUp n s = true → t.net.eth[q].link = 0) ∧ (n ≠ ethNet q → t.net.eth[q] = s.net.eth[q]))
      ∧ (localNeed n s = true → netUp n s = true → Effects (.sleepTransitionEnd n) s fun t =>
        t.net.nets[n].st = .need ∧ others t ∧ t.net.nets[n].lastCause = 3 ∧ t.net.nets[n].holdUntil = now + minAwake x))
    ∧ ((x.st ≠ .transition ∨ now < x.stateAt + 1000000) → same (.sleepTransitionEnd n))
    ∧ (∀ q : Fin 2, n = ethNet q →
      (x.st = .prepare → x.tc10 ≠ none → Effects (.tc10SleepAccept q) s (goes .transition))
      ∧ ((x.st ≠ .prepare ∨ x.tc10 = none) → same (.tc10SleepAccept q) ∧ same (.tc10SleepTimeout q))
      ∧ (∀ t0, x.st = .prepare → x.tc10 = some t0 →
        (t0 + 100000000 ≤ now → Effects (.tc10SleepTimeout q) s fun t => goes .idle t ∧ t.net.nets[n].idleAt = now ∧ t.net.nets[n].tc10 = none)
        ∧ (now < t0 + 100000000 → same (.tc10SleepTimeout q)))
      ∧ (netUp n s = true → s.net.eth[q].link = 2 →
        ((x.st = .idle ∧ x.holdUntil ≤ now ∨ x.st = .prepare) → Effects (.tc10SleepRequest q) s (goes .transition))
        ∧ ((x.st = .need ∨ x.st = .disabled ∨ (x.st = .idle ∧ now < x.holdUntil) ∨ x.st = .transition) → Effects (.tc10SleepRequest q) s fun t =>
            goes x.st t ∧ t.net.nets[n].sticky.getLsbD 4 = true))
      ∧ ((netUp n s = false ∨ s.net.eth[q].link ≠ 2 ∨ x.st = .asleep) → same (.tc10SleepRequest q)))
    ∧ (∀ sel : Bool,
      let ignored : Prop := sel = false ∧ ∃ c : Fin 6, n = canNet c ∧ wakeEnabled 1 c.val s = true ∧ wakeEnabled 2 c.val s = true
      let det := netDetector n (sel && decide (n.val < 6))
      let cause := if sel = true ∧ n.val < 6 then 2 else 1
      let act (P : State → Prop) : Prop := Effects (.netWakeDetect n sel) s fun t => ∃ u, P u ∧ t = detect det.1 det.2 u
      (ignored → same (.netWakeDetect n sel))
      ∧ (netUp n s = true → x.st ≠ .asleep → x.st ≠ .transition → same (.netWakeDetect n sel))
      ∧ (¬ ignored → netUp n s = true → (x.st = .asleep ∨ x.st = .transition) → act fun t =>
          t.net.nets[n].st = (if localNeed n s = true ∨ (6 ≤ n.val ∧ n.val < 14) then .need else .idle)
          ∧ t.net.nets[n].holdUntil = now + minAwake x ∧ t.net.nets[n].sticky.getLsbD 3 = true ∧ t.net.nets[n].lastCause = cause
          ∧ (∀ m : Fin 16, m ≠ n → (n.val < 14 ∨ m.val < 14) → t.net.nets[m] = s.net.nets[m])
          ∧ ∀ q : Fin 2, n = ethNet q →
            let o := ethNet (Fin.ofNat 2 (1 - q.val))
            let wakes : Prop := s.net.nets[o].st = .asleep ∧ netEnable s.net.nets[o] = true ∧ netUp o s = true
            (wakes → t.net.nets[o].lastCause = 6 ∧ t.net.nets[o].st = (if localNeed o s then .need else .idle))
            ∧ (¬ wakes → t.net.nets[o] = s.net.nets[o]))
      ∧ (¬ ignored → netUp n s = false → x.st = .disabled → act fun t => t = begin_ s)
      ∧ (¬ ignored → netUp n s = false → x.st ≠ .disabled → act fun t => others t ∧ net t { s.net with nets := t.net.nets }
          ∧ t.net.nets[n] = { x with latched := some (x.latched.getD cause) }))
    ∧ (∀ c : Fin 8, n = linNet c →
      (∀ t0, x.linWait = some t0 → t0 ≤ now → ((x.st ≠ .asleep ∧ x.st ≠ .transition) ∨ (x.needHosts = 0 ∧ txNeed n s = false)) →
        Effects (.linWakeWaitEnd c) s fun t => t.net.nets[n].linWait = none ∧ others t ∧ net t { s.net with nets := t.net.nets }
          ∧ (x.st = .need → x.needHosts = 0 → txNeed n s = false → t.net.nets[n].st = .idle))
      ∧ ((∀ t0, x.linWait = some t0 → now < t0) → same (.linWakeWaitEnd c)))
    ∧ same (.needLeaseExpiry 13)
    ∧ ∀ h : Fin 13,
      let h14 : Fin 14 := Fin.ofNat 14 h.val
      (∀ t0, s.net.leases[h] = some t0 → t0 ≤ now → Effects (.needLeaseExpiry h14) s fun t =>
          t.net.nets[n].needHosts = x.needHosts &&& ~~~(BitVec.ofNat 13 (2 ^ h.val)) ∧ t.net.leases = s.net.leases.set h none)
      ∧ ((∀ t0, s.net.leases[h] = some t0 → now < t0) → same (.needLeaseExpiry h14))

/-- CHALLENGE (R430, R443), TP_CHALLENGE (R437), ACCESS_CONFIG (R442, R443), TOKEN_ENROL, TOKEN_LOAD (R435), TOKEN_REMOVE, TOKEN_REVOKE (R436), PROX_VERDICT (R439) and ACCESS_POLL (R425); one exchange at a time and the shelf's writes are DEDUCED (log entry 29). -/
def Obligations.AccessPackets : Prop :=
  ∀ (p : Packet) (s : State),
    let b := p.payload
    let one (st : Half) (o : Byte) : Ans := ⟨st, 0, be 2 1 ++ [o]⟩
    let said (c : Instr) (op : Half) (y : Ans) : Prop := Answers c op p s fun a t => a = y ∧ Entered (begin_ s) t
    let contained (c : Instr) (op : Half) : Prop := Answers c op p s fun a t => a = .err stContained ∧ t.kept = s.kept ∧ t.acc = s.acc
    let random : Prop := (needRandom s).1 = true
    let crypto : Prop := cryptoReady s = true
    let serial := numAt b 0 3
    let ser : BitVec 20 := BitVec.ofNat 20 serial
    (b.length = 12 → opChallenge.resOk b = true →
      let l := lfList (BitVec.ofNat 6 (byteAt b 0).toNat)
      (l ≠ [] → l.length ≤ 2 → (∀ n ∈ l, AtHead 0x0D00 (.lf n) [13] p s) →
        let may : Prop := exchFree s = true ∧ s.acc.waits = []
        (numAt b 2 3 < 2 ^ 20 → may → random → Begins (.challenge p) s fun _ t => t.kept = s.kept ∧ (∃ e,
          t.acc.exch = some e ∧ e.q.pkt = { p with opcode := 0x0D00 } ∧ e.drivers = BitVec.ofNat 6 (byteAt b 0).toNat
          ∧ e.serial.toNat = numAt b 2 3 ∧ e.mask.toNat = numAt b 5 3 ∧ e.attempt = 0 ∧ e.phase = 1 ∧ e.rd.length = 8
          ∧ e.frameAt = s.clk.now ∧ e.released = none ∧ e.held = [] ∧ e.dead = false)
          ∧ ∀ n : Fin 6, (n ∈ l → lfState n t = 2) ∧ (n ∉ l → t.acc.lf[n] = s.acc.lf[n]))
        ∧ (numAt b 2 3 < 2 ^ 20 → may → ¬ random → contained (.challenge p) 0x0D00)
        ∧ (numAt b 2 3 < 2 ^ 20 → ¬ may → Begins (.challenge p) s fun _ t => t.kept = s.kept
          ∧ (∀ n ∈ l, t.acc.lf[n].sticky.getLsbD 0 = true) ∧ t.acc.exch = s.acc.exch
          ∧ ∃ w, w.pkt = { p with opcode := 0x0D00 } ∧ t.acc.waits = s.acc.waits ++ [w])
        ∧ (2 ^ 20 ≤ numAt b 2 3 → said (.challenge p) 0x0D00 (.err 0x0D40)))
      ∧ (l = [] ∨ 2 < l.length → AtHead 0x0D00 .chip [13] p s → said (.challenge p) 0x0D00 (.err 0x0D40)))
    ∧ (b.length = 4 → allZero b = true → AtHead 0x0D01 .tp [13] p s →
      (random → Begins (.tpChallenge p) s fun _ t => t.kept = s.kept ∧ ∃ x, t.acc = { s.acc with tp := some x }
        ∧ x.q.pkt = { p with opcode := 0x0D01 } ∧ x.rd.length = 8 ∧ x.startAt = s.clk.now ∧ x.answer = none ∧ x.dead = false)
      ∧ (¬ random → contained (.tpChallenge p) 0x0D01))
    ∧ (∀ n : Fin 6, b.length = 12 → opAccessConfig.resOk b = true → (byteAt b 0).toNat = 2 ^ n.val → AtHead 0x0D02 (.lf n) [13] p s →
      let w := (byteAt b 1).toNat
      let c1 := merge s.acc.lf[n].cfg (wordAt b 4) (maskOf w [(0, 28, 4), (1, 27, 1)])
      let c3 := merge s.acc.cfg (wordAt b 8) (maskOf w [(2, 16, 16), (3, 11, 5), (4, 5, 6), (5, 3, 2), (6, 2, 1)])
      let ok : Prop := 1 ≤ fld c1 28 4 ∧ 1 ≤ fld c3 11 5 ∧ fld c3 11 5 ≤ 20 ∧ 1 ≤ fld c3 5 6
      (ok → Answers (.accessConfig p) 0x0D02 p s fun a t => a = one 0 0
          ∧ Acted s (fun u => { u with acc := { u.acc with cfg := c3, lf := u.acc.lf.set n { u.acc.lf[n] with cfg := c1 } } }) t)
      ∧ (¬ ok → said (.accessConfig p) 0x0D02 (one 0x0D40 0xA0)))
    ∧ (b.length = 72 → opTokenEnrol.resOk b = true → AtHead 0x0D03 .chip [14] p s → crypto → domOn 15 s = true →
      (2 ^ 20 ≤ serial → said (.tokenEnrol p) 0x0D03 (.err 0x0D40))
      ∧ (serial < 2 ^ 20 →
        (∀ c, enrolCheck serial (b.drop 8) s = .inl c → said (.tokenEnrol p) 0x0D03 (.err c))
        ∧ ∀ k, enrolCheck serial (b.drop 8) s = .inr k →
          ((byteAt b 3).getLsbD 0 = false → Answers (.tokenEnrol p) 0x0D03 p s fun a t => a = .ok [0xFF, 0xFF] ∧ cached ser t = some k
            ∧ (∀ x : BitVec 20, x ≠ ser → s.acc.cache.length < 16 → cached x t = cached x s) ∧ t.kept = s.kept
            ∧ t.alm.writes = s.alm.writes)
          ∧ ((byteAt b 3).getLsbD 0 = true →
            let slot := ((onShelf ser s).map (·.1)).or (freeShelf (nvView s))
            (∀ m, slot = some m → Answers (.tokenEnrol p) 0x0D03 p s fun a t => a = .ok (be 2 m) ∧ t.acc = s.acc ∧ t.kept = s.kept
              ∧ t.alm.writes = s.alm.writes ++ [⟨5, shelfAddr m, b.drop 8, 0, none⟩])
            ∧ (slot = none → said (.tokenEnrol p) 0x0D03 (.err 0x0D42)))))
    ∧ (b.length = 68 → zeroAt [3] b = true → AtHead 0x0D04 .chip [14] p s → crypto →
      (2 ^ 20 ≤ serial → said (.tokenLoad p) 0x0D04 (.err 0x0D40))
      ∧ (serial < 2 ^ 20 →
        (∀ c, enrolCheck serial (b.drop 4) s = .inl c → said (.tokenLoad p) 0x0D04 (.err c))
        ∧ ∀ k, enrolCheck serial (b.drop 4) s = .inr k → Answers (.tokenLoad p) 0x0D04 p s fun a t => a = .ok ∧ cached ser t = some k
          ∧ (∀ x : BitVec 20, x ≠ ser → s.acc.cache.length < 16 → cached x t = cached x s) ∧ t.kept = s.kept))
    ∧ (b.length = 4 → zeroAt [3] b = true → AtHead 0x0D05 .chip [14] p s → crypto → domOn 15 s = true →
      (serial < 2 ^ 20 → Answers (.tokenRemove p) 0x0D05 p s fun a t => a = .ok ∧ cached ser t = none ∧ t.ks.revoked = s.ks.revoked
          ∧ (∀ x : BitVec 20, x ≠ ser → cached x t = cached x s) ∧ t.kept = s.kept
          ∧ t.alm.writes = s.alm.writes ++ (match onShelf ser s with | some (m, _, _) => [⟨5, shelfAddr m, List.replicate 64 0, 0, none⟩] | none => []))
      ∧ (2 ^ 20 ≤ serial → said (.tokenRemove p) 0x0D05 (.err 0x0D40)))
    ∧ (b.length = 4 → zeroAt [3] b = true → AtHead 0x0D06 .chip [14] p s → crypto →
      (serial < 2 ^ 20 → Begins (.tokenRevoke p) s fun _ t => ∃ w, w.pkt = { p with opcode := 0x0D06 }
          ∧ t.kept = { s.kept with updates := s.ks.updates ++ [(.revoke ser, w)] })
      ∧ (2 ^ 20 ≤ serial → said (.tokenRevoke p) 0x0D06 (.err 0x0D40)))
    ∧ (b.length = 16 → zeroAt [14, 15] b = true → AtHead 0x0D07 .chip [14] p s →
      let v := (byteAt b 3).toNat
      let m := numAt b 4 8
      let ok : Prop := serial < 2 ^ 20 ∧ (v = 1 ∨ v = 2)
      let fresh : Prop := m ≤ s.zone.time + 1000000 ∧ s.zone.time ≤ m + 10000000000
      (ok → fresh → Answers (.proxVerdict p) 0x0D07 p s fun a t => a = .ok ∧ ⟨ser, v = 1, m⟩ ∈ t.acc.verdicts
          ∧ (∀ y ∈ t.acc.verdicts, y.serial = ser → y.measured = m) ∧ (s.acc.verdicts.length ≤ 8 → t.acc.verdicts.length ≤ 8)
          ∧ t.acc.sticky.getLsbD 1 = true ∧ t.kept = { s.kept with fired := t.rfx.fired })
      ∧ (ok → ¬ fresh → said (.proxVerdict p) 0x0D07 (.err 0x0D46))
      ∧ (¬ ok → said (.proxVerdict p) 0x0D07 (.err 0x0D40)))
    ∧ (b.length = 4 → zeroAt [1, 2, 3] b = true → AtHead 0x0D08 .chip [13] p s →
      (byteAt b 0 = 0 → Answers (.accessPoll p) 0x0D08 p s fun a t => a = .ok ∧ t.kept = s.kept ∧ t.acc = { s.acc with stopped := true })
      ∧ (byteAt b 0 = 1 → Answers (.accessPoll p) 0x0D08 p s fun a t => a = .ok ∧ t.kept = s.kept
          ∧ t.acc = { s.acc with stopped := false, park := 0, polls := if s.acc.stopped then 0 else s.acc.polls })
      ∧ (1 < (byteAt b 0).toNat → said (.accessPoll p) 0x0D08 (.err 0x0D40)))

/-- APPROACH_POLL, BEACON_RECEIVED (R424), POLL_DAY_LIMIT (R425), TOKEN_RESPONSE (R427 to R429), RESPONSE_WINDOW_END (R429, R432), CONFIRMATION_SENT (R430), LF_ANTENNA_FAULT (R421) and TP_VERDICT (R437, R438). Readings between the rules follow log entry 29. -/
def Obligations.AccessRows : Prop :=
  ∀ s : State,
    let now := s.clk.now
    let same (c : Instr) : Prop := Effects c s fun t => t = begin_ s
    let random : Prop := (needRandom s).1 = true
    let mayPoll : Prop := pollEn s = true ∧ s.acc.stopped = false ∧ s.acc.exch = none ∧ polling s = false
      ∧ ∀ t0, s.acc.lastPoll = some t0 → t0 + pollPeriod s ≤ s.clk.ao
    (mayPoll → domOn 13 s = true → Effects .approachPoll s fun t => t.kept = s.kept
        ∧ t.acc = { s.acc with lastPoll := some s.clk.ao, pollAt := some now, pollDue := false, polls := s.acc.polls + 1, lf := t.acc.lf }
        ∧ ∀ i : Fin 6, (pollSel s.acc.lf[i] = true → t.acc.lf[i] = { s.acc.lf[i] with peak := t.acc.lf[i].peak, stopped := false })
          ∧ (pollSel s.acc.lf[i] = false → t.acc.lf[i] = s.acc.lf[i]))
    ∧ (mayPoll → domOn 13 s = false → Effects .approachPoll s fun t => t.kept = s.kept
        ∧ t.acc = { s.acc with lastPoll := some s.clk.ao, pollDue := true }
        ∧ (domState 13 s = .off → upAllowed 13 s = true → s.dom.dom[(13 : Fin 16)].upAfter = false → domState 13 t = .offToOn))
    ∧ (¬ mayPoll → same .approachPoll)
    ∧ (∀ m : BitVec 6,
      (∀ i rest, lfList m = i :: rest → pollWindow m s = true → Effects (.beaconReceived m) s fun t => t.acc.lf[i].sticky.getLsbD 3 = true
          ∧ t.kept = s.kept ∧ ∀ j : Fin 6, j ≠ i → t.acc.lf[j] = s.acc.lf[j])
      ∧ ((lfList m = [] ∨ pollWindow m s = false) → same (.beaconReceived m)))
    ∧ (s.acc.stopped = false → pollDays s * 86400000000000 ≤ s.acc.park → Effects .pollDayLimit s fun t => t.kept = s.kept
        ∧ t.acc = { s.acc with stopped := true, sticky := s.acc.sticky ||| 1 })
    ∧ ((s.acc.stopped = true ∨ s.acc.park < pollDays s * 86400000000000) → same .pollDayLimit)
    ∧ (∀ (slot : Fin 8) (b : List Byte), s.acc.exch = none → same (.tokenResponse slot b))
    ∧ (s.acc.exch = none → same .responseWindowEnd ∧ same .confirmationSent)
    ∧ (∀ e, s.acc.exch = some e →
      let open_ := e.frameAt + 19300000
      let end_ := open_ + 16000000
      let ends (a : Ans) (c : Instr) (P : State → Prop) : Prop := Effects c s fun t =>
        t.acc.exch = none ∧ t.kept = s.kept ∧ P t ∧ ∃ u, t = complete e.q a u
      (∀ (slot : Fin 8) (b : List Byte),
        let row := Instr.tokenResponse slot b
        let inWindow : Prop := e.phase = 1 ∧ open_ ≤ now ∧ now ≤ end_
        let ser : BitVec 20 := BitVec.ofNat 20 (numAt b 0 3)
        let ready : Prop := checkReady ser s = true ∧ e.held = []
        let named : Prop := (ser &&& e.mask) = (e.serial &&& e.mask)
        let message := [0x10] ++ be 2 (vehicleId s) ++ e.rd ++ be 3 ser.toNat ++ be 1 slot.val ++ slice b 3 8
        let noted (bit : Nat) : Prop := Effects row s fun t => t.acc.exch = some { e with responses := e.responses + 1 }
          ∧ t.acc.sticky.getLsbD bit = true ∧ t.kept = s.kept
        (¬ inWindow → same row)
        ∧ (inWindow → checkReady ser s = false → e.held = [] → Effects row s fun t => t.acc = { s.acc with exch := some { e with held := [(slot.val, b)] } }
            ∧ t.kept = s.kept)
        ∧ (inWindow → ready → responseOk slot.val b = false →
          (e.garbled.getLsbD slot.val = false → Effects row s fun t => t.acc.exch = some { e with garbled := e.garbled ||| BitVec.ofNat 8 (2 ^ slot.val) }
            ∧ t.acc.sticky.getLsbD 3 = true ∧ t.kept = s.kept)
          ∧ (e.garbled.getLsbD slot.val = true → Effects row s fun t => t.acc = s.acc ∧ t.kept = s.kept))
        ∧ (inWindow → ready → responseOk slot.val b = true → ¬ named → Effects row s fun t => t.acc = s.acc ∧ t.kept = s.kept)
        ∧ (inWindow → ready → responseOk slot.val b = true → named →
          (isRevoked ser.toNat s = true → noted 6)
          ∧ (isRevoked ser.toNat s = false →
            ((findKey ser s = .unknown ∨ findKey ser s = .orphaned) → noted 5)
            ∧ ∀ key shelf, findKey ser s = .key key shelf →
              ((Crypto.cmac key message).take 4 ≠ slice b 11 4 → noted 4)
              ∧ ((Crypto.cmac key message).take 4 = slice b 11 4 →
                (e.released ≠ none → Effects row s fun t => t.acc.exch = some { e with responses := e.responses + 1 } ∧ t.kept = s.kept)
                ∧ (e.released = none → Effects row s fun t => t.acc.exch = some { e with
                    responses := e.responses + 1, released := some ⟨ser, slot.val, Crypto.aes key (e.rd ++ slice b 3 8), slice b 3 8⟩ }
                  ∧ t.acc.sticky.getLsbD 7 = true ∧ cached ser t = some key ∧ t.kept = s.kept))))
        ∧ (∀ key rt : List Byte, inWindow → ready → cached ser s = some key → isRevoked ser.toNat s = false → named → e.released = none → rt.length = 8 → key.length = 16 →
            let head := be 3 (slot.val * 2 ^ 21 + ser.toNat) ++ rt
            let mac := (Crypto.cmac key ([0x10] ++ be 2 (vehicleId s) ++ e.rd ++ be 3 ser.toNat ++ be 1 slot.val ++ rt)).take 4
            b = head ++ mac ++ be 2 (crc16 (head ++ mac)).toNat → Effects row s fun t => t.acc.exch =
              some { e with responses := e.responses + 1, released := some ⟨ser, slot.val, Crypto.aes key (e.rd ++ rt), rt⟩ }
              ∧ t.acc.sticky.getLsbD 7 = true ∧ t.kept = s.kept))
      ∧ (∀ r, e.released = some r → e.phase = 1 → end_ ≤ now → e.held = [] → Effects .responseWindowEnd s fun t =>
          t.acc.exch = some { e with phase := 3, confAt := now } ∧ t.kept = s.kept)
      ∧ (e.released = none → e.phase = 1 → end_ ≤ now → e.held = [] → (e.garbled = 0 ∨ pollRetries s ≤ e.attempt) →
          ends (.err 0x0D41 (BitVec.ofNat 16 e.responses)) .responseWindowEnd fun t => t.acc.sticky.getLsbD 2 = true)
      ∧ (e.released = none → e.phase = 1 → end_ ≤ now → e.held = [] → e.garbled ≠ 0 → e.attempt < pollRetries s →
        (random → e.seeds.length < 16 → Effects .responseWindowEnd s fun t => t.kept = s.kept ∧ ∃ e', t.acc.exch = some e' ∧ e'.phase = 1
            ∧ e'.attempt = e.attempt + 1 ∧ e'.seed ∉ e.seeds ∧ e'.seed < 16 ∧ e'.frameAt = now + 1000000 ∧ e'.garbled = 0
            ∧ e'.drivers = e.drivers ∧ e'.garbledAll = e.garbledAll ||| e.garbled ∧ e'.q = e.q)
        ∧ (¬ random → ends (.err stContained) .responseWindowEnd fun _ => True))
      ∧ ((e.phase ≠ 1 ∨ now < end_ ∨ e.held ≠ []) → same .responseWindowEnd)
      ∧ (∀ r, e.released = some r → e.phase = 3 → e.confAt + 15000000 ≤ now → ends (.ok (be 3 r.serial.toNat ++ be 1 r.slot ++ be 1 (e.attempt + 1)
          ++ be 1 (min 255 e.responses) ++ be 1 (proxCode r.serial e.frameZone s) ++ [0])) .confirmationSent fun _ => True)
      ∧ ((e.released = none ∨ e.phase ≠ 3 ∨ now < e.confAt + 15000000) → same .confirmationSent))
    ∧ (∀ (n : Fin 6) (short : Bool) (mA : Nat),
      let set := lfCur s.acc.lf[n] * 100
      let bad : Prop := lfSending n s = true ∧ (if short then set + 500 ≤ mA else 2 * mA < set)
      (bad → Effects (.lfAntennaFault n short mA) s fun t => t.acc.lf[n].sticky.getLsbD (if short then 1 else 2) = true ∧ t.kept = s.kept
          ∧ (short = false → t.acc.exch = s.acc.exch ∧ ∀ m : Fin 6, m ≠ n → t.acc.lf[m] = s.acc.lf[m])
          ∧ (short = true → ∀ e, s.acc.exch = some e → (∀ m : Fin 6, e.drivers.getLsbD m.val = true → m = n ∨ s.acc.lf[m].stopped = true) →
              t.acc.exch = none))
      ∧ (¬ bad → same (.lfAntennaFault n short mA)))
    ∧ ∀ ans : Option (List Byte),
      (s.acc.tp = none → same (.tpVerdict ans))
      ∧ ∀ x, s.acc.tp = some x →
        let gives (v : Nat) (ser : BitVec 20) (code : Half) : Prop := Effects (.tpVerdict ans) s fun t => t.acc.tp = none
          ∧ t.acc.verdict.toNat = v ∧ t.acc.tpSerial = ser ∧ t.acc.stickyTp.getLsbD ([2, 0, 1, 1].getD v 0) = true ∧ t.kept = s.kept
          ∧ ∃ u, t = complete x.q ⟨code, 0, be 3 ser.toNat ++ be 1 v⟩ u
        ((x.answer ≠ none ∨ now < x.startAt + 60000000) → same (.tpVerdict ans))
        ∧ (x.answer = none → x.startAt + 60000000 ≤ now →
          (ans = none → gives 0 s.acc.tpSerial 0x0D44)
          ∧ (∀ b, ans = some b → uplinkOk b = false → gives 2 s.acc.tpSerial 0x0D45)
          ∧ (∀ b, ans = some b → uplinkOk b = true →
            let ser : BitVec 20 := BitVec.ofNat 20 (numAt b 0 3)
            let mac (key : List Byte) := (Crypto.cmac key ([0x30] ++ be 2 (vehicleId s) ++ x.rd ++ be 3 ser.toNat)).take 6
            (checkReady ser s = false → Effects (.tpVerdict ans) s fun t => t.acc = { s.acc with tp := some { x with answer := some ans } }
              ∧ t.kept = s.kept)
            ∧ (checkReady ser s = true →
              (isRevoked ser.toNat s = true → gives 3 ser stRevoked)
              ∧ (isRevoked ser.toNat s = false →
                ((findKey ser s = .unknown ∨ findKey ser s = .orphaned) → gives 2 ser 0x0D45)
                ∧ ∀ key shelf, findKey ser s = .key key shelf →
                  (mac key = slice b 3 6 → gives 1 ser 0) ∧ (mac key ≠ slice b 3 6 → gives 2 ser 0x0D45)))))

/-- ROOTSTOCK_ESTABLISH (R452), ROOTSTOCK_INVALIDATE (R453), KEY_LOAD (R458, R459), KEY_CLEAR (R460), KEY_ATTEST (R470), their order of failures (R474), KEY_STORE_COMMIT (R462, R464, R465), SLOT_RELOAD_DONE (R461) and CHANNEL_COUNTER_WRITE (R387). Waiting for D14 and a blob's unused fields are DEDUCED (log entry 31). -/
def Obligations.KeyStore : Prop :=
  (∀ (p : Packet) (s : State), cryptoReady s = true →
    let b := p.payload
    let idx := (byteAt b 0).toNat
    let i : Fin 32 := Fin.ofNat 32 idx
    let r := s.ks.roots[i]
    let random : Prop := (needRandom s).1 = true
    let nonce := be 4 (needRandom s).2.ks.nonce.toNat
    let renewed (t : State) : Prop := t.ks.nonce = BitVec.ofNat 32 (Config.random (needRandom s).2.clk.free).toNat ∧ t.ks.nonceDue = false
    let queues (c : Instr) (op : Half) (ch : KeyChange) (P : State → Prop) : Prop := Begins c s fun _ t => P t ∧ t.ks.roots = s.ks.roots
      ∧ t.ks.slots = s.ks.slots ∧ ∃ w, w.pkt = { p with opcode := op } ∧ t.kept = { s.kept with updates := s.ks.updates ++ [(ch, w)] }
    let refuses (c : Instr) (op code : Half) (P : State → Prop) : Prop := Answers c op p s fun a t => a = .err code ∧ P t ∧ t.kept = s.kept
      ∧ t.ks.slots.map (·.st) = s.ks.slots.map (·.st) ∧ t.ks.roots.map (·.gen) = s.ks.roots.map (·.gen) ∧ t.ks.roots.map (·.st) = s.ks.roots.map (·.st)
    let any (_ : State) : Prop := True
    (b.length = 32 → opRootstockEstablish.resOk b = true → AtHead 0x0E00 .chip [14] p s →
      let gen := wordAt b 4
      let role : BitVec 2 := (byteAt b 1).setWidth 2
      let ok : Prop := idx ≤ 31 ∧ gen ≠ 0 ∧ gen ≠ 0xFFFFFFFF
      let proof : Prop := p.host ≠ 12 ∧ slice b 24 8 = (Crypto.cmac keyKP ([0x50] ++ nonce ++ b.take 24)).take 8
      let held : Prop := role ≠ 0 ∧ roleHolder role s ≠ none
      let no (code : Half) : Prop := refuses (.rootstockEstablish p) 0x0E00 code renewed
      (¬ random → refuses (.rootstockEstablish p) 0x0E00 stContained fun t => t.ks.nonceDue = true ∧ t.ks.nonce = s.ks.nonce)
      ∧ (random → ok → proof → r.st = .unset → ¬ held →
        queues (.rootstockEstablish p) 0x0E00 (.establish i role gen (BitVec.ofNat 64 (numAt b 8 8))) renewed)
      ∧ (random → ¬ ok → no 0x0E40)
      ∧ (random → ok → ¬ proof → no 0x0E43)
      ∧ (random → ok → proof → r.st ≠ .unset → no 0x0E44)
      ∧ (random → ok → proof → r.st = .unset → held → no 0x0E45))
    ∧ (b.length = 16 → zeroAt [2, 3] b = true → AtHead 0x0E01 .chip [14] p s →
      let pk := (byteAt b 1).toNat
      let key := if pk = 1 then keyKP else rootValue i s
      let ok : Prop := idx ≤ 31 ∧ pk ≤ 1
      let proof : Prop := p.host ≠ 12 ∧ (pk = 0 → r.st = .established) ∧ slice b 8 8 = (Crypto.cmac key ([0x51] ++ nonce ++ b.take 8)).take 8
      let no (code : Half) : Prop := refuses (.rootstockInvalidate p) 0x0E01 code renewed
      (¬ random → refuses (.rootstockInvalidate p) 0x0E01 stContained fun t => t.ks.nonceDue = true ∧ t.ks.nonce = s.ks.nonce)
      ∧ (random → ok → proof → r.st = .established → r.gen = wordAt b 4 → queues (.rootstockInvalidate p) 0x0E01 (.invalidate i pk) renewed)
      ∧ (random → ¬ ok → no 0x0E40)
      ∧ (random → ok → ¬ proof → no 0x0E43)
      ∧ (random → ok → proof → (r.st ≠ .established ∨ r.gen ≠ wordAt b 4) → no 0x0E44))
    ∧ (b.length = 68 → zeroAt [1, 2, 3] b = true → AtHead 0x0E02 .chip [14] p s →
      let k : Fin 64 := Fin.ofNat 64 idx
      (63 < idx → refuses (.keyLoad p) 0x0E02 0x0E40 any)
      ∧ (∀ c, idx ≤ 63 → slotBlob k (b.drop 4) s = .inl c → refuses (.keyLoad p) 0x0E02 c any)
      ∧ ∀ x, idx ≤ 63 → slotBlob k (b.drop 4) s = .inr x → queues (.keyLoad p) 0x0E02 (.load k (byteAt b 5).toNat (halfAt x 22) (wordAt x 28)
          (wordAt b 8) (x.take 16) (if (halfAt x 22).getLsbD 4 then b.drop 4 else [])) any)
    ∧ (b.length = 12 → zeroAt [1, 2, 3] b = true → AtHead 0x0E03 .chip [14] p s →
      let k : Fin 64 := Fin.ofNat 64 idx
      let x := s.ks.slots[k]
      let j : Fin 32 := Fin.ofNat 32 x.parent
      let proof : Prop := s.ks.roots[j].st = .established
        ∧ slice b 4 8 = (Crypto.cmac (rootValue j s) ([0x52] ++ be 1 k.val ++ be 4 x.version.toNat)).take 8
      (63 < idx → refuses (.keyClear p) 0x0E03 0x0E40 any)
      ∧ (idx ≤ 63 → x.st = .empty → Answers (.keyClear p) 0x0E03 p s fun a t => a = .ok ∧ Entered (begin_ s) t)
      ∧ (idx ≤ 63 → x.st ≠ .empty → ¬ proof → refuses (.keyClear p) 0x0E03 0x0E43 any)
      ∧ (idx ≤ 63 → x.st ≠ .empty → proof → queues (.keyClear p) 0x0E03 (.clear k) any))
    ∧ (b.length = 20 → zeroAt [1, 2, 3] b = true → AtHead 0x0E04 .chip [14] p s →
      let x := s.ks.slots[(Fin.ofNat 64 idx : Fin 64)]
      (63 < idx → refuses (.keyAttest p) 0x0E04 0x0E40 any)
      ∧ (idx ≤ 63 → x.st = .orphaned → refuses (.keyAttest p) 0x0E04 stOrphaned any)
      ∧ (idx ≤ 63 → (x.st = .empty ∨ x.st = .loaded ∧ x.attr.getLsbD 2 = false) → refuses (.keyAttest p) 0x0E04 0x0E46 any)
      ∧ (idx ≤ 63 → x.st = .loaded → x.attr.getLsbD 2 = true → Answers (.keyAttest p) 0x0E04 p s fun a t => t.ks = s.ks ∧ t.kept = s.kept
        ∧ a = .ok (attestReport (slice b 4 16) s ++ Crypto.cmac x.key ([0x40] ++ attestReport (slice b 4 16) s)))))
  ∧ (∀ s : State,
    let same (c : Instr) : Prop := Effects c s fun t => t = begin_ s
    let bare (k : KeySlot) : KeySlot := { k with sticky := 0 }
    let plans (s : State) : State := planFollow true (planFollow false s)
    let waits : Prop := s.ks.written = false ∨ s.alm.flush.any (·.powerFail) = true
    let target := storeAddr (!s.ks.copyB)
    (∀ ok, s.ks.updates = [] → Effects (.keyStoreCommit ok) s fun t => t = plans (begin_ s))
    ∧ (∀ c q rest, s.ks.updates = (c, q) :: rest →
      (∀ ok, domOn 15 s = false → Effects (.keyStoreCommit ok) s fun t => t.ks = s.ks ∧ t.kept = s.kept)
      ∧ (domOn 15 s = true → waits → Effects (.keyStoreCommit true) s fun t => t = plans (begin_ s))
      ∧ (domOn 15 s = true → Effects (.keyStoreCommit false) s fun t => t.kept = { s.kept with updates := rest } ∧ t.ks.sticky.getLsbD 0 = true
          ∧ t.ks.roots = s.ks.roots ∧ t.ks.slots.map bare = s.ks.slots.map bare ∧ t.ks.revoked = s.ks.revoked ∧ t.ks.copyB = s.ks.copyB
          ∧ t.ks.writing = false ∧ t.alm.writes = s.alm.writes.filter (fun w => w.addr ≠ target && w.addr ≠ target + 8)
          ∧ ∃ u, t = plans (complete q (.err stInternal) u))
      ∧ (domOn 15 s = true → ¬ waits →
        let gen := (if s.ks.copyB then s.ks.genB else s.ks.genA) + 1
        Effects (.keyStoreCommit true) s fun t => t.ks.copyB = (!s.ks.copyB) ∧ t.ks.lost = false ∧ t.ks.writing = false
          ∧ t.kept = { s.kept with updates := rest, nv := Mem.write s.nv (target + 8) (be 4 gen.toNat ++ be 4 (~~~gen).toNat) }
          ∧ (if s.ks.copyB then t.ks.genA else t.ks.genB) = gen ∧ storeGen (!s.ks.copyB) t.nv = gen
          ∧ ∃ u d, t = plans (complete q (.ok d) u) ∧
            match c with
            | .load k parent attr version g key blob => d = [] ∧ t.ks.roots = s.ks.roots ∧ t.ks.revoked = s.ks.revoked
                ∧ (∀ m : Fin 64, m ≠ k → bare t.ks.slots[m] = bare s.ks.slots[m]) ∧ t.ks.slots[k].sticky.getLsbD 2 = true
                ∧ bare t.ks.slots[k] = { bare s.ks.slots[k] with
                    st := .loaded, parent := parent, attr := attr, version := version, parentGen := g, key := key, blob := blob, seqS := 0, accepted := 0, dirty := true }
            | .clear k => d = [] ∧ t.ks.roots = s.ks.roots ∧ t.ks.revoked = s.ks.revoked
                ∧ (∀ m : Fin 64, m ≠ k → bare t.ks.slots[m] = bare s.ks.slots[m]) ∧ t.ks.slots[k].sticky.getLsbD 3 = true
                ∧ bare t.ks.slots[k] = { bare s.ks.slots[k] with st := .empty, parent := 0, attr := 0, parentGen := 0, key := [], blob := [] }
            | .establish i role g div => d = Crypto.keyWrap (keyKEK keyKP) (keyRS i.val div g) ∧ t.ks.slots.map bare = s.ks.slots.map bare
                ∧ t.ks.revoked = s.ks.revoked ∧ (∀ m : Fin 32, m ≠ i → t.ks.roots[m] = s.ks.roots[m])
                ∧ t.ks.roots[i] = { s.ks.roots[i] with st := .established, role := role, gen := g, div := div, sticky := s.ks.roots[i].sticky ||| 1 }
            | .invalidate i _ =>
              let r := s.ks.roots[i]
              t.ks.revoked = s.ks.revoked ∧ (∀ m : Fin 32, m ≠ i → t.ks.roots[m] = s.ks.roots[m]) ∧ t.ks.roots[i].role = r.role
                ∧ (r.st = .established → r.gen ≠ 0xFFFFFFFE → t.ks.roots[i].gen = r.gen + 1 ∧ t.ks.roots[i].st = .established
                  ∧ d = Crypto.keyWrap (keyKEK keyKP) (keyRS i.val r.div (r.gen + 1)))
                ∧ (r.gen = 0xFFFFFFFE → t.ks.roots[i].st = .retired)
                ∧ (r.role = 3 → t.acc.cache = [])
                ∧ (r.st = .established → ∀ k : Fin 64,
                  let x := s.ks.slots[k]
                  let bound : Prop := x.st = .loaded ∧ x.parent = i.val ∧ x.parentGen = r.gen
                  (bound → t.ks.slots[k].st = .orphaned ∧ t.ks.slots[k].key = [] ∧ t.ks.slots[k].version = x.version)
                  ∧ (¬ bound → bare t.ks.slots[k] = bare x))
            | .revoke ser => d = [] ∧ t.ks.roots = s.ks.roots ∧ t.ks.slots.map bare = s.ks.slots.map bare ∧ ser.toNat ∈ t.ks.revoked
                ∧ (∀ n : Nat, n ≠ ser.toNat → (n ∈ t.ks.revoked ↔ n ∈ s.ks.revoked)) ∧ cached ser t = none
                ∧ ∀ v ∈ t.acc.verdicts, v.serial ≠ ser))
    ∧ (let may : Prop := s.ks.reload = true ∧ domOn 14 s = true ∧ domOn 15 s = true
       (may → Effects .slotReloadDone s fun t => t.kept = s.kept ∧ t.ks.reload = false ∧ t.ks.roots = s.ks.roots ∧ ∀ k : Fin 64,
          let x := s.ks.slots[k]
          (x.st = .loaded → persists x = true → t.ks.slots[k] = { x with key := ((openBlob x.blob s).getD []).take 16 })
          ∧ (x.st = .loaded → persists x = false → t.ks.slots[k] = { x with st := .empty, parent := 0, attr := 0, parentGen := 0, key := [], blob := [] })
          ∧ (x.st ≠ .loaded → t.ks.slots[k] = x))
       ∧ (¬ may → same .slotReloadDone))
    ∧ ∀ i : Fin 32,
      let a := s.net.chans[i]
      let due : Prop := a.dirty = true ∧ ∀ t0, a.wroteAt = some t0 → t0 + 1000000 ≤ s.clk.now
      let e := slotEntry (chanArea i) 2 i.val 4 (counterBody 2 i.val a.counter) (nvView s)
      (due → Effects (.channelCounterWrite i) s fun t =>
          t.kept = { s.kept with net := { s.kept.net with chans := s.net.chans.set i { a with dirty := false, wroteAt := some s.clk.now } } }
          ∧ t.alm.writes = s.alm.writes ++ [⟨4, e.1, e.2, 0, none⟩]
          ∧ e.2.length = 32 ∧ wordAt e.2 8 = a.counter ∧ byteAt e.2 5 = BitVec.ofNat 8 i.val)
      ∧ (¬ due → same (.channelCounterWrite i)))

/-- ALMANAC_WINDOW (R501, R502), ALMANAC_FLUSH, ALMANAC_CONFIG, ALMANAC_RATE, WATCH_CONFIG (R498, R506, R507), VAULT_CLEAR (R493, R494), RATE_REFILL (R483), FLUSH_TIMER, FLUSH_START and FLUSH_END (R485, R486, R489), POWER_FAIL_WARNING and POWER_FAIL_RECOVERY (R488) and NV_WRITE_DONE (R504). The class of a watch point's erasure and the old vault's last records follow log entry 32. -/
def Obligations.Almanac : Prop :=
  (∀ (p : Packet) (s : State),
    let b := p.payload
    (b.length = 12 → zeroAt [3, 8, 9, 10, 11] b = true → AtHead 0x0F00 .chip [15] p s →
      let view := (byteAt b 0).toNat
      let idx := (byteAt b 1).toNat
      let count := (byteAt b 2).toNat
      let cur := numAt b 4 4
      let all := viewEntries view idx s
      let at_ (e : List Byte) : Bool := cur == 0 || !seqBefore (seqOf e) cur
      let flags := (if cur ≠ 0 ∧ (all.head?.any fun e => seqBefore cur (seqOf e)) = true then 1 else 0)
        + (if (all.filter at_).length ≤ count then 2 else 0)
      (viewOk view idx count = true → Answers (.almanacWindow p) 0x0F00 p s fun a t => Entered (begin_ s) t ∧ a.code = 0 ∧ ∃ (got : List (List Byte)),
        got.Sublist all ∧ got.length ≤ count ∧ (∀ e ∈ got, at_ e = true) ∧ (got.length < count → ∀ e ∈ all, at_ e = true → e ∈ got)
        ∧ a.data = be 4 (got.head?.elim 0 seqOf) ++ be 4 (got.getLast?.elim 0 seqOf) ++ be 2 got.length ++ be 1 flags ++ [0] ++ be 4 (lossCount view idx s)
          ++ got.flatten)
      ∧ (viewOk view idx count = false → Answers (.almanacWindow p) 0x0F00 p s fun a t => a = .err 0x0F40 ∧ Entered (begin_ s) t))
    ∧ (b = [] → AtHead 0x0F01 .chip [15] p s → Begins (.almanacFlush p) s fun _ t => t.kept = s.kept
        ∧ ∃ w, w.pkt = { p with opcode := 0x0F01 } ∧ t.alm = { s.alm with again := true, flushWait := s.alm.flushWait ++ [w] })
    ∧ (b.length = 4 → onlyBits 0 0xE0 b = true → zeroAt [1, 2, 3] b = true → AtHead 0x0F02 .chip [15] p s →
      Answers (.almanacConfig p) 0x0F02 p s fun a t => a = .ok ∧ t.kept = { s.kept with almCfg := wordAt b 0 })
    ∧ (b.length = 8 → zeroAt [6, 7] b = true → AtHead 0x0F03 .chip [15] p s →
      let code := halfAt b 0
      let fam := code.toNat / 256
      let op := (byteAt b 2).toNat
      let burst := (byteAt b 3).toNat
      let ok : Prop := fam ≠ 0x0F ∧ fam ≤ 0x12 ∧ op ≤ 1 ∧ (op = 0 → 1 ≤ burst)
      let r := rateOf code s
      let reply (x : Rate) : Ans := .ok (be 2 code.toNat ++ [0] ++ be 1 x.burst ++ be 2 x.refill ++ be 1 x.tokens ++ be 1 (min 255 x.pending))
      let new : Rate := ⟨code, burst, numAt b 4 2, burst, r.pending, s.clk.now⟩
      (ok → op = 0 → Answers (.almanacRate p) 0x0F03 p s fun a t => a = reply new ∧ t.kept = s.kept ∧ rateOf code t = new
        ∧ (∀ c, c ≠ code → rateOf c t = rateOf c s) ∧ t.alm.staging = s.alm.staging ∧ t.alm.writes = s.alm.writes)
      ∧ (ok → op = 1 → Answers (.almanacRate p) 0x0F03 p s fun a t => a = reply r ∧ Entered (begin_ s) t)
      ∧ (¬ ok → Answers (.almanacRate p) 0x0F03 p s fun a t => a = .err 0x0F40 ∧ Entered (begin_ s) t))
    ∧ (b.length = 240 → opWatchConfig.resOk b = true → AtHead 0x0F04 .chip [15] p s →
      let list := (List.range 56).map fun i => (halfAt b (16 + 4 * i), halfAt b (18 + 4 * i))
      let clear := (byteAt b 1).getLsbD 5
      (∀ w : Fin 16, (byteAt b 0).toNat = w.val → (∀ e ∈ list, listOk e = true) → Answers (.watchConfig p) 0x0F04 p s fun a t => a = .ok
        ∧ t.kept = s.kept ∧ (∀ v : Fin 16, v ≠ w → t.alm.watches[v] = s.alm.watches[v])
        ∧ (let x := s.alm.watches[w]
           t.alm.watches[w] = ⟨(byteAt b 1).getLsbD 7, (byteAt b 1).getLsbD 6, (byteAt b 2).setWidth 2, halfAt b 4, halfAt b 6, halfAt b 8, halfAt b 10,
             numAt b 12 2, list, if clear then none else x.lastAt, 0, if clear then 0 else x.over_, x.sticky⟩)
        ∧ (clear = false → t.alm.writes = s.alm.writes ∧ t.alm.staging = s.alm.staging ∧ t.alm.flush = s.alm.flush)
        ∧ (clear = true → t.alm.writes = s.alm.writes ++ [⟨3, watchBase w.val, [], 0x40000, none⟩]
          ∧ t.alm.staging = s.alm.staging.filter (fun e => match e with | .snapshot v _ _ => v != w | .record _ => true)))
      ∧ ((16 ≤ (byteAt b 0).toNat ∨ ∃ e ∈ list, listOk e = false) → Answers (.watchConfig p) 0x0F04 p s fun a t =>
          a = .err 0x0F40 ∧ Entered (begin_ s) t))
    ∧ (b.length = 16 → zeroAt [4, 5, 6, 7] b = true → AtHead 0x0F05 .chip [15] p s → cryptoReady s = true →
      let random : Prop := (needRandom s).1 = true
      let renewed (t : State) : Prop := t.alm.vnonce = BitVec.ofNat 32 (Config.random (needRandom s).2.clk.free).toNat ∧ t.alm.vnonceDue = false
      let no (code : Half) : Prop := Answers (.vaultClear p) 0x0F05 p s fun a t => a = .err code ∧ t.kept = s.kept ∧ t.alm.fill = s.alm.fill ∧ renewed t
      (¬ random → Answers (.vaultClear p) 0x0F05 p s fun a t => a = .err stContained ∧ t.kept = s.kept ∧ t.alm.fill = s.alm.fill
        ∧ t.alm.vnonce = s.alm.vnonce ∧ t.alm.vnonceDue = true)
      ∧ (random → roleHolder 2 s = none → no 0x0F43)
      ∧ (random → ∀ i, roleHolder 2 s = some i →
        let proof : Prop := slice b 8 8 = Crypto.cmac8 (rootValue i s) ([0x56] ++ be 4 (needRandom s).2.alm.vnonce.toNat ++ b.take 8)
        ((rootstock i s).st ≠ .established → no 0x0F43)
        ∧ ((rootstock i s).st = .established → ¬ proof → no 0x0F42)
        ∧ ((rootstock i s).st = .established → proof → numAt b 0 4 ≠ s.alm.fill → no 0x0F41)
        ∧ ((rootstock i s).st = .established → proof → numAt b 0 4 = s.alm.fill → Begins (.vaultClear p) s fun _ t => t.kept = s.kept
          ∧ t.alm.fill = s.alm.fill ∧ renewed t ∧ t.alm.again = true
          ∧ ∃ w, w.pkt = { p with opcode := 0x0F05 } ∧ t.alm.flushWait = s.alm.flushWait ++ [w]))))
  ∧ (∀ s : State,
    let now := s.clk.now
    let same (c : Instr) : Prop := Effects c s fun t => t = begin_ s
    (∀ code : Half,
      let r := rateOf code s
      (r.refill ≠ 0 → r.lastAt + r.refill * 1000000 ≤ now → Effects (.rateRefill code) s fun t => t.kept = s.kept
          ∧ rateOf code t = { r with tokens := min r.burst (r.tokens + 1), lastAt := now } ∧ (∀ c, c ≠ code → rateOf c t = rateOf c s)
          ∧ t.alm = { s.alm with rates := t.alm.rates })
      ∧ ((r.refill = 0 ∨ now < r.lastAt + r.refill * 1000000) → same (.rateRefill code)))
    ∧ (let due : Prop := s.alm.flush = none ∧ s.alm.staging ≠ [] ∧ s.alm.lastEnd + 1000000000 ≤ now
       (due → Effects .flushTimer s fun t => t = { begin_ s with alm := { s.alm with again := true } }) ∧ (¬ due → same .flushTimer))
    ∧ (s.alm.again = true → s.alm.flush = none → domOn 15 s = true → Effects .flushStart s fun t => t.kept = s.kept ∧ t.alm.again = false
        ∧ t.alm.flush = some ⟨s.alm.onHold, s.alm.staging.length, now, s.alm.flushWait⟩ ∧ t.alm.flushWait = []
        ∧ t.alm.lastIntent ≠ s.alm.lastIntent ∧ t.alm.intents[s.alm.lastIntent] = s.alm.intents[s.alm.lastIntent]
        ∧ t.alm.intents[t.alm.lastIntent] = ⟨false, (flushPlan s.alm.staging s).writes.map (·.1), s.alm.seq⟩
        ∧ t.alm.sticky = s.alm.sticky ||| (if s.alm.onHold then 2 else 0) ∧ t.alm.staging = s.alm.staging)
    ∧ (s.alm.again = true → domOn 15 s = false → Effects .flushStart s fun t => t = wakeInternal 15 (begin_ s))
    ∧ ((s.alm.again = false ∨ (domOn 15 s = true ∧ s.alm.flush ≠ none)) → same .flushStart)
    ∧ (s.alm.flush = none → (s.alm.brown = none → same .flushEnd)
        ∧ (s.alm.brown ≠ none → Effects .flushEnd s fun t => t = brownOut (begin_ s)))
    ∧ (∀ f, s.alm.flush = some f →
      let clears := f.waits.any fun q => q.pkt.opcode == 0x0F05
      let l := if f.powerFail = true ∨ clears = true then s.alm.staging else s.alm.staging.take f.count
      let recs := l.countP fun x => match x with | .record _ => true | _ => false
      let plan := flushPlan l s
      let written (t : State) : Prop := t.alm.flush = none ∧ t.alm.lastEnd = now ∧ t.alm.intents[t.alm.lastIntent].done = true
        ∧ (∀ v ∈ t.alm.writes, v ∈ s.alm.writes ∧ v.cls ≠ 3) ∧ (∀ v ∈ s.alm.writes, v.cls ≠ 3 → f.powerFail = false → v ∈ t.alm.writes)
        ∧ ((∀ v ∈ s.alm.writes, v.cls = 4 → f.powerFail = false) → ∀ x : Nat, 0x300000 ≤ x → Mem.read t.nv x = Mem.read plan.m x)
        ∧ (f.powerFail = true → (∀ k : Fin 64, t.ks.slots[k].dirty = false) ∧ (∀ k : Fin 32, t.net.chans[k].dirty = false) ∧ ∀ v ∈ t.alm.writes, v.cls ≠ 4)
        ∧ (now ≤ f.startAt + 1500000 → t.alm.sticky.getLsbD 0 = s.alm.sticky.getLsbD 0)
        ∧ (f.startAt + 1500000 < now → t.alm.sticky.getLsbD 0 = true)
        ∧ ∀ r, l = [.record r] → (∀ v ∈ s.alm.writes, v.cls = 4 → f.powerFail = false) → ringSlots (ringOf r.cls.toNat r.idx.toNat) (nvUpTo 3 s) = [] →
            ringOf r.cls.toNat r.idx.toNat < 160 → Mem.readN t.nv (ringBase (ringOf r.cls.toNat r.idx.toNat)) 32 = r.bytes
      s.alm.dropInfo + s.alm.dropWarn + s.alm.dropErr = 0 →
      (let ended (t : State) : Prop := written t ∧ t.alm.staging = s.alm.staging.drop l.length ∧ t.alm.fill = plan.fill
         ∧ t.alm.check = ⟨s.alm.seq, s.clk.life, plan.fill, s.alm.epoch⟩
       (f.waits = [] → s.alm.brown = none → Effects .flushEnd s ended)
       ∧ (f.waits = [] → s.alm.brown ≠ none → Effects .flushEnd s fun t => ∃ u, ended u ∧ t = brownOut u)
       ∧ (∀ q, f.waits = [q] → q.pkt.opcode = 0x0F01 → s.alm.brown = none →
         ∃ t, exec .flushEnd s = .next (conclude (complete q (.ok (be 2 recs ++ be 2 (l.length - recs))) t)) ∧ ended t))
      ∧ (∀ q, f.waits = [q] → q.pkt.opcode = 0x0F05 → s.alm.brown = none →
        ∃ t, exec .flushEnd s = .next (conclude (complete q (.ok (be 4 (s.alm.epoch + 1).toNat)) t)) ∧ written t
          ∧ t.alm.fill = 0 ∧ t.alm.epoch = s.alm.epoch + 1 ∧ t.alm.cleared = true ∧ t.alm.check = ⟨s.alm.seq, s.clk.life, 0, s.alm.epoch + 1⟩
          ∧ ∃ r rest, t.alm.staging = .record r :: rest ∧ r.code = 0x0F03 ∧ r.p1 = BitVec.ofNat 32 plan.fill ∧ r.p2 = s.alm.epoch + 1))
    ∧ (∀ mV : Nat,
      (mV < 5000 → s.alm.onHold = false → 3 ≤ s.boot.phase → Effects (.powerFailWarning mV) s fun t =>
          t = wakeInternal 15 { begin_ s with alm := { s.alm with onHold := true, again := true } })
      ∧ ((5000 ≤ mV ∨ s.alm.onHold = true ∨ s.boot.phase < 3) → same (.powerFailWarning mV))
      ∧ (5500 < mV → s.alm.onHold = true → s.alm.brown = none → Effects (.powerFailRecovery mV) s fun t => t = { begin_ s with
          alm := { s.alm with onHold := false, flush := s.alm.flush.map fun f => { f with powerFail := false } } })
      ∧ ((mV ≤ 5500 ∨ s.alm.onHold = false ∨ s.alm.brown ≠ none) → same (.powerFailRecovery mV)))
    ∧ ((domState 15 s).answer = .on → s.alm.flush = none → s.alm.writes ≠ [] → ∃ l w r t, s.alm.writes = l ++ w :: r
        ∧ (∀ v ∈ l, w.cls < v.cls) ∧ (∀ v ∈ r, w.cls ≤ v.cls) ∧ t.alm = { s.alm with writes := l ++ r }
        ∧ t.kept = { s.kept with nv := t.nv } ∧ t.plan = s.plan ∧ t.ks.written = (s.ks.written || (w.cls == 5 && w.addr == storeAddr (!s.ks.copyB)))
        ∧ (∀ x : Nat, x < Mem.size → Mem.read t.nv x = if w.addr ≤ x ∧ x < w.addr + w.data.length then byteAt w.data (x - w.addr)
            else if w.addr ≤ x ∧ x < w.addr + w.erase then 0 else Mem.read s.nv x)
        ∧ (w.q = none → exec .nvWriteDone s = .next (conclude t))
        ∧ ∀ q, w.q = some q →
          (q.pkt.opcode ≠ 0x1201 → exec .nvWriteDone s = .next (conclude (complete q .ok t)))
          ∧ (q.pkt.opcode = 0x1201 → ∃ u, u.kept = t.kept ∧ u.plan = (planState s.plan.targetB 0 t).plan
            ∧ exec .nvWriteDone s = .next (conclude (complete q (.ok (be 4 (readPlan s.plan.targetB t.nv).version.toNat)) u))))
    ∧ (((domState 15 s).answer ≠ .on ∨ s.alm.flush ≠ none ∨ s.alm.writes = []) → same .nvWriteDone))

/-- TRELLIS_CONFIG (R546), TRELLIS_HEARTBEAT, TRELLIS_RESEND, TRELLIS_SIDE_DOWN (R529, R530), TRELLIS_FRAME_RECEIVED (R528 to R533, R535, R543), MEMBER_TIMER_EXPIRY and EXTEND_FRAME_SEND (R535), MEMBER_WAKE_TIMEOUT and TRELLIS_WAKE (R541, R542), TIME_FRAME_SEND and TIME_FRAME_TIMEOUT (R539). The readings between the rules are DEDUCED or free (log entries 3, 38 and 39). -/
def Obligations.Trellis : Prop :=
  (∀ (p : Packet) (s : State),
    let b := p.payload
    let w := wordAt b 0
    let inRange : Prop := fld w 30 2 ≤ 1 ∧ w.getLsbD 26 = true ∧ fld w 18 8 ≠ 0
    let refuses (code : Half) : Prop := Answers (.trellisConfig p) 0x1100 p s fun a t => a = .err code ∧ Entered (begin_ s) t
    b.length = 4 → onlyBits 1 0xFC b = true → zeroAt [2, 3] b = true → AtHead 0x1100 .chip [] p s →
      (isLead s = false → refuses 0x1141)
      ∧ (isLead s = true → ¬ inRange → refuses 0x1140)
      ∧ (isLead s = true → inRange → Answers (.trellisConfig p) 0x1100 p s fun a t => a = .ok ∧ t.kept = { s.kept with trlCfg := w }
          ∧ t.trl = { s.trl with cfg := w, out := [], sticky := if fld w 30 2 = 1 ∧ ringClosed s = false then s.trl.sticky ||| 0x40 else s.trl.sticky }))
  ∧ (∀ s : State,
    let now := s.clk.now
    let on := trlOn s
    let me := (self s).val
    let hold := decide (s.boot.condition = 3)
    let same (c : Instr) : Prop := Effects c s fun t => t = begin_ s
    let present (k : Fin 2) (t : State) : Prop := ∀ m : Fin 4, m ≠ self s → t.trl.present.getLsbD m.val = sideReaches k m t
    let downed (k : Fin 2) (t : State) : Prop := t.kept = s.kept ∧ t.trl.sides[k].st = 0 ∧ t.trl.sides[k].unack = []
      ∧ t.trl.sticky.getLsbD 8 = true ∧ present (otherSide k) t ∧ ∀ m : Fin 4, sideReaches (otherSide k) m t = sideReaches (otherSide k) m s
    let hosted (r : TrlReq) (bytes : List Byte) (t : State) : Prop := ∀ h : Fin 14, h.val = r.host.val → s.hosts[h].out.length < Config.outCap →
      (h.val < 2 ∨ 9 < h.val ∨ s.hosts[h].reg.isSome = true) → t.hosts[h].out = s.hosts[h].out ++ [⟨0, bytes, r.pcp, now, .none⟩]
    let timedOut (r : TrlReq) (detail : Half) (t : State) : Prop := r.pkt.replyWanted = true → r.bcast = false →
      hosted r (packetBytes (replyPacket r.pkt stMemberTimeout detail [] (BitVec.ofNat 2 r.member.val) none)) t
    (∀ k : Fin 2,
      let x := s.trl.sides[k]
      let y := s.trl.sides[otherSide k]
      let set (z : TrlSide) (out : List (Fin 2 × List Byte)) : State := { begin_ s with trl := { s.trl with sides := s.trl.sides.set k z, out := out } }
      (on = true → x.sentAt + 100000 ≤ now → Effects (.trellisHeartbeat k) s fun t =>
          t = set { x with sentAt := now } [(k, trlBytes 3 15 me x.txSeq x.rxSeq hold 0 [])])
      ∧ ((on = false ∨ now < x.sentAt + 100000) → same (.trellisHeartbeat k))
      ∧ (∀ w rest, x.unack = w :: rest →
        (on = true → w.at_ + 20000 ≤ now → w.resends < 3 → Effects (.trellisResend k) s fun t =>
          t = set { x with unack := { w with at_ := now, resends := w.resends + 1 } :: rest, sentAt := now } [(k, w.bytes)])
        ∧ (on = true → w.at_ + 20000 ≤ now → 3 ≤ w.resends → Effects (.trellisResend k) s (downed k))
        ∧ ((on = false ∨ now < w.at_ + 20000) → same (.trellisResend k)))
      ∧ (x.unack = [] → same (.trellisResend k))
      ∧ (on = true → x.st = 2 → x.lastAt + 1000000 ≤ now → Effects (.trellisSideDown k) s (downed k))
      ∧ (on = true → x.st ≠ 0 → x.st ≠ 2 → x.lastAt + 1000000 ≤ now → Effects (.trellisSideDown k) s fun t => t.trl.sides[k].st = 0 ∧ t.kept = s.kept)
      ∧ ((on = false ∨ x.st = 0 ∨ now < x.lastAt + 1000000) → same (.trellisSideDown k))
      ∧ (s.boot.phase < 2 → same (.trellisWake k))
      ∧ (2 ≤ s.boot.phase → s.dom.wake[wakeSlot 7 0].enable = false → Effects (.trellisWake k) s fun t =>
          t = { begin_ s with trl := { s.trl with out := [(otherSide k, [])] } })
      ∧ (s.boot.phase = 7 → s.boot.condition = 0 → s.boot.resetLow = none → s.dom.lastWake.source = 0 → s.dom.dom[(0 : Fin 16)].st = .off → s.dom.dom[(0 : Fin 16)].upAfter = false →
          s.dom.wake[wakeSlot 7 0].enable = true → Effects (.trellisWake k) s fun t => t.trl.out = [(otherSide k, [])]
            ∧ t.dom.dom[(0 : Fin 16)].st = .offToOn ∧ t.dom.lastWake.source = 7 ∧ t.kept = s.kept)
      ∧ ∀ bytes : List Byte,
        let c := Instr.trellisFrameReceived k bytes
        (on = false → same c)
        ∧ (on = true → s.flt.inject = none → readFrame bytes = none → Effects c s fun t => t.kept = s.kept
          ∧ t.trl = { s.trl with sticky := s.trl.sticky ||| 0x20, out := [] }
          ∧ t.flt.blocks[(24 : Fin 25)].corrected.toNat = min 255 (s.flt.blocks[(24 : Fin 25)].corrected.toNat + 1))
        ∧ ∀ f, readFrame bytes = some f → on = true → s.flt.inject = none →
          let left := if x.unack.any (·.seq == f.ack) then (x.unack.dropWhile (·.seq != f.ack)).drop 1 else x.unack
          let heard : TrlSide := { x with lastAt := now, good := min 16 (x.good + 1), unack := left }
          let numbered : Prop := f.type ≠ 2 ∧ f.type ≠ 3
          let ack (seq : Byte) : Fin 2 × List Byte := (k, trlBytes 2 f.src me x.txSeq seq hold 0 [])
          let acts : Prop := x.st = 2 ∧ numbered ∧ f.seq = x.rxSeq + 1
          (f.type = 2 → x.st = 2 → Effects c s fun t => t = set heard [])
          ∧ (f.type = 2 → (x.st = 0 ∨ x.st = 1) → Effects c s fun t => t.kept = s.kept ∧ t.trl.sides[k].st = if x.good < 15 then 1 else 2)
          ∧ (f.type = 3 → x.st = 2 → f.src ≤ 3 → Effects c s fun t => t.kept = s.kept ∧ t.trl.out = []
            ∧ t.trl.sides[k].peer = some (Fin.ofNat 4 f.src) ∧ (f.src = me → t.trl.dup = true) ∧ t.trl.sides[otherSide k] = y)
          ∧ (x.st = 2 → numbered → f.seq ≠ x.rxSeq + 1 → Effects c s fun t => t = set { heard with sentAt := now } [ack x.rxSeq])
          ∧ (acts → f.type = 1 → f.dest ≠ 15 → f.dest ≠ me → s.trl.dup = false → Effects c s fun t => t.kept = s.kept
            ∧ t.trl.sides[k] = { heard with rxSeq := f.seq, sentAt := now } ∧ t.trl.out = [ack f.seq] ++ (if y.st = 2 then
                [(otherSide k, trlBytes 1 f.dest f.src y.txSeq y.rxSeq f.fatal f.host f.body)] else []))
          ∧ (acts → f.type = 5 → f.dest = me → isLead s = true → Effects c s fun t =>
            t = { set { heard with rxSeq := f.seq, sentAt := now } [ack f.seq] with trl := { (set { heard with rxSeq := f.seq, sentAt := now } [ack f.seq]).trl with
              reqs := s.trl.reqs.map fun r => if r.member.val = f.src ∧ r.pkt.tag = halfAt f.body 0 ∧ r.host.val = (byteAt f.body 2).toNat ∧ r.due ≠ none then
                { r with due := some (now + fld s.trl.cfg 18 8 * 500000) } else r } })
          ∧ (acts → f.type = 1 → f.dest = me → isLead s = true → (halfAt f.body 2).getLsbD 15 = true →
            (reqOf f.host f.body s = none → Effects c s fun t => t.kept = s.kept ∧ t.hosts = s.hosts ∧ t.trl.sticky = s.trl.sticky ||| 8
              ∧ t.trl.reqs = s.trl.reqs ∧ t.trl.out = [ack f.seq])
            ∧ (∀ r, reqOf f.host f.body s = some r → r.bcast = false → r.pkt.time = none → Effects c s fun t => t.kept = s.kept
              ∧ t.trl.reqs = s.trl.reqs.filter (· ≠ r) ∧ hosted r (retarget r.host.val f.body) t))
          ∧ (acts → f.type = 6 → Effects c s fun t => t.kept = s.kept ∧ t.trl.sides[k].reach = BitVec.ofNat 4 (byteAt f.body 0).toNat
            ∧ (BitVec.ofNat 4 (byteAt f.body 0).toNat ≠ x.reach → ∀ m : Fin 4, m ≠ self s →
                t.trl.present.getLsbD m.val = (sideReaches k m t || sideReaches (otherSide k) m t)))
          ∧ (acts → f.type = 4 → isLead s = false → (pathTo 0 s = none ∨ pathTo 0 s = some k) → Effects c s fun t => t.clk.wall = wordAt f.body 8
            ∧ t.trl.timeAt = some now ∧ t.zone.lastSync = some now)
          ∧ (acts → f.type = 1 → f.dest = me → isLead s = false → ready s = true → s.boot.condition = 0 → s.trl.dup = false → s.cmd.restart = none →
            Effects c s fun t => ∃ u, u.kept = s.kept ∧ u.cmd = (begin_ s).cmd ∧ u.trl.out = [ack f.seq]
              ∧ t = authStep (arriving (parsePacket 10 f.body) none u) u)
          ∧ ∀ k' : Fin 2, acts → f.type = 1 → f.dest = me → isLead s = false → ready s = false → s.trl.dup = false →
            (parsePacket 10 f.body).replyWanted = true → pathTo 0 s = some k' → s.trl.sides[k'].st = 2 → Effects c s fun t => t.kept = s.kept
              ∧ t.cmd = (begin_ s).cmd ∧ t.trl.out = [ack f.seq, (k', trlBytes 1 0 me s.trl.sides[k'].txSeq
                  (if k' = k then f.seq else s.trl.sides[k'].rxSeq) hold f.host
                  (packetBytes (replyPacket (parsePacket 10 f.body) stNotReady 0 [] s.boot.member none)))])
    ∧ (∀ (m : Fin 4) (tag : Half),
      let hit := s.trl.reqs.find? fun r => r.member = m && r.pkt.tag == tag && r.due.any (fun t => decide (t ≤ now))
      (hit = none → same (.memberTimerExpiry m tag))
      ∧ ∀ r, hit = some r → Effects (.memberTimerExpiry m tag) s fun t => t.kept = s.kept ∧ t.trl.reqs = s.trl.reqs.filter (· ≠ r)
        ∧ t.trl.sticky = s.trl.sticky ||| 0x10 ∧ timedOut r 0 t ∧ ∃ e, t.alm.batch = s.alm.batch ++ [e] ∧ e.code = 0x1105 ∧ e.idx.toNat = m.val)
    ∧ (∀ m : Fin 4,
      let late : Prop := ∃ r ∈ s.trl.reqs, r.member = m ∧ ∃ t0, r.wakeAt = some t0 ∧ t0 + 3000000 ≤ now
      (¬ late → same (.memberWakeTimeout m))
      ∧ (late → Effects (.memberWakeTimeout m) s fun t => t.kept = s.kept ∧ t.trl.reqs = s.trl.reqs.filter (·.member ≠ m)
        ∧ t.trl.sticky = s.trl.sticky ||| 0x80 ∧ t.trl.lost.getLsbD m.val = true
        ∧ ∀ r, s.trl.reqs.filter (·.member = m) = [r] → timedOut r 1 t))
    ∧ (let admitted (w : TrlWork) : Prop := ∀ q ∈ s.cmd.authWait, q.pkt.host = 10 → q.pkt.tag = w.tag → q.pkt.opcode = w.opcode → q.pkt.hostSeq ≠ w.seq
      let due (w : TrlWork) : Bool := !w.acked && decide (admitted w) && decide (w.extAt + fld s.trl.cfg 18 8 * 250000 ≤ now)
      ((isLead s = true ∨ engineRuns s = false) → same .extendFrameSend)
      ∧ (isLead s = false → engineRuns s = true → Effects .extendFrameSend s fun t => t.kept = s.kept
        ∧ t.trl.working = (s.trl.working.map fun w => if due w then { w with extAt := now } else w)
        ∧ ∀ w (k : Fin 2), s.trl.working.filter due = [w] → pathTo 0 s = some k → s.trl.sides[k].st = 2 →
            t.trl.out = [(k, trlBytes 5 0 me s.trl.sides[k].txSeq s.trl.sides[k].rxSeq hold w.orig.val (be 2 w.tag.toNat ++ be 1 w.orig.val))]))
    ∧ (let due : Prop := isLead s = true ∧ on = true ∧ s.trl.timeSent + 1000000 ≤ now
      let body := be 8 s.zone.time ++ be 4 s.clk.wall.toNat ++ be 1 s.zone.state.code
      let frame (k : Fin 2) : List (Fin 2 × List Byte) := if s.trl.sides[k].st = 2 then
        [(k, trlBytes 4 15 me s.trl.sides[k].txSeq s.trl.sides[k].rxSeq hold 0 body)] else []
      (¬ due → same .timeFrameSend)
      ∧ (due → Effects .timeFrameSend s fun t => t.trl.out = frame 0 ++ frame 1
        ∧ t = { begin_ s with trl := { s.trl with timeSent := now, out := t.trl.out, sides := t.trl.sides } }))
    ∧ (let due : Prop := isLead s = false ∧ ∃ t0, s.trl.timeAt = some t0 ∧ t0 + 3000000 ≤ now
      (¬ due → same .timeFrameTimeout)
      ∧ (due → Effects .timeFrameTimeout s fun t => t.zone.state = .holdover ∧ t.zone.time = s.zone.time ∧ t.kept = s.kept
        ∧ t.trl = { s.trl with timeAt := none, agree := 0, out := [] })))

/-- A packet for several units (R70 to R72): every unit has its part, in order, and the reply combines the results; the unit-wise opcodes named leave the queues and the domains that are on alone, which is all this asks of them. -/
def Obligations.EveryUnitHasItsPart : Prop :=
  (∀ (spec : OpSpec) (op : Half) (p : Packet) (s : State) (us : List UnitRef),
    let p' : Packet := { p with opcode := op }
    engineRuns s = true → (alwaysAuth op p.host = true → p.auth = true) → spec.lenOk p.payload = true → spec.resOk p.payload = true →
    spec.parOk p.payload = true → (∀ t, spec.inner p' t = []) → spec.units p' s = us → us ≠ [] → us.Nodup → UnitRef.chip ∉ us →
    (∀ u ∈ us, (∀ w ∈ s.cmd.waiting, u ∈ w.todo → w.busy = false) ∧ ∀ d ∈ (unitDomain u).toList, domOn d s = true) →
      (∀ f comb, spec.act = .perUnit f comb → KeepsQueues f → ∃ q t, q.pkt = p' ∧ q.units = us ∧ Turns f p' us q.results s t
        ∧ runRow spec op p s = complete q (comb q q.results t) t)
      ∧ (∀ f, spec.act = .whole f → ∃ q t, q.pkt = p' ∧ q.units = us ∧ Moved s t ∧ ∀ a t', f q us t = (some a, t') →
          ∃ m, runRow spec op p s = complete q a t' m))
  ∧ (∀ f, f = onOut (fun q n s => outSetCell q n q.pkt.payload s) ∨ f = onOut (fun q n s => outConfigCell q.pkt.payload n s)
      ∨ f = onOut latchClearCell ∨ f = onSw swConfig → KeepsQueues f)
end

