-- ==== Sys2Proof/Laws/Bits.lean ====
section
/-! SUPPORT. Numbers as bytes, most significant first: their length, and the number read back. -/

namespace Sys2Proof.Machine

@[simp] theorem be_length (n v : Nat) : (be n v).length = n := by
  induction n with
  | zero => rfl
  | succ n ih => simp [be, ih]

theorem ofBe_foldl (bs : List Byte) (x : Nat) :
    bs.foldl (fun a b => a * 256 + b.toNat) x = x * 256 ^ bs.length + ofBe bs := by
  unfold ofBe
  induction bs generalizing x with
  | nil => simp
  | cons b bs ih =>
    simp only [List.foldl_cons, List.length_cons]
    rw [ih (x * 256 + b.toNat), ih (0 * 256 + b.toNat), Nat.pow_succ, Nat.add_mul, Nat.mul_assoc, Nat.mul_comm 256]
    simp only [Nat.zero_mul, Nat.zero_add]
    omega

theorem ofBe_cons (b : Byte) (bs : List Byte) : ofBe (b :: bs) = b.toNat * 256 ^ bs.length + ofBe bs := by
  have := ofBe_foldl bs (0 * 256 + b.toNat)
  simpa [ofBe] using this

/-- The bytes of a number spell it again. -/
theorem ofBe_be (n v : Nat) : ofBe (be n v) = v % 256 ^ n := by
  induction n with
  | zero => simp [be, ofBe, Nat.mod_one]
  | succ n ih =>
    have h : v % 256 ^ (n + 1) = v % 256 ^ n + 256 ^ n * (v / 256 ^ n % 256) := by rw [Nat.pow_succ, Nat.mod_mul]
    rw [be, ofBe_cons, ih, be_length, BitVec.toNat_ofNat, h, Nat.add_comm, Nat.mul_comm]

theorem numAt_be (n v : Nat) : numAt (be n v) 0 n = v % 256 ^ n := by
  simp [numAt, slice, List.take_of_length_le, ofBe_be]

end Sys2Proof.Machine
end

