-- ==== Sys2Proof/Laws/Crypto.lean ====
section
/-! SUPPORT. AES decryption undoes encryption, the key unwrap undoes the wrap, and how long the results are. -/

namespace Sys2Proof.Machine.Crypto

/-! ### Lengths -/

@[simp] theorem xorBytes_length (a b : List Byte) : (xorBytes a b).length = min a.length b.length := by simp [xorBytes]

theorem xorBytes_cancel (a b : List Byte) (h : a.length ≤ b.length) : xorBytes (xorBytes a b) b = a := by
  induction a generalizing b with
  | nil => rfl
  | cons x a ih =>
    match b, h with
    | y :: b, h => simpa [xorBytes, BitVec.xor_assoc] using ih b (by simpa using h)

/-- A list of 16 bytes, byte by byte. -/
theorem sixteen (l : List Byte) (h : l.length = 16) : ∃ a b c d e f g i j k m n o p q r : Byte,
    l = [a, b, c, d, e, f, g, i, j, k, m, n, o, p, q, r] := by
  match l, h with
  | [a, b, c, d, e, f, g, i, j, k, m, n, o, p, q, r], _ => exact ⟨a, b, c, d, e, f, g, i, j, k, m, n, o, p, q, r, rfl⟩

theorem nextKey_length (k : List Byte) (r : Byte) (h : k.length = 16) : (nextKey k r).length = 16 := by simp [nextKey, h]

theorem shiftRows_length (s : List Byte) : (shiftRows s).length = 16 := rfl
theorem invShiftRows_length (s : List Byte) : (invShiftRows s).length = 16 := rfl

theorem mixed_length (s : List Byte) (h : s.length = 16) : (mapColumns mixColumn s).length = 16 := by
  obtain ⟨a, b, c, d, e, f, g, i, j, k, m, n, o, p, q, r, rfl⟩ := sixteen s h
  rfl

/-! ### One round -/

theorem xor_left_comm8 (a b c : Byte) : a ^^^ (b ^^^ c) = b ^^^ (a ^^^ c) := by
  rw [← BitVec.xor_assoc, BitVec.xor_comm a b, BitVec.xor_assoc]

theorem xor_cancel_left (a b : Byte) : a ^^^ (a ^^^ b) = b := by simp [← BitVec.xor_assoc]

theorem xtime_xor (a b : Byte) : xtime (a ^^^ b) = xtime a ^^^ xtime b := by
  unfold xtime
  rw [BitVec.msb_xor, BitVec.shiftLeft_xor_distrib]
  cases a.msb <;> cases b.msb <;> simp [BitVec.xor_assoc, BitVec.xor_comm, xor_left_comm8]

/-- Two bytes of a mixed column, added: what the inverse corrects by. -/
theorem mixed_pair (a b c d : Byte) :
    (a ^^^ (a ^^^ b ^^^ c ^^^ d) ^^^ xtime (a ^^^ b)) ^^^ (c ^^^ (a ^^^ b ^^^ c ^^^ d) ^^^ xtime (c ^^^ d))
      = a ^^^ c ^^^ xtime (a ^^^ b ^^^ c ^^^ d) := by
  simp only [xtime_xor, BitVec.xor_assoc, xor_left_comm8, BitVec.xor_comm, xor_cancel_left]

/-- Mixing a column (a, b, c, d), each byte corrected by `u` or `v`. -/
theorem corrected_mix (a b c d u v : Byte) : mixColumn (a ^^^ u) (b ^^^ v) (c ^^^ u) (d ^^^ v)
    = (mixColumn a b c d).zipWith (· ^^^ ·) [u ^^^ xtime (u ^^^ v), v ^^^ xtime (u ^^^ v), u ^^^ xtime (u ^^^ v), v ^^^ xtime (u ^^^ v)] := by
  simp only [mixColumn, List.zipWith_cons_cons, List.zipWith_nil_left, List.cons.injEq, and_true]
  refine ⟨?_, ?_, ?_, ?_⟩ <;>
    simp only [xtime_xor, BitVec.xor_assoc, xor_left_comm8, BitVec.xor_comm, xor_cancel_left]

/-- Mixing twice. -/
theorem mix_twice (a b c d : Byte) :
    mixColumn (a ^^^ (a ^^^ b ^^^ c ^^^ d) ^^^ xtime (a ^^^ b)) (b ^^^ (a ^^^ b ^^^ c ^^^ d) ^^^ xtime (b ^^^ c))
        (c ^^^ (a ^^^ b ^^^ c ^^^ d) ^^^ xtime (c ^^^ d)) (d ^^^ (a ^^^ b ^^^ c ^^^ d) ^^^ xtime (d ^^^ a))
      = [a ^^^ xtime (xtime (a ^^^ c)), b ^^^ xtime (xtime (b ^^^ d)), c ^^^ xtime (xtime (a ^^^ c)), d ^^^ xtime (xtime (b ^^^ d))] := by
  simp only [mixColumn, List.cons.injEq, and_true]
  refine ⟨?_, ?_, ?_, ?_⟩ <;>
    simp only [xtime_xor, BitVec.xor_assoc, xor_left_comm8, BitVec.xor_comm, xor_cancel_left, BitVec.xor_self, BitVec.xor_zero, BitVec.zero_xor]

theorem unmix_column (a b c d : Byte) :
    invMixColumn (a ^^^ (a ^^^ b ^^^ c ^^^ d) ^^^ xtime (a ^^^ b)) (b ^^^ (a ^^^ b ^^^ c ^^^ d) ^^^ xtime (b ^^^ c))
      (c ^^^ (a ^^^ b ^^^ c ^^^ d) ^^^ xtime (c ^^^ d)) (d ^^^ (a ^^^ b ^^^ c ^^^ d) ^^^ xtime (d ^^^ a)) = [a, b, c, d] := by
  have q : (b ^^^ (a ^^^ b ^^^ c ^^^ d) ^^^ xtime (b ^^^ c)) ^^^ (d ^^^ (a ^^^ b ^^^ c ^^^ d) ^^^ xtime (d ^^^ a))
      = b ^^^ d ^^^ xtime (a ^^^ b ^^^ c ^^^ d) := by
    simp only [xtime_xor, BitVec.xor_assoc, xor_left_comm8, BitVec.xor_comm, xor_cancel_left]
  simp only [invMixColumn, mixed_pair, q]
  rw [corrected_mix, mix_twice]
  simp only [List.zipWith_cons_cons, List.zipWith_nil_left, List.cons.injEq, and_true, xtime_xor]
  generalize xtime (xtime a) = e, xtime (xtime b) = f, xtime (xtime c) = g, xtime (xtime d) = i
  refine ⟨?_, ?_, ?_, ?_⟩ <;>
    simp only [BitVec.xor_assoc, xor_left_comm8, BitVec.xor_comm, BitVec.xor_self, BitVec.xor_zero, BitVec.zero_xor]

theorem unmix (s : List Byte) (h : s.length = 16) : mapColumns invMixColumn (mapColumns mixColumn s) = s := by
  obtain ⟨a, b, c, d, e, f, g, i, j, k, m, n, o, p, q, r, rfl⟩ := sixteen s h
  simp only [mapColumns, mixColumn, List.cons_append, List.nil_append, unmix_column, List.append_nil]

theorem invSub_sub (b : Byte) : invSub (sub b) = b := by
  revert b; decide +kernel

theorem unshift (s : List Byte) (h : s.length = 16) : (invShiftRows (shiftRows (s.map sub))).map invSub = s := by
  obtain ⟨a, b, c, d, e, f, g, i, j, k, m, n, o, p, q, r, rfl⟩ := sixteen s h
  simp [invShiftRows, shiftRows, invSub_sub]

/-! ### The block cipher -/

theorem unround (rks : List (List Byte)) (s : List Byte) (hs : s.length = 16) (h : ∀ k ∈ rks, k.length = 16) :
    rks.reverse.foldl (fun s rk => (invShiftRows (mapColumns invMixColumn (xorBytes s rk))).map invSub)
        (rks.foldl (fun s rk => xorBytes (mapColumns mixColumn (shiftRows (s.map sub))) rk) s) = s
      ∧ (rks.foldl (fun s rk => xorBytes (mapColumns mixColumn (shiftRows (s.map sub))) rk) s).length = 16 := by
  induction rks generalizing s with
  | nil => exact ⟨rfl, hs⟩
  | cons k rks ih =>
    have hk : k.length = 16 := h k (by simp)
    have hm : (mapColumns mixColumn (shiftRows (s.map sub))).length = 16 := mixed_length _ (shiftRows_length _)
    obtain ⟨e, l⟩ := ih (xorBytes (mapColumns mixColumn (shiftRows (s.map sub))) k) (by simp [hm, hk]) fun x hx => h x (by simp [hx])
    refine ⟨?_, l⟩
    simp only [List.reverse_cons, List.foldl_append, List.foldl_cons, List.foldl_nil]
    rw [e, xorBytes_cancel _ _ (by simp [hm, hk]), unmix _ (shiftRows_length _), unshift s hs]

/-- The eleven keys of a schedule whose step keeps the length: the key, nine for the rounds, the last. -/
theorem schedule_parts (f : List Byte → Byte → List Byte) (hf : ∀ x r, x.length = 16 → (f x r).length = 16) (k : List Byte) (h : k.length = 16) :
    ∃ (nine : List (List Byte)) (last : List Byte),
      ([0x01, 0x02, 0x04, 0x08, 0x10, 0x20, 0x40, 0x80, 0x1B, 0x36] : List Byte).foldl (fun ks r => ks ++ [f (ks.getLastD []) r]) [k]
        = k :: nine ++ [last] ∧ nine.length = 9 ∧ last.length = 16 ∧ ∀ x ∈ nine, x.length = 16 := by
  have h1 := hf k 0x01 h
  have h2 := hf _ 0x02 h1
  have h3 := hf _ 0x04 h2
  have h4 := hf _ 0x08 h3
  have h5 := hf _ 0x10 h4
  have h6 := hf _ 0x20 h5
  have h7 := hf _ 0x40 h6
  have h8 := hf _ 0x80 h7
  have h9 := hf _ 0x1B h8
  refine ⟨[_, _, _, _, _, _, _, _, _], _, rfl, rfl, hf _ 0x36 h9, ?_⟩
  simp only [List.mem_cons, List.not_mem_nil, or_false]
  rintro x (rfl | rfl | rfl | rfl | rfl | rfl | rfl | rfl | rfl) <;> assumption

theorem roundKeys_parts (k : List Byte) (h : k.length = 16) : ∃ (nine : List (List Byte)) (last : List Byte),
    roundKeys k = k :: nine ++ [last] ∧ nine.length = 9 ∧ last.length = 16 ∧ ∀ x ∈ nine, x.length = 16 :=
  schedule_parts nextKey nextKey_length k h

/-- Decryption undoes encryption. -/
theorem aesInv_aes (k m : List Byte) (hk : k.length = 16) (hm : m.length = 16) : aesInv k (aes k m) = m := by
  obtain ⟨nine, last, e, hn, hl, hx⟩ := roundKeys_parts k hk
  obtain ⟨u, l⟩ := unround nine (xorBytes m k) (by simp [hk, hm]) hx
  have e1 : ((roundKeys k).drop 1).take 9 = nine := by simp [e, hn]
  have e2 : (roundKeys k).getLastD [] = last := by rw [e]; exact List.getLastD_concat ..
  have e3 : (roundKeys k).reverse.headD [] = last := by simp [e]
  have e4 : ((roundKeys k).reverse.drop 1).take 9 = nine.reverse := by simp [e, hn]
  unfold aes aesInv
  simp only [e1, e2, e3, e4]
  rw [xorBytes_cancel _ _ (Nat.le_of_eq (by rw [shiftRows_length, hl])), unshift _ l, u, xorBytes_cancel _ _ (Nat.le_of_eq (by rw [hk, hm]))]

theorem aes_length (k m : List Byte) (hk : k.length = 16) : (aes k m).length = 16 := by
  obtain ⟨nine, last, e, _, hl, _⟩ := roundKeys_parts k hk
  have e2 : (roundKeys k).getLastD [] = last := by rw [e]; exact List.getLastD_concat ..
  simp only [aes, e2, xorBytes_length, shiftRows_length, hl, Nat.min_self]

theorem cbc_length (k : List Byte) (last : List Byte → List Byte) (n : Nat) (acc m : List Byte) (hk : k.length = 16) (ha : acc.length = 16) :
    (cbc k last n acc m).length = 16 := by
  induction n generalizing acc m with
  | zero => exact ha
  | succ n ih =>
    unfold cbc
    split
    · exact aes_length _ _ hk
    · exact ih _ _ (aes_length _ _ hk)

/-- A CMAC is 16 bytes. -/
theorem cmac_length (k m : List Byte) (hk : k.length = 16) : (cmac k m).length = 16 :=
  cbc_length _ _ _ _ _ hk (be_length 16 0)

theorem cmac8_length (k m : List Byte) (hk : k.length = 16) : (cmac8 k m).length = 8 := by simp [cmac8, cmac_length k m hk]

/-! ### The key wrap -/

theorem wrapStep_length (k a r : List Byte) (t : Nat) (hk : k.length = 16) :
    (wrapStep k a r t).1.length = 8 ∧ (wrapStep k a r t).2.length = 8 := by
  have := aes_length k (a ++ r) hk
  simp [wrapStep, this]

theorem unwrapStep_wrapStep (k a r : List Byte) (t : Nat) (hk : k.length = 16) (ha : a.length = 8) (hr : r.length = 8) :
    unwrapStep k (wrapStep k a r t).1 (wrapStep k a r t).2 t = (a, r) := by
  have h := aes_length k (a ++ r) hk
  rw [wrapStep, unwrapStep]
  rw [xorBytes_cancel _ _ (by simp [h]), List.take_append_drop, aesInv_aes k _ hk (by simp [ha, hr])]
  simp [ha]

theorem wrapPass_length (k a : List Byte) (rs : List (List Byte)) (t : Nat) (hk : k.length = 16) (ha : a.length = 8) (hr : ∀ r ∈ rs, r.length = 8) :
    (wrapPass k a rs t).1.length = 8 ∧ (wrapPass k a rs t).2.length = rs.length ∧ ∀ r ∈ (wrapPass k a rs t).2, r.length = 8 := by
  induction rs generalizing a t with
  | nil => exact ⟨ha, rfl, by simp [wrapPass]⟩
  | cons r rs ih =>
    obtain ⟨h1, h2⟩ := wrapStep_length k a r t hk
    obtain ⟨i1, i2, i3⟩ := ih (wrapStep k a r t).1 (t + 1) h1 fun x hx => hr x (by simp [hx])
    simp only [wrapPass]
    refine ⟨i1, by simp [i2], ?_⟩
    intro x hx
    rcases List.mem_cons.1 hx with hx | hx
    · rw [hx]; exact h2
    · exact i3 x hx

theorem unwrapPass_append (k a : List Byte) (xs : List (List Byte)) (r : List Byte) (t : Nat) :
    unwrapPass k a (xs ++ [r]) t = ((unwrapStep k (unwrapPass k a xs t).1 r (t - xs.length)).1,
      (unwrapPass k a xs t).2 ++ [(unwrapStep k (unwrapPass k a xs t).1 r (t - xs.length)).2]) := by
  induction xs generalizing a t with
  | nil => simp [unwrapPass]
  | cons x xs ih => simp only [List.cons_append, unwrapPass, ih, List.length_cons, Nat.sub_sub, Nat.add_comm 1]

theorem unwrapPass_wrapPass (k a : List Byte) (rs : List (List Byte)) (t : Nat) (hk : k.length = 16) (ha : a.length = 8)
    (hr : ∀ r ∈ rs, r.length = 8) :
    unwrapPass k (wrapPass k a rs (t + 1)).1 (wrapPass k a rs (t + 1)).2.reverse (t + rs.length) = (a, rs.reverse) := by
  induction rs generalizing a t with
  | nil => rfl
  | cons r rs ih =>
    obtain ⟨h1, _⟩ := wrapStep_length k a r (t + 1) hk
    have i := ih (wrapStep k a r (t + 1)).1 (t + 1) h1 fun x hx => hr x (by simp [hx])
    have l := (wrapPass_length k (wrapStep k a r (t + 1)).1 rs (t + 2) hk h1 fun x hx => hr x (by simp [hx])).2.1
    have e : t + (r :: rs).length = t + 1 + rs.length := by simp only [List.length_cons]; omega
    have s : t + 1 + rs.length - rs.length = t + 1 := by omega
    simp only [wrapPass, List.reverse_cons]
    rw [unwrapPass_append, e, i, List.length_reverse, l, s, unwrapStep_wrapStep k a r (t + 1) hk ha (hr r (by simp))]

theorem semiblocks_length (n : Nat) (m : List Byte) : (semiblocks n m).length = n := by
  induction n generalizing m with
  | zero => rfl
  | succ n ih => simp [semiblocks, ih]

theorem semiblocks_all (n : Nat) (m : List Byte) (h : m.length = 8 * n) : ∀ r ∈ semiblocks n m, r.length = 8 := by
  induction n generalizing m with
  | zero => simp [semiblocks]
  | succ n ih =>
    intro r hr
    rcases List.mem_cons.1 hr with rfl | hr
    · simp only [List.length_take]; omega
    · exact ih _ (by simp only [List.length_drop]; omega) r hr

theorem semiblocks_flatten (n : Nat) (m : List Byte) (h : m.length = 8 * n) : (semiblocks n m).flatten = m := by
  induction n generalizing m with
  | zero => exact (List.length_eq_zero_iff.1 (by omega : m.length = 0)).symm
  | succ n ih => rw [semiblocks, List.flatten_cons, ih _ (by simp only [List.length_drop]; omega), List.take_append_drop]

theorem flatten_semiblocks (l : List (List Byte)) (h : ∀ r ∈ l, r.length = 8) : semiblocks l.length l.flatten = l ∧ l.flatten.length = 8 * l.length := by
  induction l with
  | nil => exact ⟨rfl, rfl⟩
  | cons r l ih =>
    obtain ⟨i1, i2⟩ := ih fun x hx => h x (by simp [hx])
    have hr := h r (by simp)
    refine ⟨?_, by simp only [List.flatten_cons, List.length_append, List.length_cons, i2, hr]; omega⟩
    rw [List.length_cons, semiblocks, List.flatten_cons, List.take_append_of_le_length (by omega), List.take_of_length_le (by omega),
      List.drop_append_of_le_length (by omega), List.drop_of_length_le (by omega), List.nil_append, i1]

/-- The passes of the wrap and of the unwrap, in order. -/
theorem unwrap_passes (k a : List Byte) (rs : List (List Byte)) (hk : k.length = 16) (ha : a.length = 8) (hr : ∀ r ∈ rs, r.length = 8) (js : List Nat) :
    let w := js.foldl (fun (p : List Byte × List (List Byte)) j => wrapPass k p.1 p.2 (rs.length * j + 1)) (a, rs)
    w.1.length = 8 ∧ w.2.length = rs.length ∧ (∀ r ∈ w.2, r.length = 8)
      ∧ js.reverse.foldl (fun (p : List Byte × List (List Byte)) j => unwrapPass k p.1 p.2 (rs.length * (j + 1))) (w.1, w.2.reverse) = (a, rs.reverse) := by
  generalize hn : rs.length = n
  induction js generalizing a rs with
  | nil => exact ⟨ha, hn, hr, rfl⟩
  | cons j js ih =>
    obtain ⟨l1, l2, l3⟩ := wrapPass_length k a rs (n * j + 1) hk ha hr
    obtain ⟨i1, i2, i3, i4⟩ := ih (wrapPass k a rs (n * j + 1)).1 (wrapPass k a rs (n * j + 1)).2 l1 l3 (l2.trans hn)
    refine ⟨i1, i2, i3, ?_⟩
    have e := unwrapPass_wrapPass k a rs (n * j) hk ha hr
    rw [hn, ← Nat.mul_succ] at e
    rw [List.reverse_cons, List.foldl_append]
    simp only [List.foldl_cons, List.foldl_nil]
    rw [i4]
    exact e

/-- The unwrap gives back what was wrapped. -/
theorem keyUnwrap_keyWrap (k m : List Byte) (n : Nat) (hk : k.length = 16) (hm : m.length = 8 * n) :
    keyUnwrap k (keyWrap k m) = some m ∧ (keyWrap k m).length = 8 + 8 * n := by
  have hn : m.length / 8 = n := by omega
  have all := semiblocks_all n m hm
  have len := semiblocks_length n m
  obtain ⟨w1, w2, w3, w4⟩ := unwrap_passes k (List.replicate 8 0xA6#8) (semiblocks n m) hk (by simp) all (List.range 6)
  rw [len] at w1 w2 w3 w4
  simp only [keyWrap, hn]
  generalize hw : (List.range 6).foldl (fun (p : List Byte × List (List Byte)) j => wrapPass k p.1 p.2 (n * j + 1))
    (List.replicate 8 0xA6#8, semiblocks n m) = w at w1 w2 w3 w4 ⊢
  obtain ⟨f1, f2⟩ := flatten_semiblocks w.2 w3
  have hl : (w.1 ++ w.2.flatten).length = 8 + 8 * n := by simp only [List.length_append, w1, f2, w2]
  refine ⟨?_, hl⟩
  have hc : (w.1 ++ w.2.flatten).length / 8 - 1 = n := by omega
  have t1 : (w.1 ++ w.2.flatten).take 8 = w.1 := by rw [List.take_append_of_le_length (by omega), List.take_of_length_le (by omega)]
  have d1 : (w.1 ++ w.2.flatten).drop 8 = w.2.flatten := by rw [List.drop_append_of_le_length (by omega), List.drop_of_length_le (by omega), List.nil_append]
  rw [w2] at f1
  simp only [keyUnwrap, hc, t1, d1, f1]
  have r6 : ∀ x, (List.range 6).foldl (fun (p : List Byte × List (List Byte)) j => unwrapPass k p.1 p.2 (n * (6 - j))) x
      = (List.range 6).reverse.foldl (fun (p : List Byte × List (List Byte)) j => unwrapPass k p.1 p.2 (n * (j + 1))) x := fun _ => rfl
  rw [r6, w4]
  simp [semiblocks_flatten n m hm]

end Sys2Proof.Machine.Crypto
end

