-- ==== Sys2Proof/Laws/Memory.lean ====
section
/-! SUPPORT. The memory operations keep the canonical form; a byte read after a write is the byte written, every other byte stays. -/

namespace Sys2Proof.Machine

theorem Mem.rising_iff (m : Memory) : Mem.rising m = true ↔ m.Pairwise (·.1 < ·.1) := by
  induction m with
  | nil => simp [Mem.rising]
  | cons a m ih =>
    cases m with
    | nil => simp [Mem.rising]
    | cons b r =>
      simp only [Mem.rising, Bool.and_eq_true, decide_eq_true_eq, ih, List.pairwise_cons, List.mem_cons]
      constructor
      · rintro ⟨h1, h2, h3⟩
        refine ⟨?_, h2, h3⟩
        rintro c (rfl | hc)
        · exact h1
        · exact Nat.lt_trans h1 (h2 c hc)
      · rintro ⟨h1, h2, h3⟩
        exact ⟨h1 b (Or.inl rfl), h2, h3⟩

/-- The canonical form, as propositions. -/
theorem Memory.wf_iff (m : Memory) :
    Memory.wf m = true ↔ m.Pairwise (·.1 < ·.1) ∧ ∀ c ∈ m, c.2 ≠ Mem.erased ∧ c.1 < Mem.size := by
  simp only [Memory.wf, Bool.and_eq_true, Mem.rising_iff, List.all_eq_true, bne_iff_ne, decide_eq_true_eq]
  exact ⟨fun ⟨⟨h1, h2⟩, h3⟩ => ⟨h1, fun c hc => ⟨h2 c hc, h3 c hc⟩⟩, fun ⟨h1, h2⟩ => ⟨⟨h1, fun c hc => (h2 c hc).1⟩, fun c hc => (h2 c hc).2⟩⟩

/-- The memory at reset has the canonical form. -/
theorem State.reset_nv_wf : Memory.wf State.reset.nv = true := rfl

theorem Mem.mem_cells {c : Host.Cell} {a : Nat} {bs : List Byte} (h : c ∈ Mem.cells a bs) :
    a ≤ c.1 ∧ c.1 < a + bs.length ∧ c.2 ≠ Mem.erased ∧ c.1 < Mem.size := by
  induction bs generalizing a with
  | nil => simp [Mem.cells] at h
  | cons b bs ih =>
    unfold Mem.cells at h
    split at h
    · obtain ⟨h1, h2, h3⟩ := ih h
      simp only [List.length_cons]; exact ⟨by omega, by omega, h3⟩
    · rename_i hb
      simp only [Bool.or_eq_true, decide_eq_true_eq, not_or, Nat.not_le] at hb
      rcases List.mem_cons.1 h with rfl | h
      · exact ⟨Nat.le_refl _, by simp, hb.1, hb.2⟩
      · obtain ⟨h1, h2, h3⟩ := ih h
        simp only [List.length_cons]; exact ⟨by omega, by omega, h3⟩

theorem Mem.cells_rising (a : Nat) (bs : List Byte) : (Mem.cells a bs).Pairwise (·.1 < ·.1) := by
  induction bs generalizing a with
  | nil => simp [Mem.cells]
  | cons b bs ih =>
    unfold Mem.cells
    split
    · exact ih _
    · exact List.pairwise_cons.2 ⟨fun c hc => (Mem.mem_cells hc).1, ih _⟩

/-- A write keeps the canonical form. -/
theorem Mem.write_wf (m : Memory) (a : Nat) (bs : List Byte) (h : Memory.wf m = true) : Memory.wf (Mem.write m a bs) = true := by
  rw [Memory.wf_iff] at h ⊢
  obtain ⟨h1, h2⟩ := h
  unfold Mem.write
  constructor
  · refine List.pairwise_append.2 ⟨List.pairwise_append.2 ⟨h1.filter _, Mem.cells_rising a bs, ?_⟩, h1.filter _, ?_⟩
    · intro x hx y hy
      have := (List.mem_filter.1 hx).2
      simp only [decide_eq_true_eq] at this
      exact Nat.lt_of_lt_of_le this (Mem.mem_cells hy).1
    · intro x hx y hy
      have hy' := (List.mem_filter.1 hy).2
      simp only [decide_eq_true_eq] at hy'
      rcases List.mem_append.1 hx with hx | hx
      · have := (List.mem_filter.1 hx).2
        simp only [decide_eq_true_eq] at this
        omega
      · have := (Mem.mem_cells hx).2.1
        omega
  · intro c hc
    rcases List.mem_append.1 hc with hc | hc
    · rcases List.mem_append.1 hc with hc | hc
      · exact h2 c (List.mem_filter.1 hc).1
      · exact (Mem.mem_cells hc).2.2
    · exact h2 c (List.mem_filter.1 hc).1

/-- Erasing keeps the canonical form. -/
theorem Mem.clear_wf (m : Memory) (a n : Nat) (h : Memory.wf m = true) : Memory.wf (Mem.clear m a n) = true := by
  rw [Memory.wf_iff] at h ⊢
  exact ⟨h.1.filter _, fun c hc => h.2 c (List.mem_filter.1 hc).1⟩

/-! ### Reads -/

theorem Mem.read_append (l r : Memory) (x : Nat) :
    Mem.read (l ++ r) x = if l.any (fun c => c.1 == x) then Mem.read l x else Mem.read r x := by
  induction l with
  | nil => simp
  | cons c l ih =>
    simp only [List.cons_append, Mem.read, List.any_cons, Bool.or_eq_true, beq_iff_eq, ih]
    by_cases h : c.1 = x <;> simp [h]

theorem Mem.read_filter (m : Memory) (p : Nat → Bool) (x : Nat) :
    Mem.read (m.filter fun c => p c.1) x = if p x then Mem.read m x else Mem.erased := by
  induction m with
  | nil => simp [Mem.read]
  | cons c m ih =>
    simp only [List.filter_cons]
    by_cases hp : p c.1 = true
    · simp only [hp, if_true, Mem.read, ih]
      by_cases h : c.1 = x
      · subst h; simp [hp]
      · simp [h]
    · simp only [hp, Bool.false_eq_true, if_false, ih, Mem.read]
      by_cases h : c.1 = x
      · subst h; simp [hp]
      · simp [h]

theorem Mem.read_absent (l : Memory) (x : Nat) (h : l.any (fun c => c.1 == x) = false) : Mem.read l x = Mem.erased := by
  induction l with
  | nil => rfl
  | cons c l ih =>
    simp only [List.any_cons, Bool.or_eq_false_iff, beq_eq_false_iff_ne] at h
    simp [Mem.read, h.1, ih h.2]

theorem Mem.read_cells (a : Nat) (bs : List Byte) (x : Nat) (h1 : a ≤ x) (h2 : x < a + bs.length) (h3 : x < Mem.size) :
    Mem.read (Mem.cells a bs) x = bs.getD (x - a) 0 := by
  induction bs generalizing a with
  | nil => simp at h2; omega
  | cons b bs ih =>
    by_cases hx : x = a
    · subst hx
      unfold Mem.cells
      split
      · rename_i hb
        simp only [Bool.or_eq_true, decide_eq_true_eq] at hb
        have hb : b = Mem.erased := hb.resolve_right (by omega)
        rw [Mem.read_absent]
        · simp [hb, Mem.erased]
        · rw [List.any_eq_false]
          intro c hc
          have := (Mem.mem_cells hc).1
          simp only [beq_iff_eq]; omega
      · simp [Mem.read]
    · have hx' : x - a = (x - (a + 1)) + 1 := by omega
      simp only [List.length_cons] at h2
      have := ih (a + 1) (by omega) (by omega)
      unfold Mem.cells
      rw [hx', List.getD_cons_succ, ← this]
      split
      · rfl
      · simp [Mem.read, Ne.symm hx]

theorem Mem.read_append_absent (l r : Memory) (x : Nat) (h : ∀ c ∈ l, c.1 ≠ x) : Mem.read (l ++ r) x = Mem.read r x := by
  have : l.any (fun c => c.1 == x) = false := by
    rw [List.any_eq_false]; intro c hc; simpa using h c hc
  rw [Mem.read_append, this]; rfl

theorem Mem.read_append_erased (l r : Memory) (x : Nat) (h : Mem.read r x = Mem.erased) : Mem.read (l ++ r) x = Mem.read l x := by
  rw [Mem.read_append]
  by_cases hl : l.any (fun c => c.1 == x) = true
  · rw [if_pos hl]
  · rw [if_neg hl, h, Mem.read_absent l x (Bool.eq_false_iff.2 hl)]

/-- A byte of the die that was written reads as written. -/
theorem Mem.read_write_same (m : Memory) (a : Nat) (bs : List Byte) (x : Nat) (h1 : a ≤ x) (h2 : x < a + bs.length)
    (h3 : x < Mem.size) : Mem.read (Mem.write m a bs) x = bs.getD (x - a) 0 := by
  unfold Mem.write
  rw [List.append_assoc, Mem.read_append_absent _ _ _ ?_, Mem.read_append_erased _ _ _ ?_, Mem.read_cells a bs x h1 h2 h3]
  · rw [Mem.read_filter m (fun y => decide (a + bs.length ≤ y)) x, if_neg (by simp only [decide_eq_true_eq]; omega)]
  · intro c hc
    have := (List.mem_filter.1 hc).2
    simp only [decide_eq_true_eq] at this
    omega

/-- Every other byte stays. -/
theorem Mem.read_write_other (m : Memory) (a : Nat) (bs : List Byte) (x : Nat) (h : x < a ∨ a + bs.length ≤ x) :
    Mem.read (Mem.write m a bs) x = Mem.read m x := by
  have hl := Mem.read_filter m (fun y => decide (y < a)) x
  have hh := Mem.read_filter m (fun y => decide (a + bs.length ≤ y)) x
  have hc : ∀ c ∈ Mem.cells a bs, c.1 ≠ x := fun c hc => by have := Mem.mem_cells hc; omega
  unfold Mem.write
  rcases h with h | h
  · rw [List.append_assoc, Mem.read_append_erased, hl, if_pos (by simpa using h)]
    rw [Mem.read_append_absent _ _ _ hc, hh, if_neg (by simp only [decide_eq_true_eq]; omega)]
  · rw [List.append_assoc, Mem.read_append_absent, Mem.read_append_absent _ _ _ hc, hh, if_pos (by simpa using h)]
    intro c hc
    have := (List.mem_filter.1 hc).2
    simp only [decide_eq_true_eq] at this
    omega

/-- Erased bytes read as erased, every other byte stays. -/
theorem Mem.read_clear (m : Memory) (a n x : Nat) :
    Mem.read (Mem.clear m a n) x = if x < a ∨ a + n ≤ x then Mem.read m x else Mem.erased := by
  have := Mem.read_filter m (fun y => decide (y < a) || decide (a + n ≤ y)) x
  simpa [Mem.clear] using this

end Sys2Proof.Machine
end

