-- ==== Sys2Proof/Laws/State.lean ====
section
/-! SUPPORT. What each update of the state does to each field: one lemma per field, so that no proof unfolds a record update. -/

namespace Sys2Proof.Machine

/-! ### drew -/

@[simp] theorem drew_pending (s : State) : (drew s).pending = s.pending := rfl
@[simp] theorem drew_clk (s : State) : (drew s).clk = { s.clk with free := s.clk.free + 1 } := rfl
@[simp] theorem drew_zone (s : State) : (drew s).zone = s.zone := rfl
@[simp] theorem drew_ev (s : State) : (drew s).ev = s.ev := rfl
@[simp] theorem drew_cmd (s : State) : (drew s).cmd = s.cmd := rfl
@[simp] theorem drew_hosts (s : State) : (drew s).hosts = s.hosts := rfl
@[simp] theorem drew_boot (s : State) : (drew s).boot = s.boot := rfl
@[simp] theorem drew_plan (s : State) : (drew s).plan = s.plan := rfl
@[simp] theorem drew_dom (s : State) : (drew s).dom = s.dom := rfl
@[simp] theorem drew_rfx (s : State) : (drew s).rfx = s.rfx := rfl
@[simp] theorem drew_alm (s : State) : (drew s).alm = s.alm := rfl
@[simp] theorem drew_flt (s : State) : (drew s).flt = s.flt := rfl
@[simp] theorem drew_ks (s : State) : (drew s).ks = s.ks := rfl
@[simp] theorem drew_nv (s : State) : (drew s).nv = s.nv := rfl
@[simp] theorem drew_outs (s : State) : (drew s).outs = s.outs := rfl
@[simp] theorem drew_regs (s : State) : (drew s).regs = s.regs := rfl
@[simp] theorem drew_prune (s : State) : (drew s).prune = s.prune := rfl
@[simp] theorem drew_modb (s : State) : (drew s).modb = s.modb := rfl
@[simp] theorem drew_brs (s : State) : (drew s).brs = s.brs := rfl
@[simp] theorem drew_legs (s : State) : (drew s).legs = s.legs := rfl
@[simp] theorem drew_vls (s : State) : (drew s).vls = s.vls := rfl
@[simp] theorem drew_vhs (s : State) : (drew s).vhs = s.vhs := rfl
@[simp] theorem drew_io (s : State) : (drew s).io = s.io := rfl
@[simp] theorem drew_net (s : State) : (drew s).net = s.net := rfl
@[simp] theorem drew_acc (s : State) : (drew s).acc = s.acc := rfl
@[simp] theorem drew_trl (s : State) : (drew s).trl = s.trl := rfl
@[simp] theorem drew_adc (s : State) : (drew s).adc = s.adc := rfl
@[simp] theorem drew_seqs (s : State) : (drew s).seqs = s.seqs := rfl

/-! ### modDom -/

@[simp] theorem modDom_pending (d : Fin 16) (f : DomOne → DomOne) (s : State) : (modDom d f s).pending = s.pending := rfl
@[simp] theorem modDom_clk (d : Fin 16) (f : DomOne → DomOne) (s : State) : (modDom d f s).clk = s.clk := rfl
@[simp] theorem modDom_zone (d : Fin 16) (f : DomOne → DomOne) (s : State) : (modDom d f s).zone = s.zone := rfl
@[simp] theorem modDom_ev (d : Fin 16) (f : DomOne → DomOne) (s : State) : (modDom d f s).ev = s.ev := rfl
@[simp] theorem modDom_cmd (d : Fin 16) (f : DomOne → DomOne) (s : State) : (modDom d f s).cmd = s.cmd := rfl
@[simp] theorem modDom_hosts (d : Fin 16) (f : DomOne → DomOne) (s : State) : (modDom d f s).hosts = s.hosts := rfl
@[simp] theorem modDom_boot (d : Fin 16) (f : DomOne → DomOne) (s : State) : (modDom d f s).boot = s.boot := rfl
@[simp] theorem modDom_plan (d : Fin 16) (f : DomOne → DomOne) (s : State) : (modDom d f s).plan = s.plan := rfl
@[simp] theorem modDom_dom (d : Fin 16) (f : DomOne → DomOne) (s : State) : (modDom d f s).dom = { s.dom with dom := s.dom.dom.set d (f s.dom.dom[d]) } := rfl
@[simp] theorem modDom_rfx (d : Fin 16) (f : DomOne → DomOne) (s : State) : (modDom d f s).rfx = s.rfx := rfl
@[simp] theorem modDom_alm (d : Fin 16) (f : DomOne → DomOne) (s : State) : (modDom d f s).alm = s.alm := rfl
@[simp] theorem modDom_flt (d : Fin 16) (f : DomOne → DomOne) (s : State) : (modDom d f s).flt = s.flt := rfl
@[simp] theorem modDom_ks (d : Fin 16) (f : DomOne → DomOne) (s : State) : (modDom d f s).ks = s.ks := rfl
@[simp] theorem modDom_nv (d : Fin 16) (f : DomOne → DomOne) (s : State) : (modDom d f s).nv = s.nv := rfl
@[simp] theorem modDom_outs (d : Fin 16) (f : DomOne → DomOne) (s : State) : (modDom d f s).outs = s.outs := rfl
@[simp] theorem modDom_regs (d : Fin 16) (f : DomOne → DomOne) (s : State) : (modDom d f s).regs = s.regs := rfl
@[simp] theorem modDom_prune (d : Fin 16) (f : DomOne → DomOne) (s : State) : (modDom d f s).prune = s.prune := rfl
@[simp] theorem modDom_modb (d : Fin 16) (f : DomOne → DomOne) (s : State) : (modDom d f s).modb = s.modb := rfl
@[simp] theorem modDom_brs (d : Fin 16) (f : DomOne → DomOne) (s : State) : (modDom d f s).brs = s.brs := rfl
@[simp] theorem modDom_legs (d : Fin 16) (f : DomOne → DomOne) (s : State) : (modDom d f s).legs = s.legs := rfl
@[simp] theorem modDom_vls (d : Fin 16) (f : DomOne → DomOne) (s : State) : (modDom d f s).vls = s.vls := rfl
@[simp] theorem modDom_vhs (d : Fin 16) (f : DomOne → DomOne) (s : State) : (modDom d f s).vhs = s.vhs := rfl
@[simp] theorem modDom_io (d : Fin 16) (f : DomOne → DomOne) (s : State) : (modDom d f s).io = s.io := rfl
@[simp] theorem modDom_net (d : Fin 16) (f : DomOne → DomOne) (s : State) : (modDom d f s).net = s.net := rfl
@[simp] theorem modDom_acc (d : Fin 16) (f : DomOne → DomOne) (s : State) : (modDom d f s).acc = s.acc := rfl
@[simp] theorem modDom_trl (d : Fin 16) (f : DomOne → DomOne) (s : State) : (modDom d f s).trl = s.trl := rfl
@[simp] theorem modDom_adc (d : Fin 16) (f : DomOne → DomOne) (s : State) : (modDom d f s).adc = s.adc := rfl
@[simp] theorem modDom_seqs (d : Fin 16) (f : DomOne → DomOne) (s : State) : (modDom d f s).seqs = s.seqs := rfl

/-! ### modCmd -/

@[simp] theorem modCmd_pending (f : CmdSt → CmdSt) (s : State) : (modCmd f s).pending = s.pending := rfl
@[simp] theorem modCmd_clk (f : CmdSt → CmdSt) (s : State) : (modCmd f s).clk = s.clk := rfl
@[simp] theorem modCmd_zone (f : CmdSt → CmdSt) (s : State) : (modCmd f s).zone = s.zone := rfl
@[simp] theorem modCmd_ev (f : CmdSt → CmdSt) (s : State) : (modCmd f s).ev = s.ev := rfl
@[simp] theorem modCmd_cmd (f : CmdSt → CmdSt) (s : State) : (modCmd f s).cmd = f s.cmd := rfl
@[simp] theorem modCmd_hosts (f : CmdSt → CmdSt) (s : State) : (modCmd f s).hosts = s.hosts := rfl
@[simp] theorem modCmd_boot (f : CmdSt → CmdSt) (s : State) : (modCmd f s).boot = s.boot := rfl
@[simp] theorem modCmd_plan (f : CmdSt → CmdSt) (s : State) : (modCmd f s).plan = s.plan := rfl
@[simp] theorem modCmd_dom (f : CmdSt → CmdSt) (s : State) : (modCmd f s).dom = s.dom := rfl
@[simp] theorem modCmd_rfx (f : CmdSt → CmdSt) (s : State) : (modCmd f s).rfx = s.rfx := rfl
@[simp] theorem modCmd_alm (f : CmdSt → CmdSt) (s : State) : (modCmd f s).alm = s.alm := rfl
@[simp] theorem modCmd_flt (f : CmdSt → CmdSt) (s : State) : (modCmd f s).flt = s.flt := rfl
@[simp] theorem modCmd_ks (f : CmdSt → CmdSt) (s : State) : (modCmd f s).ks = s.ks := rfl
@[simp] theorem modCmd_nv (f : CmdSt → CmdSt) (s : State) : (modCmd f s).nv = s.nv := rfl
@[simp] theorem modCmd_outs (f : CmdSt → CmdSt) (s : State) : (modCmd f s).outs = s.outs := rfl
@[simp] theorem modCmd_regs (f : CmdSt → CmdSt) (s : State) : (modCmd f s).regs = s.regs := rfl
@[simp] theorem modCmd_prune (f : CmdSt → CmdSt) (s : State) : (modCmd f s).prune = s.prune := rfl
@[simp] theorem modCmd_modb (f : CmdSt → CmdSt) (s : State) : (modCmd f s).modb = s.modb := rfl
@[simp] theorem modCmd_brs (f : CmdSt → CmdSt) (s : State) : (modCmd f s).brs = s.brs := rfl
@[simp] theorem modCmd_legs (f : CmdSt → CmdSt) (s : State) : (modCmd f s).legs = s.legs := rfl
@[simp] theorem modCmd_vls (f : CmdSt → CmdSt) (s : State) : (modCmd f s).vls = s.vls := rfl
@[simp] theorem modCmd_vhs (f : CmdSt → CmdSt) (s : State) : (modCmd f s).vhs = s.vhs := rfl
@[simp] theorem modCmd_io (f : CmdSt → CmdSt) (s : State) : (modCmd f s).io = s.io := rfl
@[simp] theorem modCmd_net (f : CmdSt → CmdSt) (s : State) : (modCmd f s).net = s.net := rfl
@[simp] theorem modCmd_acc (f : CmdSt → CmdSt) (s : State) : (modCmd f s).acc = s.acc := rfl
@[simp] theorem modCmd_trl (f : CmdSt → CmdSt) (s : State) : (modCmd f s).trl = s.trl := rfl
@[simp] theorem modCmd_adc (f : CmdSt → CmdSt) (s : State) : (modCmd f s).adc = s.adc := rfl
@[simp] theorem modCmd_seqs (f : CmdSt → CmdSt) (s : State) : (modCmd f s).seqs = s.seqs := rfl

/-! ### modHost -/

@[simp] theorem modHost_pending (h : Fin 14) (f : HostSt → HostSt) (s : State) : (modHost h f s).pending = s.pending := rfl
@[simp] theorem modHost_clk (h : Fin 14) (f : HostSt → HostSt) (s : State) : (modHost h f s).clk = s.clk := rfl
@[simp] theorem modHost_zone (h : Fin 14) (f : HostSt → HostSt) (s : State) : (modHost h f s).zone = s.zone := rfl
@[simp] theorem modHost_ev (h : Fin 14) (f : HostSt → HostSt) (s : State) : (modHost h f s).ev = s.ev := rfl
@[simp] theorem modHost_cmd (h : Fin 14) (f : HostSt → HostSt) (s : State) : (modHost h f s).cmd = s.cmd := rfl
@[simp] theorem modHost_hosts (h : Fin 14) (f : HostSt → HostSt) (s : State) : (modHost h f s).hosts = s.hosts.set h (f s.hosts[h]) := rfl
@[simp] theorem modHost_boot (h : Fin 14) (f : HostSt → HostSt) (s : State) : (modHost h f s).boot = s.boot := rfl
@[simp] theorem modHost_plan (h : Fin 14) (f : HostSt → HostSt) (s : State) : (modHost h f s).plan = s.plan := rfl
@[simp] theorem modHost_dom (h : Fin 14) (f : HostSt → HostSt) (s : State) : (modHost h f s).dom = s.dom := rfl
@[simp] theorem modHost_rfx (h : Fin 14) (f : HostSt → HostSt) (s : State) : (modHost h f s).rfx = s.rfx := rfl
@[simp] theorem modHost_alm (h : Fin 14) (f : HostSt → HostSt) (s : State) : (modHost h f s).alm = s.alm := rfl
@[simp] theorem modHost_flt (h : Fin 14) (f : HostSt → HostSt) (s : State) : (modHost h f s).flt = s.flt := rfl
@[simp] theorem modHost_ks (h : Fin 14) (f : HostSt → HostSt) (s : State) : (modHost h f s).ks = s.ks := rfl
@[simp] theorem modHost_nv (h : Fin 14) (f : HostSt → HostSt) (s : State) : (modHost h f s).nv = s.nv := rfl
@[simp] theorem modHost_outs (h : Fin 14) (f : HostSt → HostSt) (s : State) : (modHost h f s).outs = s.outs := rfl
@[simp] theorem modHost_regs (h : Fin 14) (f : HostSt → HostSt) (s : State) : (modHost h f s).regs = s.regs := rfl
@[simp] theorem modHost_prune (h : Fin 14) (f : HostSt → HostSt) (s : State) : (modHost h f s).prune = s.prune := rfl
@[simp] theorem modHost_modb (h : Fin 14) (f : HostSt → HostSt) (s : State) : (modHost h f s).modb = s.modb := rfl
@[simp] theorem modHost_brs (h : Fin 14) (f : HostSt → HostSt) (s : State) : (modHost h f s).brs = s.brs := rfl
@[simp] theorem modHost_legs (h : Fin 14) (f : HostSt → HostSt) (s : State) : (modHost h f s).legs = s.legs := rfl
@[simp] theorem modHost_vls (h : Fin 14) (f : HostSt → HostSt) (s : State) : (modHost h f s).vls = s.vls := rfl
@[simp] theorem modHost_vhs (h : Fin 14) (f : HostSt → HostSt) (s : State) : (modHost h f s).vhs = s.vhs := rfl
@[simp] theorem modHost_io (h : Fin 14) (f : HostSt → HostSt) (s : State) : (modHost h f s).io = s.io := rfl
@[simp] theorem modHost_net (h : Fin 14) (f : HostSt → HostSt) (s : State) : (modHost h f s).net = s.net := rfl
@[simp] theorem modHost_acc (h : Fin 14) (f : HostSt → HostSt) (s : State) : (modHost h f s).acc = s.acc := rfl
@[simp] theorem modHost_trl (h : Fin 14) (f : HostSt → HostSt) (s : State) : (modHost h f s).trl = s.trl := rfl
@[simp] theorem modHost_adc (h : Fin 14) (f : HostSt → HostSt) (s : State) : (modHost h f s).adc = s.adc := rfl
@[simp] theorem modHost_seqs (h : Fin 14) (f : HostSt → HostSt) (s : State) : (modHost h f s).seqs = s.seqs := rfl

/-! ### modRfx -/

@[simp] theorem modRfx_pending (i : Fin 128) (f : RfxEntry → RfxEntry) (s : State) : (modRfx i f s).pending = s.pending := rfl
@[simp] theorem modRfx_clk (i : Fin 128) (f : RfxEntry → RfxEntry) (s : State) : (modRfx i f s).clk = s.clk := rfl
@[simp] theorem modRfx_zone (i : Fin 128) (f : RfxEntry → RfxEntry) (s : State) : (modRfx i f s).zone = s.zone := rfl
@[simp] theorem modRfx_ev (i : Fin 128) (f : RfxEntry → RfxEntry) (s : State) : (modRfx i f s).ev = s.ev := rfl
@[simp] theorem modRfx_cmd (i : Fin 128) (f : RfxEntry → RfxEntry) (s : State) : (modRfx i f s).cmd = s.cmd := rfl
@[simp] theorem modRfx_hosts (i : Fin 128) (f : RfxEntry → RfxEntry) (s : State) : (modRfx i f s).hosts = s.hosts := rfl
@[simp] theorem modRfx_boot (i : Fin 128) (f : RfxEntry → RfxEntry) (s : State) : (modRfx i f s).boot = s.boot := rfl
@[simp] theorem modRfx_plan (i : Fin 128) (f : RfxEntry → RfxEntry) (s : State) : (modRfx i f s).plan = s.plan := rfl
@[simp] theorem modRfx_dom (i : Fin 128) (f : RfxEntry → RfxEntry) (s : State) : (modRfx i f s).dom = s.dom := rfl
@[simp] theorem modRfx_rfx (i : Fin 128) (f : RfxEntry → RfxEntry) (s : State) : (modRfx i f s).rfx = { s.rfx with entries := s.rfx.entries.set i (f s.rfx.entries[i]) } := rfl
@[simp] theorem modRfx_alm (i : Fin 128) (f : RfxEntry → RfxEntry) (s : State) : (modRfx i f s).alm = s.alm := rfl
@[simp] theorem modRfx_flt (i : Fin 128) (f : RfxEntry → RfxEntry) (s : State) : (modRfx i f s).flt = s.flt := rfl
@[simp] theorem modRfx_ks (i : Fin 128) (f : RfxEntry → RfxEntry) (s : State) : (modRfx i f s).ks = s.ks := rfl
@[simp] theorem modRfx_nv (i : Fin 128) (f : RfxEntry → RfxEntry) (s : State) : (modRfx i f s).nv = s.nv := rfl
@[simp] theorem modRfx_outs (i : Fin 128) (f : RfxEntry → RfxEntry) (s : State) : (modRfx i f s).outs = s.outs := rfl
@[simp] theorem modRfx_regs (i : Fin 128) (f : RfxEntry → RfxEntry) (s : State) : (modRfx i f s).regs = s.regs := rfl
@[simp] theorem modRfx_prune (i : Fin 128) (f : RfxEntry → RfxEntry) (s : State) : (modRfx i f s).prune = s.prune := rfl
@[simp] theorem modRfx_modb (i : Fin 128) (f : RfxEntry → RfxEntry) (s : State) : (modRfx i f s).modb = s.modb := rfl
@[simp] theorem modRfx_brs (i : Fin 128) (f : RfxEntry → RfxEntry) (s : State) : (modRfx i f s).brs = s.brs := rfl
@[simp] theorem modRfx_legs (i : Fin 128) (f : RfxEntry → RfxEntry) (s : State) : (modRfx i f s).legs = s.legs := rfl
@[simp] theorem modRfx_vls (i : Fin 128) (f : RfxEntry → RfxEntry) (s : State) : (modRfx i f s).vls = s.vls := rfl
@[simp] theorem modRfx_vhs (i : Fin 128) (f : RfxEntry → RfxEntry) (s : State) : (modRfx i f s).vhs = s.vhs := rfl
@[simp] theorem modRfx_io (i : Fin 128) (f : RfxEntry → RfxEntry) (s : State) : (modRfx i f s).io = s.io := rfl
@[simp] theorem modRfx_net (i : Fin 128) (f : RfxEntry → RfxEntry) (s : State) : (modRfx i f s).net = s.net := rfl
@[simp] theorem modRfx_acc (i : Fin 128) (f : RfxEntry → RfxEntry) (s : State) : (modRfx i f s).acc = s.acc := rfl
@[simp] theorem modRfx_trl (i : Fin 128) (f : RfxEntry → RfxEntry) (s : State) : (modRfx i f s).trl = s.trl := rfl
@[simp] theorem modRfx_adc (i : Fin 128) (f : RfxEntry → RfxEntry) (s : State) : (modRfx i f s).adc = s.adc := rfl
@[simp] theorem modRfx_seqs (i : Fin 128) (f : RfxEntry → RfxEntry) (s : State) : (modRfx i f s).seqs = s.seqs := rfl

/-! ### modSlot -/

@[simp] theorem modSlot_pending (k : Fin 64) (f : KeySlot → KeySlot) (s : State) : (modSlot k f s).pending = s.pending := rfl
@[simp] theorem modSlot_clk (k : Fin 64) (f : KeySlot → KeySlot) (s : State) : (modSlot k f s).clk = s.clk := rfl
@[simp] theorem modSlot_zone (k : Fin 64) (f : KeySlot → KeySlot) (s : State) : (modSlot k f s).zone = s.zone := rfl
@[simp] theorem modSlot_ev (k : Fin 64) (f : KeySlot → KeySlot) (s : State) : (modSlot k f s).ev = s.ev := rfl
@[simp] theorem modSlot_cmd (k : Fin 64) (f : KeySlot → KeySlot) (s : State) : (modSlot k f s).cmd = s.cmd := rfl
@[simp] theorem modSlot_hosts (k : Fin 64) (f : KeySlot → KeySlot) (s : State) : (modSlot k f s).hosts = s.hosts := rfl
@[simp] theorem modSlot_boot (k : Fin 64) (f : KeySlot → KeySlot) (s : State) : (modSlot k f s).boot = s.boot := rfl
@[simp] theorem modSlot_plan (k : Fin 64) (f : KeySlot → KeySlot) (s : State) : (modSlot k f s).plan = s.plan := rfl
@[simp] theorem modSlot_dom (k : Fin 64) (f : KeySlot → KeySlot) (s : State) : (modSlot k f s).dom = s.dom := rfl
@[simp] theorem modSlot_rfx (k : Fin 64) (f : KeySlot → KeySlot) (s : State) : (modSlot k f s).rfx = s.rfx := rfl
@[simp] theorem modSlot_alm (k : Fin 64) (f : KeySlot → KeySlot) (s : State) : (modSlot k f s).alm = s.alm := rfl
@[simp] theorem modSlot_flt (k : Fin 64) (f : KeySlot → KeySlot) (s : State) : (modSlot k f s).flt = s.flt := rfl
@[simp] theorem modSlot_ks (k : Fin 64) (f : KeySlot → KeySlot) (s : State) : (modSlot k f s).ks = { s.ks with slots := s.ks.slots.set k (f s.ks.slots[k]) } := rfl
@[simp] theorem modSlot_nv (k : Fin 64) (f : KeySlot → KeySlot) (s : State) : (modSlot k f s).nv = s.nv := rfl
@[simp] theorem modSlot_outs (k : Fin 64) (f : KeySlot → KeySlot) (s : State) : (modSlot k f s).outs = s.outs := rfl
@[simp] theorem modSlot_regs (k : Fin 64) (f : KeySlot → KeySlot) (s : State) : (modSlot k f s).regs = s.regs := rfl
@[simp] theorem modSlot_prune (k : Fin 64) (f : KeySlot → KeySlot) (s : State) : (modSlot k f s).prune = s.prune := rfl
@[simp] theorem modSlot_modb (k : Fin 64) (f : KeySlot → KeySlot) (s : State) : (modSlot k f s).modb = s.modb := rfl
@[simp] theorem modSlot_brs (k : Fin 64) (f : KeySlot → KeySlot) (s : State) : (modSlot k f s).brs = s.brs := rfl
@[simp] theorem modSlot_legs (k : Fin 64) (f : KeySlot → KeySlot) (s : State) : (modSlot k f s).legs = s.legs := rfl
@[simp] theorem modSlot_vls (k : Fin 64) (f : KeySlot → KeySlot) (s : State) : (modSlot k f s).vls = s.vls := rfl
@[simp] theorem modSlot_vhs (k : Fin 64) (f : KeySlot → KeySlot) (s : State) : (modSlot k f s).vhs = s.vhs := rfl
@[simp] theorem modSlot_io (k : Fin 64) (f : KeySlot → KeySlot) (s : State) : (modSlot k f s).io = s.io := rfl
@[simp] theorem modSlot_net (k : Fin 64) (f : KeySlot → KeySlot) (s : State) : (modSlot k f s).net = s.net := rfl
@[simp] theorem modSlot_acc (k : Fin 64) (f : KeySlot → KeySlot) (s : State) : (modSlot k f s).acc = s.acc := rfl
@[simp] theorem modSlot_trl (k : Fin 64) (f : KeySlot → KeySlot) (s : State) : (modSlot k f s).trl = s.trl := rfl
@[simp] theorem modSlot_adc (k : Fin 64) (f : KeySlot → KeySlot) (s : State) : (modSlot k f s).adc = s.adc := rfl
@[simp] theorem modSlot_seqs (k : Fin 64) (f : KeySlot → KeySlot) (s : State) : (modSlot k f s).seqs = s.seqs := rfl

/-! ### modBlk -/

@[simp] theorem modBlk_pending (b : Fin 25) (f : BlkSt → BlkSt) (s : State) : (modBlk b f s).pending = s.pending := rfl
@[simp] theorem modBlk_clk (b : Fin 25) (f : BlkSt → BlkSt) (s : State) : (modBlk b f s).clk = s.clk := rfl
@[simp] theorem modBlk_zone (b : Fin 25) (f : BlkSt → BlkSt) (s : State) : (modBlk b f s).zone = s.zone := rfl
@[simp] theorem modBlk_ev (b : Fin 25) (f : BlkSt → BlkSt) (s : State) : (modBlk b f s).ev = s.ev := rfl
@[simp] theorem modBlk_cmd (b : Fin 25) (f : BlkSt → BlkSt) (s : State) : (modBlk b f s).cmd = s.cmd := rfl
@[simp] theorem modBlk_hosts (b : Fin 25) (f : BlkSt → BlkSt) (s : State) : (modBlk b f s).hosts = s.hosts := rfl
@[simp] theorem modBlk_boot (b : Fin 25) (f : BlkSt → BlkSt) (s : State) : (modBlk b f s).boot = s.boot := rfl
@[simp] theorem modBlk_plan (b : Fin 25) (f : BlkSt → BlkSt) (s : State) : (modBlk b f s).plan = s.plan := rfl
@[simp] theorem modBlk_dom (b : Fin 25) (f : BlkSt → BlkSt) (s : State) : (modBlk b f s).dom = s.dom := rfl
@[simp] theorem modBlk_rfx (b : Fin 25) (f : BlkSt → BlkSt) (s : State) : (modBlk b f s).rfx = s.rfx := rfl
@[simp] theorem modBlk_alm (b : Fin 25) (f : BlkSt → BlkSt) (s : State) : (modBlk b f s).alm = s.alm := rfl
@[simp] theorem modBlk_flt (b : Fin 25) (f : BlkSt → BlkSt) (s : State) : (modBlk b f s).flt = { s.flt with blocks := s.flt.blocks.set b (f s.flt.blocks[b]) } := rfl
@[simp] theorem modBlk_ks (b : Fin 25) (f : BlkSt → BlkSt) (s : State) : (modBlk b f s).ks = s.ks := rfl
@[simp] theorem modBlk_nv (b : Fin 25) (f : BlkSt → BlkSt) (s : State) : (modBlk b f s).nv = s.nv := rfl
@[simp] theorem modBlk_outs (b : Fin 25) (f : BlkSt → BlkSt) (s : State) : (modBlk b f s).outs = s.outs := rfl
@[simp] theorem modBlk_regs (b : Fin 25) (f : BlkSt → BlkSt) (s : State) : (modBlk b f s).regs = s.regs := rfl
@[simp] theorem modBlk_prune (b : Fin 25) (f : BlkSt → BlkSt) (s : State) : (modBlk b f s).prune = s.prune := rfl
@[simp] theorem modBlk_modb (b : Fin 25) (f : BlkSt → BlkSt) (s : State) : (modBlk b f s).modb = s.modb := rfl
@[simp] theorem modBlk_brs (b : Fin 25) (f : BlkSt → BlkSt) (s : State) : (modBlk b f s).brs = s.brs := rfl
@[simp] theorem modBlk_legs (b : Fin 25) (f : BlkSt → BlkSt) (s : State) : (modBlk b f s).legs = s.legs := rfl
@[simp] theorem modBlk_vls (b : Fin 25) (f : BlkSt → BlkSt) (s : State) : (modBlk b f s).vls = s.vls := rfl
@[simp] theorem modBlk_vhs (b : Fin 25) (f : BlkSt → BlkSt) (s : State) : (modBlk b f s).vhs = s.vhs := rfl
@[simp] theorem modBlk_io (b : Fin 25) (f : BlkSt → BlkSt) (s : State) : (modBlk b f s).io = s.io := rfl
@[simp] theorem modBlk_net (b : Fin 25) (f : BlkSt → BlkSt) (s : State) : (modBlk b f s).net = s.net := rfl
@[simp] theorem modBlk_acc (b : Fin 25) (f : BlkSt → BlkSt) (s : State) : (modBlk b f s).acc = s.acc := rfl
@[simp] theorem modBlk_trl (b : Fin 25) (f : BlkSt → BlkSt) (s : State) : (modBlk b f s).trl = s.trl := rfl
@[simp] theorem modBlk_adc (b : Fin 25) (f : BlkSt → BlkSt) (s : State) : (modBlk b f s).adc = s.adc := rfl
@[simp] theorem modBlk_seqs (b : Fin 25) (f : BlkSt → BlkSt) (s : State) : (modBlk b f s).seqs = s.seqs := rfl

/-! ### modAlm -/

@[simp] theorem modAlm_pending (f : AlmSt → AlmSt) (s : State) : (modAlm f s).pending = s.pending := rfl
@[simp] theorem modAlm_clk (f : AlmSt → AlmSt) (s : State) : (modAlm f s).clk = s.clk := rfl
@[simp] theorem modAlm_zone (f : AlmSt → AlmSt) (s : State) : (modAlm f s).zone = s.zone := rfl
@[simp] theorem modAlm_ev (f : AlmSt → AlmSt) (s : State) : (modAlm f s).ev = s.ev := rfl
@[simp] theorem modAlm_cmd (f : AlmSt → AlmSt) (s : State) : (modAlm f s).cmd = s.cmd := rfl
@[simp] theorem modAlm_hosts (f : AlmSt → AlmSt) (s : State) : (modAlm f s).hosts = s.hosts := rfl
@[simp] theorem modAlm_boot (f : AlmSt → AlmSt) (s : State) : (modAlm f s).boot = s.boot := rfl
@[simp] theorem modAlm_plan (f : AlmSt → AlmSt) (s : State) : (modAlm f s).plan = s.plan := rfl
@[simp] theorem modAlm_dom (f : AlmSt → AlmSt) (s : State) : (modAlm f s).dom = s.dom := rfl
@[simp] theorem modAlm_rfx (f : AlmSt → AlmSt) (s : State) : (modAlm f s).rfx = s.rfx := rfl
@[simp] theorem modAlm_alm (f : AlmSt → AlmSt) (s : State) : (modAlm f s).alm = f s.alm := rfl
@[simp] theorem modAlm_flt (f : AlmSt → AlmSt) (s : State) : (modAlm f s).flt = s.flt := rfl
@[simp] theorem modAlm_ks (f : AlmSt → AlmSt) (s : State) : (modAlm f s).ks = s.ks := rfl
@[simp] theorem modAlm_nv (f : AlmSt → AlmSt) (s : State) : (modAlm f s).nv = s.nv := rfl
@[simp] theorem modAlm_outs (f : AlmSt → AlmSt) (s : State) : (modAlm f s).outs = s.outs := rfl
@[simp] theorem modAlm_regs (f : AlmSt → AlmSt) (s : State) : (modAlm f s).regs = s.regs := rfl
@[simp] theorem modAlm_prune (f : AlmSt → AlmSt) (s : State) : (modAlm f s).prune = s.prune := rfl
@[simp] theorem modAlm_modb (f : AlmSt → AlmSt) (s : State) : (modAlm f s).modb = s.modb := rfl
@[simp] theorem modAlm_brs (f : AlmSt → AlmSt) (s : State) : (modAlm f s).brs = s.brs := rfl
@[simp] theorem modAlm_legs (f : AlmSt → AlmSt) (s : State) : (modAlm f s).legs = s.legs := rfl
@[simp] theorem modAlm_vls (f : AlmSt → AlmSt) (s : State) : (modAlm f s).vls = s.vls := rfl
@[simp] theorem modAlm_vhs (f : AlmSt → AlmSt) (s : State) : (modAlm f s).vhs = s.vhs := rfl
@[simp] theorem modAlm_io (f : AlmSt → AlmSt) (s : State) : (modAlm f s).io = s.io := rfl
@[simp] theorem modAlm_net (f : AlmSt → AlmSt) (s : State) : (modAlm f s).net = s.net := rfl
@[simp] theorem modAlm_acc (f : AlmSt → AlmSt) (s : State) : (modAlm f s).acc = s.acc := rfl
@[simp] theorem modAlm_trl (f : AlmSt → AlmSt) (s : State) : (modAlm f s).trl = s.trl := rfl
@[simp] theorem modAlm_adc (f : AlmSt → AlmSt) (s : State) : (modAlm f s).adc = s.adc := rfl
@[simp] theorem modAlm_seqs (f : AlmSt → AlmSt) (s : State) : (modAlm f s).seqs = s.seqs := rfl

/-! ### modTrl -/

@[simp] theorem modTrl_pending (f : TrlSt → TrlSt) (s : State) : (modTrl f s).pending = s.pending := rfl
@[simp] theorem modTrl_clk (f : TrlSt → TrlSt) (s : State) : (modTrl f s).clk = s.clk := rfl
@[simp] theorem modTrl_zone (f : TrlSt → TrlSt) (s : State) : (modTrl f s).zone = s.zone := rfl
@[simp] theorem modTrl_ev (f : TrlSt → TrlSt) (s : State) : (modTrl f s).ev = s.ev := rfl
@[simp] theorem modTrl_cmd (f : TrlSt → TrlSt) (s : State) : (modTrl f s).cmd = s.cmd := rfl
@[simp] theorem modTrl_hosts (f : TrlSt → TrlSt) (s : State) : (modTrl f s).hosts = s.hosts := rfl
@[simp] theorem modTrl_boot (f : TrlSt → TrlSt) (s : State) : (modTrl f s).boot = s.boot := rfl
@[simp] theorem modTrl_plan (f : TrlSt → TrlSt) (s : State) : (modTrl f s).plan = s.plan := rfl
@[simp] theorem modTrl_dom (f : TrlSt → TrlSt) (s : State) : (modTrl f s).dom = s.dom := rfl
@[simp] theorem modTrl_rfx (f : TrlSt → TrlSt) (s : State) : (modTrl f s).rfx = s.rfx := rfl
@[simp] theorem modTrl_alm (f : TrlSt → TrlSt) (s : State) : (modTrl f s).alm = s.alm := rfl
@[simp] theorem modTrl_flt (f : TrlSt → TrlSt) (s : State) : (modTrl f s).flt = s.flt := rfl
@[simp] theorem modTrl_ks (f : TrlSt → TrlSt) (s : State) : (modTrl f s).ks = s.ks := rfl
@[simp] theorem modTrl_nv (f : TrlSt → TrlSt) (s : State) : (modTrl f s).nv = s.nv := rfl
@[simp] theorem modTrl_outs (f : TrlSt → TrlSt) (s : State) : (modTrl f s).outs = s.outs := rfl
@[simp] theorem modTrl_regs (f : TrlSt → TrlSt) (s : State) : (modTrl f s).regs = s.regs := rfl
@[simp] theorem modTrl_prune (f : TrlSt → TrlSt) (s : State) : (modTrl f s).prune = s.prune := rfl
@[simp] theorem modTrl_modb (f : TrlSt → TrlSt) (s : State) : (modTrl f s).modb = s.modb := rfl
@[simp] theorem modTrl_brs (f : TrlSt → TrlSt) (s : State) : (modTrl f s).brs = s.brs := rfl
@[simp] theorem modTrl_legs (f : TrlSt → TrlSt) (s : State) : (modTrl f s).legs = s.legs := rfl
@[simp] theorem modTrl_vls (f : TrlSt → TrlSt) (s : State) : (modTrl f s).vls = s.vls := rfl
@[simp] theorem modTrl_vhs (f : TrlSt → TrlSt) (s : State) : (modTrl f s).vhs = s.vhs := rfl
@[simp] theorem modTrl_io (f : TrlSt → TrlSt) (s : State) : (modTrl f s).io = s.io := rfl
@[simp] theorem modTrl_net (f : TrlSt → TrlSt) (s : State) : (modTrl f s).net = s.net := rfl
@[simp] theorem modTrl_acc (f : TrlSt → TrlSt) (s : State) : (modTrl f s).acc = s.acc := rfl
@[simp] theorem modTrl_trl (f : TrlSt → TrlSt) (s : State) : (modTrl f s).trl = f s.trl := rfl
@[simp] theorem modTrl_adc (f : TrlSt → TrlSt) (s : State) : (modTrl f s).adc = s.adc := rfl
@[simp] theorem modTrl_seqs (f : TrlSt → TrlSt) (s : State) : (modTrl f s).seqs = s.seqs := rfl

/-! ### modAcc -/

@[simp] theorem modAcc_pending (f : AccSt → AccSt) (s : State) : (modAcc f s).pending = s.pending := rfl
@[simp] theorem modAcc_clk (f : AccSt → AccSt) (s : State) : (modAcc f s).clk = s.clk := rfl
@[simp] theorem modAcc_zone (f : AccSt → AccSt) (s : State) : (modAcc f s).zone = s.zone := rfl
@[simp] theorem modAcc_ev (f : AccSt → AccSt) (s : State) : (modAcc f s).ev = s.ev := rfl
@[simp] theorem modAcc_cmd (f : AccSt → AccSt) (s : State) : (modAcc f s).cmd = s.cmd := rfl
@[simp] theorem modAcc_hosts (f : AccSt → AccSt) (s : State) : (modAcc f s).hosts = s.hosts := rfl
@[simp] theorem modAcc_boot (f : AccSt → AccSt) (s : State) : (modAcc f s).boot = s.boot := rfl
@[simp] theorem modAcc_plan (f : AccSt → AccSt) (s : State) : (modAcc f s).plan = s.plan := rfl
@[simp] theorem modAcc_dom (f : AccSt → AccSt) (s : State) : (modAcc f s).dom = s.dom := rfl
@[simp] theorem modAcc_rfx (f : AccSt → AccSt) (s : State) : (modAcc f s).rfx = s.rfx := rfl
@[simp] theorem modAcc_alm (f : AccSt → AccSt) (s : State) : (modAcc f s).alm = s.alm := rfl
@[simp] theorem modAcc_flt (f : AccSt → AccSt) (s : State) : (modAcc f s).flt = s.flt := rfl
@[simp] theorem modAcc_ks (f : AccSt → AccSt) (s : State) : (modAcc f s).ks = s.ks := rfl
@[simp] theorem modAcc_nv (f : AccSt → AccSt) (s : State) : (modAcc f s).nv = s.nv := rfl
@[simp] theorem modAcc_outs (f : AccSt → AccSt) (s : State) : (modAcc f s).outs = s.outs := rfl
@[simp] theorem modAcc_regs (f : AccSt → AccSt) (s : State) : (modAcc f s).regs = s.regs := rfl
@[simp] theorem modAcc_prune (f : AccSt → AccSt) (s : State) : (modAcc f s).prune = s.prune := rfl
@[simp] theorem modAcc_modb (f : AccSt → AccSt) (s : State) : (modAcc f s).modb = s.modb := rfl
@[simp] theorem modAcc_brs (f : AccSt → AccSt) (s : State) : (modAcc f s).brs = s.brs := rfl
@[simp] theorem modAcc_legs (f : AccSt → AccSt) (s : State) : (modAcc f s).legs = s.legs := rfl
@[simp] theorem modAcc_vls (f : AccSt → AccSt) (s : State) : (modAcc f s).vls = s.vls := rfl
@[simp] theorem modAcc_vhs (f : AccSt → AccSt) (s : State) : (modAcc f s).vhs = s.vhs := rfl
@[simp] theorem modAcc_io (f : AccSt → AccSt) (s : State) : (modAcc f s).io = s.io := rfl
@[simp] theorem modAcc_net (f : AccSt → AccSt) (s : State) : (modAcc f s).net = s.net := rfl
@[simp] theorem modAcc_acc (f : AccSt → AccSt) (s : State) : (modAcc f s).acc = f s.acc := rfl
@[simp] theorem modAcc_trl (f : AccSt → AccSt) (s : State) : (modAcc f s).trl = s.trl := rfl
@[simp] theorem modAcc_adc (f : AccSt → AccSt) (s : State) : (modAcc f s).adc = s.adc := rfl
@[simp] theorem modAcc_seqs (f : AccSt → AccSt) (s : State) : (modAcc f s).seqs = s.seqs := rfl

/-! ### modKs -/

@[simp] theorem modKs_pending (f : KeySt → KeySt) (s : State) : (modKs f s).pending = s.pending := rfl
@[simp] theorem modKs_clk (f : KeySt → KeySt) (s : State) : (modKs f s).clk = s.clk := rfl
@[simp] theorem modKs_zone (f : KeySt → KeySt) (s : State) : (modKs f s).zone = s.zone := rfl
@[simp] theorem modKs_ev (f : KeySt → KeySt) (s : State) : (modKs f s).ev = s.ev := rfl
@[simp] theorem modKs_cmd (f : KeySt → KeySt) (s : State) : (modKs f s).cmd = s.cmd := rfl
@[simp] theorem modKs_hosts (f : KeySt → KeySt) (s : State) : (modKs f s).hosts = s.hosts := rfl
@[simp] theorem modKs_boot (f : KeySt → KeySt) (s : State) : (modKs f s).boot = s.boot := rfl
@[simp] theorem modKs_plan (f : KeySt → KeySt) (s : State) : (modKs f s).plan = s.plan := rfl
@[simp] theorem modKs_dom (f : KeySt → KeySt) (s : State) : (modKs f s).dom = s.dom := rfl
@[simp] theorem modKs_rfx (f : KeySt → KeySt) (s : State) : (modKs f s).rfx = s.rfx := rfl
@[simp] theorem modKs_alm (f : KeySt → KeySt) (s : State) : (modKs f s).alm = s.alm := rfl
@[simp] theorem modKs_flt (f : KeySt → KeySt) (s : State) : (modKs f s).flt = s.flt := rfl
@[simp] theorem modKs_ks (f : KeySt → KeySt) (s : State) : (modKs f s).ks = f s.ks := rfl
@[simp] theorem modKs_nv (f : KeySt → KeySt) (s : State) : (modKs f s).nv = s.nv := rfl
@[simp] theorem modKs_outs (f : KeySt → KeySt) (s : State) : (modKs f s).outs = s.outs := rfl
@[simp] theorem modKs_regs (f : KeySt → KeySt) (s : State) : (modKs f s).regs = s.regs := rfl
@[simp] theorem modKs_prune (f : KeySt → KeySt) (s : State) : (modKs f s).prune = s.prune := rfl
@[simp] theorem modKs_modb (f : KeySt → KeySt) (s : State) : (modKs f s).modb = s.modb := rfl
@[simp] theorem modKs_brs (f : KeySt → KeySt) (s : State) : (modKs f s).brs = s.brs := rfl
@[simp] theorem modKs_legs (f : KeySt → KeySt) (s : State) : (modKs f s).legs = s.legs := rfl
@[simp] theorem modKs_vls (f : KeySt → KeySt) (s : State) : (modKs f s).vls = s.vls := rfl
@[simp] theorem modKs_vhs (f : KeySt → KeySt) (s : State) : (modKs f s).vhs = s.vhs := rfl
@[simp] theorem modKs_io (f : KeySt → KeySt) (s : State) : (modKs f s).io = s.io := rfl
@[simp] theorem modKs_net (f : KeySt → KeySt) (s : State) : (modKs f s).net = s.net := rfl
@[simp] theorem modKs_acc (f : KeySt → KeySt) (s : State) : (modKs f s).acc = s.acc := rfl
@[simp] theorem modKs_trl (f : KeySt → KeySt) (s : State) : (modKs f s).trl = s.trl := rfl
@[simp] theorem modKs_adc (f : KeySt → KeySt) (s : State) : (modKs f s).adc = s.adc := rfl
@[simp] theorem modKs_seqs (f : KeySt → KeySt) (s : State) : (modKs f s).seqs = s.seqs := rfl

/-! ### modNet -/

@[simp] theorem modNet_pending (f : NetSts → NetSts) (s : State) : (modNet f s).pending = s.pending := rfl
@[simp] theorem modNet_clk (f : NetSts → NetSts) (s : State) : (modNet f s).clk = s.clk := rfl
@[simp] theorem modNet_zone (f : NetSts → NetSts) (s : State) : (modNet f s).zone = s.zone := rfl
@[simp] theorem modNet_ev (f : NetSts → NetSts) (s : State) : (modNet f s).ev = s.ev := rfl
@[simp] theorem modNet_cmd (f : NetSts → NetSts) (s : State) : (modNet f s).cmd = s.cmd := rfl
@[simp] theorem modNet_hosts (f : NetSts → NetSts) (s : State) : (modNet f s).hosts = s.hosts := rfl
@[simp] theorem modNet_boot (f : NetSts → NetSts) (s : State) : (modNet f s).boot = s.boot := rfl
@[simp] theorem modNet_plan (f : NetSts → NetSts) (s : State) : (modNet f s).plan = s.plan := rfl
@[simp] theorem modNet_dom (f : NetSts → NetSts) (s : State) : (modNet f s).dom = s.dom := rfl
@[simp] theorem modNet_rfx (f : NetSts → NetSts) (s : State) : (modNet f s).rfx = s.rfx := rfl
@[simp] theorem modNet_alm (f : NetSts → NetSts) (s : State) : (modNet f s).alm = s.alm := rfl
@[simp] theorem modNet_flt (f : NetSts → NetSts) (s : State) : (modNet f s).flt = s.flt := rfl
@[simp] theorem modNet_ks (f : NetSts → NetSts) (s : State) : (modNet f s).ks = s.ks := rfl
@[simp] theorem modNet_nv (f : NetSts → NetSts) (s : State) : (modNet f s).nv = s.nv := rfl
@[simp] theorem modNet_outs (f : NetSts → NetSts) (s : State) : (modNet f s).outs = s.outs := rfl
@[simp] theorem modNet_regs (f : NetSts → NetSts) (s : State) : (modNet f s).regs = s.regs := rfl
@[simp] theorem modNet_prune (f : NetSts → NetSts) (s : State) : (modNet f s).prune = s.prune := rfl
@[simp] theorem modNet_modb (f : NetSts → NetSts) (s : State) : (modNet f s).modb = s.modb := rfl
@[simp] theorem modNet_brs (f : NetSts → NetSts) (s : State) : (modNet f s).brs = s.brs := rfl
@[simp] theorem modNet_legs (f : NetSts → NetSts) (s : State) : (modNet f s).legs = s.legs := rfl
@[simp] theorem modNet_vls (f : NetSts → NetSts) (s : State) : (modNet f s).vls = s.vls := rfl
@[simp] theorem modNet_vhs (f : NetSts → NetSts) (s : State) : (modNet f s).vhs = s.vhs := rfl
@[simp] theorem modNet_io (f : NetSts → NetSts) (s : State) : (modNet f s).io = s.io := rfl
@[simp] theorem modNet_net (f : NetSts → NetSts) (s : State) : (modNet f s).net = f s.net := rfl
@[simp] theorem modNet_acc (f : NetSts → NetSts) (s : State) : (modNet f s).acc = s.acc := rfl
@[simp] theorem modNet_trl (f : NetSts → NetSts) (s : State) : (modNet f s).trl = s.trl := rfl
@[simp] theorem modNet_adc (f : NetSts → NetSts) (s : State) : (modNet f s).adc = s.adc := rfl
@[simp] theorem modNet_seqs (f : NetSts → NetSts) (s : State) : (modNet f s).seqs = s.seqs := rfl

/-! ### modZone -/

@[simp] theorem modZone_pending (f : ZoneSt → ZoneSt) (s : State) : (modZone f s).pending = s.pending := rfl
@[simp] theorem modZone_clk (f : ZoneSt → ZoneSt) (s : State) : (modZone f s).clk = s.clk := rfl
@[simp] theorem modZone_zone (f : ZoneSt → ZoneSt) (s : State) : (modZone f s).zone = f s.zone := rfl
@[simp] theorem modZone_ev (f : ZoneSt → ZoneSt) (s : State) : (modZone f s).ev = s.ev := rfl
@[simp] theorem modZone_cmd (f : ZoneSt → ZoneSt) (s : State) : (modZone f s).cmd = s.cmd := rfl
@[simp] theorem modZone_hosts (f : ZoneSt → ZoneSt) (s : State) : (modZone f s).hosts = s.hosts := rfl
@[simp] theorem modZone_boot (f : ZoneSt → ZoneSt) (s : State) : (modZone f s).boot = s.boot := rfl
@[simp] theorem modZone_plan (f : ZoneSt → ZoneSt) (s : State) : (modZone f s).plan = s.plan := rfl
@[simp] theorem modZone_dom (f : ZoneSt → ZoneSt) (s : State) : (modZone f s).dom = s.dom := rfl
@[simp] theorem modZone_rfx (f : ZoneSt → ZoneSt) (s : State) : (modZone f s).rfx = s.rfx := rfl
@[simp] theorem modZone_alm (f : ZoneSt → ZoneSt) (s : State) : (modZone f s).alm = s.alm := rfl
@[simp] theorem modZone_flt (f : ZoneSt → ZoneSt) (s : State) : (modZone f s).flt = s.flt := rfl
@[simp] theorem modZone_ks (f : ZoneSt → ZoneSt) (s : State) : (modZone f s).ks = s.ks := rfl
@[simp] theorem modZone_nv (f : ZoneSt → ZoneSt) (s : State) : (modZone f s).nv = s.nv := rfl
@[simp] theorem modZone_outs (f : ZoneSt → ZoneSt) (s : State) : (modZone f s).outs = s.outs := rfl
@[simp] theorem modZone_regs (f : ZoneSt → ZoneSt) (s : State) : (modZone f s).regs = s.regs := rfl
@[simp] theorem modZone_prune (f : ZoneSt → ZoneSt) (s : State) : (modZone f s).prune = s.prune := rfl
@[simp] theorem modZone_modb (f : ZoneSt → ZoneSt) (s : State) : (modZone f s).modb = s.modb := rfl
@[simp] theorem modZone_brs (f : ZoneSt → ZoneSt) (s : State) : (modZone f s).brs = s.brs := rfl
@[simp] theorem modZone_legs (f : ZoneSt → ZoneSt) (s : State) : (modZone f s).legs = s.legs := rfl
@[simp] theorem modZone_vls (f : ZoneSt → ZoneSt) (s : State) : (modZone f s).vls = s.vls := rfl
@[simp] theorem modZone_vhs (f : ZoneSt → ZoneSt) (s : State) : (modZone f s).vhs = s.vhs := rfl
@[simp] theorem modZone_io (f : ZoneSt → ZoneSt) (s : State) : (modZone f s).io = s.io := rfl
@[simp] theorem modZone_net (f : ZoneSt → ZoneSt) (s : State) : (modZone f s).net = s.net := rfl
@[simp] theorem modZone_acc (f : ZoneSt → ZoneSt) (s : State) : (modZone f s).acc = s.acc := rfl
@[simp] theorem modZone_trl (f : ZoneSt → ZoneSt) (s : State) : (modZone f s).trl = s.trl := rfl
@[simp] theorem modZone_adc (f : ZoneSt → ZoneSt) (s : State) : (modZone f s).adc = s.adc := rfl
@[simp] theorem modZone_seqs (f : ZoneSt → ZoneSt) (s : State) : (modZone f s).seqs = s.seqs := rfl

/-! ### modIo -/

@[simp] theorem modIo_pending (f : IoSt → IoSt) (s : State) : (modIo f s).pending = s.pending := rfl
@[simp] theorem modIo_clk (f : IoSt → IoSt) (s : State) : (modIo f s).clk = s.clk := rfl
@[simp] theorem modIo_zone (f : IoSt → IoSt) (s : State) : (modIo f s).zone = s.zone := rfl
@[simp] theorem modIo_ev (f : IoSt → IoSt) (s : State) : (modIo f s).ev = s.ev := rfl
@[simp] theorem modIo_cmd (f : IoSt → IoSt) (s : State) : (modIo f s).cmd = s.cmd := rfl
@[simp] theorem modIo_hosts (f : IoSt → IoSt) (s : State) : (modIo f s).hosts = s.hosts := rfl
@[simp] theorem modIo_boot (f : IoSt → IoSt) (s : State) : (modIo f s).boot = s.boot := rfl
@[simp] theorem modIo_plan (f : IoSt → IoSt) (s : State) : (modIo f s).plan = s.plan := rfl
@[simp] theorem modIo_dom (f : IoSt → IoSt) (s : State) : (modIo f s).dom = s.dom := rfl
@[simp] theorem modIo_rfx (f : IoSt → IoSt) (s : State) : (modIo f s).rfx = s.rfx := rfl
@[simp] theorem modIo_alm (f : IoSt → IoSt) (s : State) : (modIo f s).alm = s.alm := rfl
@[simp] theorem modIo_flt (f : IoSt → IoSt) (s : State) : (modIo f s).flt = s.flt := rfl
@[simp] theorem modIo_ks (f : IoSt → IoSt) (s : State) : (modIo f s).ks = s.ks := rfl
@[simp] theorem modIo_nv (f : IoSt → IoSt) (s : State) : (modIo f s).nv = s.nv := rfl
@[simp] theorem modIo_outs (f : IoSt → IoSt) (s : State) : (modIo f s).outs = s.outs := rfl
@[simp] theorem modIo_regs (f : IoSt → IoSt) (s : State) : (modIo f s).regs = s.regs := rfl
@[simp] theorem modIo_prune (f : IoSt → IoSt) (s : State) : (modIo f s).prune = s.prune := rfl
@[simp] theorem modIo_modb (f : IoSt → IoSt) (s : State) : (modIo f s).modb = s.modb := rfl
@[simp] theorem modIo_brs (f : IoSt → IoSt) (s : State) : (modIo f s).brs = s.brs := rfl
@[simp] theorem modIo_legs (f : IoSt → IoSt) (s : State) : (modIo f s).legs = s.legs := rfl
@[simp] theorem modIo_vls (f : IoSt → IoSt) (s : State) : (modIo f s).vls = s.vls := rfl
@[simp] theorem modIo_vhs (f : IoSt → IoSt) (s : State) : (modIo f s).vhs = s.vhs := rfl
@[simp] theorem modIo_io (f : IoSt → IoSt) (s : State) : (modIo f s).io = f s.io := rfl
@[simp] theorem modIo_net (f : IoSt → IoSt) (s : State) : (modIo f s).net = s.net := rfl
@[simp] theorem modIo_acc (f : IoSt → IoSt) (s : State) : (modIo f s).acc = s.acc := rfl
@[simp] theorem modIo_trl (f : IoSt → IoSt) (s : State) : (modIo f s).trl = s.trl := rfl
@[simp] theorem modIo_adc (f : IoSt → IoSt) (s : State) : (modIo f s).adc = s.adc := rfl
@[simp] theorem modIo_seqs (f : IoSt → IoSt) (s : State) : (modIo f s).seqs = s.seqs := rfl

/-! ### modOut -/

@[simp] theorem modOut_pending (n : Fin 96) (f : OutSt → OutSt) (s : State) : (modOut n f s).pending = s.pending := rfl
@[simp] theorem modOut_clk (n : Fin 96) (f : OutSt → OutSt) (s : State) : (modOut n f s).clk = s.clk := rfl
@[simp] theorem modOut_zone (n : Fin 96) (f : OutSt → OutSt) (s : State) : (modOut n f s).zone = s.zone := rfl
@[simp] theorem modOut_ev (n : Fin 96) (f : OutSt → OutSt) (s : State) : (modOut n f s).ev = s.ev := rfl
@[simp] theorem modOut_cmd (n : Fin 96) (f : OutSt → OutSt) (s : State) : (modOut n f s).cmd = s.cmd := rfl
@[simp] theorem modOut_hosts (n : Fin 96) (f : OutSt → OutSt) (s : State) : (modOut n f s).hosts = s.hosts := rfl
@[simp] theorem modOut_boot (n : Fin 96) (f : OutSt → OutSt) (s : State) : (modOut n f s).boot = s.boot := rfl
@[simp] theorem modOut_plan (n : Fin 96) (f : OutSt → OutSt) (s : State) : (modOut n f s).plan = s.plan := rfl
@[simp] theorem modOut_dom (n : Fin 96) (f : OutSt → OutSt) (s : State) : (modOut n f s).dom = s.dom := rfl
@[simp] theorem modOut_rfx (n : Fin 96) (f : OutSt → OutSt) (s : State) : (modOut n f s).rfx = s.rfx := rfl
@[simp] theorem modOut_alm (n : Fin 96) (f : OutSt → OutSt) (s : State) : (modOut n f s).alm = s.alm := rfl
@[simp] theorem modOut_flt (n : Fin 96) (f : OutSt → OutSt) (s : State) : (modOut n f s).flt = s.flt := rfl
@[simp] theorem modOut_ks (n : Fin 96) (f : OutSt → OutSt) (s : State) : (modOut n f s).ks = s.ks := rfl
@[simp] theorem modOut_nv (n : Fin 96) (f : OutSt → OutSt) (s : State) : (modOut n f s).nv = s.nv := rfl
@[simp] theorem modOut_outs (n : Fin 96) (f : OutSt → OutSt) (s : State) : (modOut n f s).outs = s.outs.set n (f s.outs[n]) := rfl
@[simp] theorem modOut_regs (n : Fin 96) (f : OutSt → OutSt) (s : State) : (modOut n f s).regs = s.regs := rfl
@[simp] theorem modOut_prune (n : Fin 96) (f : OutSt → OutSt) (s : State) : (modOut n f s).prune = s.prune := rfl
@[simp] theorem modOut_modb (n : Fin 96) (f : OutSt → OutSt) (s : State) : (modOut n f s).modb = s.modb := rfl
@[simp] theorem modOut_brs (n : Fin 96) (f : OutSt → OutSt) (s : State) : (modOut n f s).brs = s.brs := rfl
@[simp] theorem modOut_legs (n : Fin 96) (f : OutSt → OutSt) (s : State) : (modOut n f s).legs = s.legs := rfl
@[simp] theorem modOut_vls (n : Fin 96) (f : OutSt → OutSt) (s : State) : (modOut n f s).vls = s.vls := rfl
@[simp] theorem modOut_vhs (n : Fin 96) (f : OutSt → OutSt) (s : State) : (modOut n f s).vhs = s.vhs := rfl
@[simp] theorem modOut_io (n : Fin 96) (f : OutSt → OutSt) (s : State) : (modOut n f s).io = s.io := rfl
@[simp] theorem modOut_net (n : Fin 96) (f : OutSt → OutSt) (s : State) : (modOut n f s).net = s.net := rfl
@[simp] theorem modOut_acc (n : Fin 96) (f : OutSt → OutSt) (s : State) : (modOut n f s).acc = s.acc := rfl
@[simp] theorem modOut_trl (n : Fin 96) (f : OutSt → OutSt) (s : State) : (modOut n f s).trl = s.trl := rfl
@[simp] theorem modOut_adc (n : Fin 96) (f : OutSt → OutSt) (s : State) : (modOut n f s).adc = s.adc := rfl
@[simp] theorem modOut_seqs (n : Fin 96) (f : OutSt → OutSt) (s : State) : (modOut n f s).seqs = s.seqs := rfl

/-! ### modBr -/

@[simp] theorem modBr_pending (k : Fin 8) (f : BrSt → BrSt) (s : State) : (modBr k f s).pending = s.pending := rfl
@[simp] theorem modBr_clk (k : Fin 8) (f : BrSt → BrSt) (s : State) : (modBr k f s).clk = s.clk := rfl
@[simp] theorem modBr_zone (k : Fin 8) (f : BrSt → BrSt) (s : State) : (modBr k f s).zone = s.zone := rfl
@[simp] theorem modBr_ev (k : Fin 8) (f : BrSt → BrSt) (s : State) : (modBr k f s).ev = s.ev := rfl
@[simp] theorem modBr_cmd (k : Fin 8) (f : BrSt → BrSt) (s : State) : (modBr k f s).cmd = s.cmd := rfl
@[simp] theorem modBr_hosts (k : Fin 8) (f : BrSt → BrSt) (s : State) : (modBr k f s).hosts = s.hosts := rfl
@[simp] theorem modBr_boot (k : Fin 8) (f : BrSt → BrSt) (s : State) : (modBr k f s).boot = s.boot := rfl
@[simp] theorem modBr_plan (k : Fin 8) (f : BrSt → BrSt) (s : State) : (modBr k f s).plan = s.plan := rfl
@[simp] theorem modBr_dom (k : Fin 8) (f : BrSt → BrSt) (s : State) : (modBr k f s).dom = s.dom := rfl
@[simp] theorem modBr_rfx (k : Fin 8) (f : BrSt → BrSt) (s : State) : (modBr k f s).rfx = s.rfx := rfl
@[simp] theorem modBr_alm (k : Fin 8) (f : BrSt → BrSt) (s : State) : (modBr k f s).alm = s.alm := rfl
@[simp] theorem modBr_flt (k : Fin 8) (f : BrSt → BrSt) (s : State) : (modBr k f s).flt = s.flt := rfl
@[simp] theorem modBr_ks (k : Fin 8) (f : BrSt → BrSt) (s : State) : (modBr k f s).ks = s.ks := rfl
@[simp] theorem modBr_nv (k : Fin 8) (f : BrSt → BrSt) (s : State) : (modBr k f s).nv = s.nv := rfl
@[simp] theorem modBr_outs (k : Fin 8) (f : BrSt → BrSt) (s : State) : (modBr k f s).outs = s.outs := rfl
@[simp] theorem modBr_regs (k : Fin 8) (f : BrSt → BrSt) (s : State) : (modBr k f s).regs = s.regs := rfl
@[simp] theorem modBr_prune (k : Fin 8) (f : BrSt → BrSt) (s : State) : (modBr k f s).prune = s.prune := rfl
@[simp] theorem modBr_modb (k : Fin 8) (f : BrSt → BrSt) (s : State) : (modBr k f s).modb = s.modb := rfl
@[simp] theorem modBr_brs (k : Fin 8) (f : BrSt → BrSt) (s : State) : (modBr k f s).brs = s.brs.set k (f s.brs[k]) := rfl
@[simp] theorem modBr_legs (k : Fin 8) (f : BrSt → BrSt) (s : State) : (modBr k f s).legs = s.legs := rfl
@[simp] theorem modBr_vls (k : Fin 8) (f : BrSt → BrSt) (s : State) : (modBr k f s).vls = s.vls := rfl
@[simp] theorem modBr_vhs (k : Fin 8) (f : BrSt → BrSt) (s : State) : (modBr k f s).vhs = s.vhs := rfl
@[simp] theorem modBr_io (k : Fin 8) (f : BrSt → BrSt) (s : State) : (modBr k f s).io = s.io := rfl
@[simp] theorem modBr_net (k : Fin 8) (f : BrSt → BrSt) (s : State) : (modBr k f s).net = s.net := rfl
@[simp] theorem modBr_acc (k : Fin 8) (f : BrSt → BrSt) (s : State) : (modBr k f s).acc = s.acc := rfl
@[simp] theorem modBr_trl (k : Fin 8) (f : BrSt → BrSt) (s : State) : (modBr k f s).trl = s.trl := rfl
@[simp] theorem modBr_adc (k : Fin 8) (f : BrSt → BrSt) (s : State) : (modBr k f s).adc = s.adc := rfl
@[simp] theorem modBr_seqs (k : Fin 8) (f : BrSt → BrSt) (s : State) : (modBr k f s).seqs = s.seqs := rfl

/-! ### modLeg -/

@[simp] theorem modLeg_pending (n : Fin 16) (f : LegSt → LegSt) (s : State) : (modLeg n f s).pending = s.pending := rfl
@[simp] theorem modLeg_clk (n : Fin 16) (f : LegSt → LegSt) (s : State) : (modLeg n f s).clk = s.clk := rfl
@[simp] theorem modLeg_zone (n : Fin 16) (f : LegSt → LegSt) (s : State) : (modLeg n f s).zone = s.zone := rfl
@[simp] theorem modLeg_ev (n : Fin 16) (f : LegSt → LegSt) (s : State) : (modLeg n f s).ev = s.ev := rfl
@[simp] theorem modLeg_cmd (n : Fin 16) (f : LegSt → LegSt) (s : State) : (modLeg n f s).cmd = s.cmd := rfl
@[simp] theorem modLeg_hosts (n : Fin 16) (f : LegSt → LegSt) (s : State) : (modLeg n f s).hosts = s.hosts := rfl
@[simp] theorem modLeg_boot (n : Fin 16) (f : LegSt → LegSt) (s : State) : (modLeg n f s).boot = s.boot := rfl
@[simp] theorem modLeg_plan (n : Fin 16) (f : LegSt → LegSt) (s : State) : (modLeg n f s).plan = s.plan := rfl
@[simp] theorem modLeg_dom (n : Fin 16) (f : LegSt → LegSt) (s : State) : (modLeg n f s).dom = s.dom := rfl
@[simp] theorem modLeg_rfx (n : Fin 16) (f : LegSt → LegSt) (s : State) : (modLeg n f s).rfx = s.rfx := rfl
@[simp] theorem modLeg_alm (n : Fin 16) (f : LegSt → LegSt) (s : State) : (modLeg n f s).alm = s.alm := rfl
@[simp] theorem modLeg_flt (n : Fin 16) (f : LegSt → LegSt) (s : State) : (modLeg n f s).flt = s.flt := rfl
@[simp] theorem modLeg_ks (n : Fin 16) (f : LegSt → LegSt) (s : State) : (modLeg n f s).ks = s.ks := rfl
@[simp] theorem modLeg_nv (n : Fin 16) (f : LegSt → LegSt) (s : State) : (modLeg n f s).nv = s.nv := rfl
@[simp] theorem modLeg_outs (n : Fin 16) (f : LegSt → LegSt) (s : State) : (modLeg n f s).outs = s.outs := rfl
@[simp] theorem modLeg_regs (n : Fin 16) (f : LegSt → LegSt) (s : State) : (modLeg n f s).regs = s.regs := rfl
@[simp] theorem modLeg_prune (n : Fin 16) (f : LegSt → LegSt) (s : State) : (modLeg n f s).prune = s.prune := rfl
@[simp] theorem modLeg_modb (n : Fin 16) (f : LegSt → LegSt) (s : State) : (modLeg n f s).modb = s.modb := rfl
@[simp] theorem modLeg_brs (n : Fin 16) (f : LegSt → LegSt) (s : State) : (modLeg n f s).brs = s.brs := rfl
@[simp] theorem modLeg_legs (n : Fin 16) (f : LegSt → LegSt) (s : State) : (modLeg n f s).legs = s.legs.set n (f s.legs[n]) := rfl
@[simp] theorem modLeg_vls (n : Fin 16) (f : LegSt → LegSt) (s : State) : (modLeg n f s).vls = s.vls := rfl
@[simp] theorem modLeg_vhs (n : Fin 16) (f : LegSt → LegSt) (s : State) : (modLeg n f s).vhs = s.vhs := rfl
@[simp] theorem modLeg_io (n : Fin 16) (f : LegSt → LegSt) (s : State) : (modLeg n f s).io = s.io := rfl
@[simp] theorem modLeg_net (n : Fin 16) (f : LegSt → LegSt) (s : State) : (modLeg n f s).net = s.net := rfl
@[simp] theorem modLeg_acc (n : Fin 16) (f : LegSt → LegSt) (s : State) : (modLeg n f s).acc = s.acc := rfl
@[simp] theorem modLeg_trl (n : Fin 16) (f : LegSt → LegSt) (s : State) : (modLeg n f s).trl = s.trl := rfl
@[simp] theorem modLeg_adc (n : Fin 16) (f : LegSt → LegSt) (s : State) : (modLeg n f s).adc = s.adc := rfl
@[simp] theorem modLeg_seqs (n : Fin 16) (f : LegSt → LegSt) (s : State) : (modLeg n f s).seqs = s.seqs := rfl

/-! ### modVl -/

@[simp] theorem modVl_pending (n : Fin 16) (f : VlSt → VlSt) (s : State) : (modVl n f s).pending = s.pending := rfl
@[simp] theorem modVl_clk (n : Fin 16) (f : VlSt → VlSt) (s : State) : (modVl n f s).clk = s.clk := rfl
@[simp] theorem modVl_zone (n : Fin 16) (f : VlSt → VlSt) (s : State) : (modVl n f s).zone = s.zone := rfl
@[simp] theorem modVl_ev (n : Fin 16) (f : VlSt → VlSt) (s : State) : (modVl n f s).ev = s.ev := rfl
@[simp] theorem modVl_cmd (n : Fin 16) (f : VlSt → VlSt) (s : State) : (modVl n f s).cmd = s.cmd := rfl
@[simp] theorem modVl_hosts (n : Fin 16) (f : VlSt → VlSt) (s : State) : (modVl n f s).hosts = s.hosts := rfl
@[simp] theorem modVl_boot (n : Fin 16) (f : VlSt → VlSt) (s : State) : (modVl n f s).boot = s.boot := rfl
@[simp] theorem modVl_plan (n : Fin 16) (f : VlSt → VlSt) (s : State) : (modVl n f s).plan = s.plan := rfl
@[simp] theorem modVl_dom (n : Fin 16) (f : VlSt → VlSt) (s : State) : (modVl n f s).dom = s.dom := rfl
@[simp] theorem modVl_rfx (n : Fin 16) (f : VlSt → VlSt) (s : State) : (modVl n f s).rfx = s.rfx := rfl
@[simp] theorem modVl_alm (n : Fin 16) (f : VlSt → VlSt) (s : State) : (modVl n f s).alm = s.alm := rfl
@[simp] theorem modVl_flt (n : Fin 16) (f : VlSt → VlSt) (s : State) : (modVl n f s).flt = s.flt := rfl
@[simp] theorem modVl_ks (n : Fin 16) (f : VlSt → VlSt) (s : State) : (modVl n f s).ks = s.ks := rfl
@[simp] theorem modVl_nv (n : Fin 16) (f : VlSt → VlSt) (s : State) : (modVl n f s).nv = s.nv := rfl
@[simp] theorem modVl_outs (n : Fin 16) (f : VlSt → VlSt) (s : State) : (modVl n f s).outs = s.outs := rfl
@[simp] theorem modVl_regs (n : Fin 16) (f : VlSt → VlSt) (s : State) : (modVl n f s).regs = s.regs := rfl
@[simp] theorem modVl_prune (n : Fin 16) (f : VlSt → VlSt) (s : State) : (modVl n f s).prune = s.prune := rfl
@[simp] theorem modVl_modb (n : Fin 16) (f : VlSt → VlSt) (s : State) : (modVl n f s).modb = s.modb := rfl
@[simp] theorem modVl_brs (n : Fin 16) (f : VlSt → VlSt) (s : State) : (modVl n f s).brs = s.brs := rfl
@[simp] theorem modVl_legs (n : Fin 16) (f : VlSt → VlSt) (s : State) : (modVl n f s).legs = s.legs := rfl
@[simp] theorem modVl_vls (n : Fin 16) (f : VlSt → VlSt) (s : State) : (modVl n f s).vls = s.vls.set n (f s.vls[n]) := rfl
@[simp] theorem modVl_vhs (n : Fin 16) (f : VlSt → VlSt) (s : State) : (modVl n f s).vhs = s.vhs := rfl
@[simp] theorem modVl_io (n : Fin 16) (f : VlSt → VlSt) (s : State) : (modVl n f s).io = s.io := rfl
@[simp] theorem modVl_net (n : Fin 16) (f : VlSt → VlSt) (s : State) : (modVl n f s).net = s.net := rfl
@[simp] theorem modVl_acc (n : Fin 16) (f : VlSt → VlSt) (s : State) : (modVl n f s).acc = s.acc := rfl
@[simp] theorem modVl_trl (n : Fin 16) (f : VlSt → VlSt) (s : State) : (modVl n f s).trl = s.trl := rfl
@[simp] theorem modVl_adc (n : Fin 16) (f : VlSt → VlSt) (s : State) : (modVl n f s).adc = s.adc := rfl
@[simp] theorem modVl_seqs (n : Fin 16) (f : VlSt → VlSt) (s : State) : (modVl n f s).seqs = s.seqs := rfl

/-! ### modVh -/

@[simp] theorem modVh_pending (g : Fin 4) (f : VhSt → VhSt) (s : State) : (modVh g f s).pending = s.pending := rfl
@[simp] theorem modVh_clk (g : Fin 4) (f : VhSt → VhSt) (s : State) : (modVh g f s).clk = s.clk := rfl
@[simp] theorem modVh_zone (g : Fin 4) (f : VhSt → VhSt) (s : State) : (modVh g f s).zone = s.zone := rfl
@[simp] theorem modVh_ev (g : Fin 4) (f : VhSt → VhSt) (s : State) : (modVh g f s).ev = s.ev := rfl
@[simp] theorem modVh_cmd (g : Fin 4) (f : VhSt → VhSt) (s : State) : (modVh g f s).cmd = s.cmd := rfl
@[simp] theorem modVh_hosts (g : Fin 4) (f : VhSt → VhSt) (s : State) : (modVh g f s).hosts = s.hosts := rfl
@[simp] theorem modVh_boot (g : Fin 4) (f : VhSt → VhSt) (s : State) : (modVh g f s).boot = s.boot := rfl
@[simp] theorem modVh_plan (g : Fin 4) (f : VhSt → VhSt) (s : State) : (modVh g f s).plan = s.plan := rfl
@[simp] theorem modVh_dom (g : Fin 4) (f : VhSt → VhSt) (s : State) : (modVh g f s).dom = s.dom := rfl
@[simp] theorem modVh_rfx (g : Fin 4) (f : VhSt → VhSt) (s : State) : (modVh g f s).rfx = s.rfx := rfl
@[simp] theorem modVh_alm (g : Fin 4) (f : VhSt → VhSt) (s : State) : (modVh g f s).alm = s.alm := rfl
@[simp] theorem modVh_flt (g : Fin 4) (f : VhSt → VhSt) (s : State) : (modVh g f s).flt = s.flt := rfl
@[simp] theorem modVh_ks (g : Fin 4) (f : VhSt → VhSt) (s : State) : (modVh g f s).ks = s.ks := rfl
@[simp] theorem modVh_nv (g : Fin 4) (f : VhSt → VhSt) (s : State) : (modVh g f s).nv = s.nv := rfl
@[simp] theorem modVh_outs (g : Fin 4) (f : VhSt → VhSt) (s : State) : (modVh g f s).outs = s.outs := rfl
@[simp] theorem modVh_regs (g : Fin 4) (f : VhSt → VhSt) (s : State) : (modVh g f s).regs = s.regs := rfl
@[simp] theorem modVh_prune (g : Fin 4) (f : VhSt → VhSt) (s : State) : (modVh g f s).prune = s.prune := rfl
@[simp] theorem modVh_modb (g : Fin 4) (f : VhSt → VhSt) (s : State) : (modVh g f s).modb = s.modb := rfl
@[simp] theorem modVh_brs (g : Fin 4) (f : VhSt → VhSt) (s : State) : (modVh g f s).brs = s.brs := rfl
@[simp] theorem modVh_legs (g : Fin 4) (f : VhSt → VhSt) (s : State) : (modVh g f s).legs = s.legs := rfl
@[simp] theorem modVh_vls (g : Fin 4) (f : VhSt → VhSt) (s : State) : (modVh g f s).vls = s.vls := rfl
@[simp] theorem modVh_vhs (g : Fin 4) (f : VhSt → VhSt) (s : State) : (modVh g f s).vhs = s.vhs.set g (f s.vhs[g]) := rfl
@[simp] theorem modVh_io (g : Fin 4) (f : VhSt → VhSt) (s : State) : (modVh g f s).io = s.io := rfl
@[simp] theorem modVh_net (g : Fin 4) (f : VhSt → VhSt) (s : State) : (modVh g f s).net = s.net := rfl
@[simp] theorem modVh_acc (g : Fin 4) (f : VhSt → VhSt) (s : State) : (modVh g f s).acc = s.acc := rfl
@[simp] theorem modVh_trl (g : Fin 4) (f : VhSt → VhSt) (s : State) : (modVh g f s).trl = s.trl := rfl
@[simp] theorem modVh_adc (g : Fin 4) (f : VhSt → VhSt) (s : State) : (modVh g f s).adc = s.adc := rfl
@[simp] theorem modVh_seqs (g : Fin 4) (f : VhSt → VhSt) (s : State) : (modVh g f s).seqs = s.seqs := rfl

/-! ### modReg -/

@[simp] theorem modReg_pending (r : Fin 7) (f : RegSt → RegSt) (s : State) : (modReg r f s).pending = s.pending := rfl
@[simp] theorem modReg_clk (r : Fin 7) (f : RegSt → RegSt) (s : State) : (modReg r f s).clk = s.clk := rfl
@[simp] theorem modReg_zone (r : Fin 7) (f : RegSt → RegSt) (s : State) : (modReg r f s).zone = s.zone := rfl
@[simp] theorem modReg_ev (r : Fin 7) (f : RegSt → RegSt) (s : State) : (modReg r f s).ev = s.ev := rfl
@[simp] theorem modReg_cmd (r : Fin 7) (f : RegSt → RegSt) (s : State) : (modReg r f s).cmd = s.cmd := rfl
@[simp] theorem modReg_hosts (r : Fin 7) (f : RegSt → RegSt) (s : State) : (modReg r f s).hosts = s.hosts := rfl
@[simp] theorem modReg_boot (r : Fin 7) (f : RegSt → RegSt) (s : State) : (modReg r f s).boot = s.boot := rfl
@[simp] theorem modReg_plan (r : Fin 7) (f : RegSt → RegSt) (s : State) : (modReg r f s).plan = s.plan := rfl
@[simp] theorem modReg_dom (r : Fin 7) (f : RegSt → RegSt) (s : State) : (modReg r f s).dom = s.dom := rfl
@[simp] theorem modReg_rfx (r : Fin 7) (f : RegSt → RegSt) (s : State) : (modReg r f s).rfx = s.rfx := rfl
@[simp] theorem modReg_alm (r : Fin 7) (f : RegSt → RegSt) (s : State) : (modReg r f s).alm = s.alm := rfl
@[simp] theorem modReg_flt (r : Fin 7) (f : RegSt → RegSt) (s : State) : (modReg r f s).flt = s.flt := rfl
@[simp] theorem modReg_ks (r : Fin 7) (f : RegSt → RegSt) (s : State) : (modReg r f s).ks = s.ks := rfl
@[simp] theorem modReg_nv (r : Fin 7) (f : RegSt → RegSt) (s : State) : (modReg r f s).nv = s.nv := rfl
@[simp] theorem modReg_outs (r : Fin 7) (f : RegSt → RegSt) (s : State) : (modReg r f s).outs = s.outs := rfl
@[simp] theorem modReg_regs (r : Fin 7) (f : RegSt → RegSt) (s : State) : (modReg r f s).regs = s.regs.set r (f s.regs[r]) := rfl
@[simp] theorem modReg_prune (r : Fin 7) (f : RegSt → RegSt) (s : State) : (modReg r f s).prune = s.prune := rfl
@[simp] theorem modReg_modb (r : Fin 7) (f : RegSt → RegSt) (s : State) : (modReg r f s).modb = s.modb := rfl
@[simp] theorem modReg_brs (r : Fin 7) (f : RegSt → RegSt) (s : State) : (modReg r f s).brs = s.brs := rfl
@[simp] theorem modReg_legs (r : Fin 7) (f : RegSt → RegSt) (s : State) : (modReg r f s).legs = s.legs := rfl
@[simp] theorem modReg_vls (r : Fin 7) (f : RegSt → RegSt) (s : State) : (modReg r f s).vls = s.vls := rfl
@[simp] theorem modReg_vhs (r : Fin 7) (f : RegSt → RegSt) (s : State) : (modReg r f s).vhs = s.vhs := rfl
@[simp] theorem modReg_io (r : Fin 7) (f : RegSt → RegSt) (s : State) : (modReg r f s).io = s.io := rfl
@[simp] theorem modReg_net (r : Fin 7) (f : RegSt → RegSt) (s : State) : (modReg r f s).net = s.net := rfl
@[simp] theorem modReg_acc (r : Fin 7) (f : RegSt → RegSt) (s : State) : (modReg r f s).acc = s.acc := rfl
@[simp] theorem modReg_trl (r : Fin 7) (f : RegSt → RegSt) (s : State) : (modReg r f s).trl = s.trl := rfl
@[simp] theorem modReg_adc (r : Fin 7) (f : RegSt → RegSt) (s : State) : (modReg r f s).adc = s.adc := rfl
@[simp] theorem modReg_seqs (r : Fin 7) (f : RegSt → RegSt) (s : State) : (modReg r f s).seqs = s.seqs := rfl

/-! ### modPrune -/

@[simp] theorem modPrune_pending (i : Fin 120) (f : PruneSt → PruneSt) (s : State) : (modPrune i f s).pending = s.pending := rfl
@[simp] theorem modPrune_clk (i : Fin 120) (f : PruneSt → PruneSt) (s : State) : (modPrune i f s).clk = s.clk := rfl
@[simp] theorem modPrune_zone (i : Fin 120) (f : PruneSt → PruneSt) (s : State) : (modPrune i f s).zone = s.zone := rfl
@[simp] theorem modPrune_ev (i : Fin 120) (f : PruneSt → PruneSt) (s : State) : (modPrune i f s).ev = s.ev := rfl
@[simp] theorem modPrune_cmd (i : Fin 120) (f : PruneSt → PruneSt) (s : State) : (modPrune i f s).cmd = s.cmd := rfl
@[simp] theorem modPrune_hosts (i : Fin 120) (f : PruneSt → PruneSt) (s : State) : (modPrune i f s).hosts = s.hosts := rfl
@[simp] theorem modPrune_boot (i : Fin 120) (f : PruneSt → PruneSt) (s : State) : (modPrune i f s).boot = s.boot := rfl
@[simp] theorem modPrune_plan (i : Fin 120) (f : PruneSt → PruneSt) (s : State) : (modPrune i f s).plan = s.plan := rfl
@[simp] theorem modPrune_dom (i : Fin 120) (f : PruneSt → PruneSt) (s : State) : (modPrune i f s).dom = s.dom := rfl
@[simp] theorem modPrune_rfx (i : Fin 120) (f : PruneSt → PruneSt) (s : State) : (modPrune i f s).rfx = s.rfx := rfl
@[simp] theorem modPrune_alm (i : Fin 120) (f : PruneSt → PruneSt) (s : State) : (modPrune i f s).alm = s.alm := rfl
@[simp] theorem modPrune_flt (i : Fin 120) (f : PruneSt → PruneSt) (s : State) : (modPrune i f s).flt = s.flt := rfl
@[simp] theorem modPrune_ks (i : Fin 120) (f : PruneSt → PruneSt) (s : State) : (modPrune i f s).ks = s.ks := rfl
@[simp] theorem modPrune_nv (i : Fin 120) (f : PruneSt → PruneSt) (s : State) : (modPrune i f s).nv = s.nv := rfl
@[simp] theorem modPrune_outs (i : Fin 120) (f : PruneSt → PruneSt) (s : State) : (modPrune i f s).outs = s.outs := rfl
@[simp] theorem modPrune_regs (i : Fin 120) (f : PruneSt → PruneSt) (s : State) : (modPrune i f s).regs = s.regs := rfl
@[simp] theorem modPrune_prune (i : Fin 120) (f : PruneSt → PruneSt) (s : State) : (modPrune i f s).prune = s.prune.set i (f s.prune[i]) := rfl
@[simp] theorem modPrune_modb (i : Fin 120) (f : PruneSt → PruneSt) (s : State) : (modPrune i f s).modb = s.modb := rfl
@[simp] theorem modPrune_brs (i : Fin 120) (f : PruneSt → PruneSt) (s : State) : (modPrune i f s).brs = s.brs := rfl
@[simp] theorem modPrune_legs (i : Fin 120) (f : PruneSt → PruneSt) (s : State) : (modPrune i f s).legs = s.legs := rfl
@[simp] theorem modPrune_vls (i : Fin 120) (f : PruneSt → PruneSt) (s : State) : (modPrune i f s).vls = s.vls := rfl
@[simp] theorem modPrune_vhs (i : Fin 120) (f : PruneSt → PruneSt) (s : State) : (modPrune i f s).vhs = s.vhs := rfl
@[simp] theorem modPrune_io (i : Fin 120) (f : PruneSt → PruneSt) (s : State) : (modPrune i f s).io = s.io := rfl
@[simp] theorem modPrune_net (i : Fin 120) (f : PruneSt → PruneSt) (s : State) : (modPrune i f s).net = s.net := rfl
@[simp] theorem modPrune_acc (i : Fin 120) (f : PruneSt → PruneSt) (s : State) : (modPrune i f s).acc = s.acc := rfl
@[simp] theorem modPrune_trl (i : Fin 120) (f : PruneSt → PruneSt) (s : State) : (modPrune i f s).trl = s.trl := rfl
@[simp] theorem modPrune_adc (i : Fin 120) (f : PruneSt → PruneSt) (s : State) : (modPrune i f s).adc = s.adc := rfl
@[simp] theorem modPrune_seqs (i : Fin 120) (f : PruneSt → PruneSt) (s : State) : (modPrune i f s).seqs = s.seqs := rfl

/-! ### A command begins -/

@[simp] theorem begin_pending (s : State) : (begin_ s).pending = s.pending := rfl
@[simp] theorem begin_clk (s : State) : (begin_ s).clk = s.clk := rfl
@[simp] theorem begin_zone (s : State) : (begin_ s).zone = s.zone := rfl
@[simp] theorem begin_ev (s : State) : (begin_ s).ev = s.ev := rfl
@[simp] theorem begin_hosts (s : State) : (begin_ s).hosts = s.hosts := rfl
@[simp] theorem begin_boot (s : State) : (begin_ s).boot = s.boot := rfl
@[simp] theorem begin_plan (s : State) : (begin_ s).plan = s.plan := rfl
@[simp] theorem begin_dom (s : State) : (begin_ s).dom = s.dom := rfl
@[simp] theorem begin_rfx (s : State) : (begin_ s).rfx = s.rfx := rfl
@[simp] theorem begin_alm (s : State) : (begin_ s).alm = s.alm := rfl
@[simp] theorem begin_flt (s : State) : (begin_ s).flt = s.flt := rfl
@[simp] theorem begin_ks (s : State) : (begin_ s).ks = s.ks := rfl
@[simp] theorem begin_nv (s : State) : (begin_ s).nv = s.nv := rfl
@[simp] theorem begin_outs (s : State) : (begin_ s).outs = s.outs := rfl
@[simp] theorem begin_regs (s : State) : (begin_ s).regs = s.regs := rfl
@[simp] theorem begin_prune (s : State) : (begin_ s).prune = s.prune := rfl
@[simp] theorem begin_modb (s : State) : (begin_ s).modb = s.modb := rfl
@[simp] theorem begin_brs (s : State) : (begin_ s).brs = s.brs := rfl
@[simp] theorem begin_legs (s : State) : (begin_ s).legs = s.legs := rfl
@[simp] theorem begin_vls (s : State) : (begin_ s).vls = s.vls := rfl
@[simp] theorem begin_vhs (s : State) : (begin_ s).vhs = s.vhs := rfl
@[simp] theorem begin_io (s : State) : (begin_ s).io = s.io := rfl
@[simp] theorem begin_acc (s : State) : (begin_ s).acc = s.acc := rfl
@[simp] theorem begin_adc (s : State) : (begin_ s).adc = s.adc := rfl
@[simp] theorem begin_seqs (s : State) : (begin_ s).seqs = s.seqs := rfl
@[simp] theorem begin_cmd (s : State) : (begin_ s).cmd = { s.cmd with lastOut := [] } := rfl
@[simp] theorem begin_net (s : State) : (begin_ s).net = { s.net with swOut := [], canOut := [], linOut := [], wakeOut := [] } := rfl
@[simp] theorem begin_trl (s : State) : (begin_ s).trl = { s.trl with out := [] } := rfl
@[simp] theorem begin_kept (s : State) : (begin_ s).kept = s.kept := rfl

/-! ### modSeq -/

@[simp] theorem modSeq_pending (b : Fin 25) (f : AdcSeq → AdcSeq) (s : State) : (modSeq b f s).pending = s.pending := rfl
@[simp] theorem modSeq_clk (b : Fin 25) (f : AdcSeq → AdcSeq) (s : State) : (modSeq b f s).clk = s.clk := rfl
@[simp] theorem modSeq_zone (b : Fin 25) (f : AdcSeq → AdcSeq) (s : State) : (modSeq b f s).zone = s.zone := rfl
@[simp] theorem modSeq_ev (b : Fin 25) (f : AdcSeq → AdcSeq) (s : State) : (modSeq b f s).ev = s.ev := rfl
@[simp] theorem modSeq_cmd (b : Fin 25) (f : AdcSeq → AdcSeq) (s : State) : (modSeq b f s).cmd = s.cmd := rfl
@[simp] theorem modSeq_hosts (b : Fin 25) (f : AdcSeq → AdcSeq) (s : State) : (modSeq b f s).hosts = s.hosts := rfl
@[simp] theorem modSeq_boot (b : Fin 25) (f : AdcSeq → AdcSeq) (s : State) : (modSeq b f s).boot = s.boot := rfl
@[simp] theorem modSeq_plan (b : Fin 25) (f : AdcSeq → AdcSeq) (s : State) : (modSeq b f s).plan = s.plan := rfl
@[simp] theorem modSeq_dom (b : Fin 25) (f : AdcSeq → AdcSeq) (s : State) : (modSeq b f s).dom = s.dom := rfl
@[simp] theorem modSeq_rfx (b : Fin 25) (f : AdcSeq → AdcSeq) (s : State) : (modSeq b f s).rfx = s.rfx := rfl
@[simp] theorem modSeq_alm (b : Fin 25) (f : AdcSeq → AdcSeq) (s : State) : (modSeq b f s).alm = s.alm := rfl
@[simp] theorem modSeq_flt (b : Fin 25) (f : AdcSeq → AdcSeq) (s : State) : (modSeq b f s).flt = s.flt := rfl
@[simp] theorem modSeq_ks (b : Fin 25) (f : AdcSeq → AdcSeq) (s : State) : (modSeq b f s).ks = s.ks := rfl
@[simp] theorem modSeq_nv (b : Fin 25) (f : AdcSeq → AdcSeq) (s : State) : (modSeq b f s).nv = s.nv := rfl
@[simp] theorem modSeq_outs (b : Fin 25) (f : AdcSeq → AdcSeq) (s : State) : (modSeq b f s).outs = s.outs := rfl
@[simp] theorem modSeq_regs (b : Fin 25) (f : AdcSeq → AdcSeq) (s : State) : (modSeq b f s).regs = s.regs := rfl
@[simp] theorem modSeq_prune (b : Fin 25) (f : AdcSeq → AdcSeq) (s : State) : (modSeq b f s).prune = s.prune := rfl
@[simp] theorem modSeq_modb (b : Fin 25) (f : AdcSeq → AdcSeq) (s : State) : (modSeq b f s).modb = s.modb := rfl
@[simp] theorem modSeq_brs (b : Fin 25) (f : AdcSeq → AdcSeq) (s : State) : (modSeq b f s).brs = s.brs := rfl
@[simp] theorem modSeq_legs (b : Fin 25) (f : AdcSeq → AdcSeq) (s : State) : (modSeq b f s).legs = s.legs := rfl
@[simp] theorem modSeq_vls (b : Fin 25) (f : AdcSeq → AdcSeq) (s : State) : (modSeq b f s).vls = s.vls := rfl
@[simp] theorem modSeq_vhs (b : Fin 25) (f : AdcSeq → AdcSeq) (s : State) : (modSeq b f s).vhs = s.vhs := rfl
@[simp] theorem modSeq_io (b : Fin 25) (f : AdcSeq → AdcSeq) (s : State) : (modSeq b f s).io = s.io := rfl
@[simp] theorem modSeq_net (b : Fin 25) (f : AdcSeq → AdcSeq) (s : State) : (modSeq b f s).net = s.net := rfl
@[simp] theorem modSeq_acc (b : Fin 25) (f : AdcSeq → AdcSeq) (s : State) : (modSeq b f s).acc = s.acc := rfl
@[simp] theorem modSeq_trl (b : Fin 25) (f : AdcSeq → AdcSeq) (s : State) : (modSeq b f s).trl = s.trl := rfl
@[simp] theorem modSeq_adc (b : Fin 25) (f : AdcSeq → AdcSeq) (s : State) : (modSeq b f s).adc = s.adc := rfl
@[simp] theorem modSeq_seqs (b : Fin 25) (f : AdcSeq → AdcSeq) (s : State) : (modSeq b f s).seqs = s.seqs.set b (f s.seqs[b]) := rfl

end Sys2Proof.Machine
end

