-- ==== Sys2Proof/Laws/Ops.lean ====
section
/-! SUPPORT. Once for each shared operation: the fields it can change, and what it leaves of the part of the state named `kept`. -/

namespace Sys2Proof.Machine

/-! ### Events and occurrences -/

theorem collect_mask (h : Fin 10) (e : Nat) (m : BitVec 4) (z n : Nat) (ev : EvSt) : (collect h e m z n ev).mask = ev.mask := by
  unfold collect; dsimp only; split <;> rfl

theorem collect_route (h : Fin 10) (e : Nat) (m : BitVec 4) (z n : Nat) (ev : EvSt) : (collect h e m z n ev).route = ev.route := by
  unfold collect; dsimp only; split <;> rfl

theorem collect_pending (h : Fin 10) (e : Nat) (m : BitVec 4) (z n : Nat) (ev : EvSt) :
    (collect h e m z n ev).pending = ev.pending := by
  unfold collect; dsimp only; split <;> rfl

/-- A fold of steps that leave `g` alone leaves it alone. -/
theorem foldl_keeps {α β γ : Type} (g : β → γ) (f : β → α → β) (h : ∀ b a, g (f b a) = g b) (l : List α) (b : β) :
    g (l.foldl f b) = g b := by
  induction l generalizing b with
  | nil => rfl
  | cons a l ih => simp only [List.foldl_cons, ih, h]

theorem judge_mask (e : Nat) (m : BitVec 4) (z n : Nat) (ev : EvSt) : (judge e m z n ev).mask = ev.mask := by
  unfold judge
  split
  · exact foldl_keeps EvSt.mask _ (by intro b a; split <;> simp [collect_mask]) _ _
  · rfl

theorem judge_route (e : Nat) (m : BitVec 4) (z n : Nat) (ev : EvSt) : (judge e m z n ev).route = ev.route := by
  unfold judge
  split
  · exact foldl_keeps EvSt.route _ (by intro b a; split <;> simp [collect_route]) _ _
  · rfl

theorem judge_pending (e : Nat) (m : BitVec 4) (z n : Nat) (ev : EvSt) :
    (judge e m z n ev).pending = if ev.mask.getLsbD e then ev.pending ||| (1 <<< e) else ev.pending := by
  unfold judge
  split
  · exact foldl_keeps EvSt.pending _ (by intro b a; split <;> simp [collect_pending]) _ _
  · rfl

theorem hold_mask (e z : Nat) (ev : EvSt) : (hold e z ev).mask = ev.mask := by unfold hold; split <;> rfl
theorem hold_route (e z : Nat) (ev : EvSt) : (hold e z ev).route = ev.route := by unfold hold; split <;> rfl

theorem raiseEv_frame (e : Nat) (s : State) : raiseEv e s = { s with ev := (raiseEv e s).ev } := rfl

theorem raiseEv_mask (e : Nat) (s : State) : (raiseEv e s).ev.mask = s.ev.mask := by
  unfold raiseEv; dsimp only; split
  · exact judge_mask _ _ _ _ _
  · exact hold_mask _ _ _

theorem raiseEv_route (e : Nat) (s : State) : (raiseEv e s).ev.route = s.ev.route := by
  unfold raiseEv; dsimp only; split
  · exact judge_route _ _ _ _ _
  · exact hold_route _ _ _

/-- Offering an occurrence changes the events and the occurrence buffer alone. -/
theorem pushOccAt_frame (k : OccKind) (z : Nat) (s : State) :
    pushOccAt k z s = { s with ev := (pushOccAt k z s).ev, rfx := (pushOccAt k z s).rfx } := by
  unfold pushOccAt
  split
  · split
    · rfl
    · dsimp only; split <;> rfl
  · rfl

theorem pushOccAt_mask (k : OccKind) (z : Nat) (s : State) : (pushOccAt k z s).ev.mask = s.ev.mask := by
  unfold pushOccAt
  split
  · split
    · rfl
    · dsimp only; split <;> simp [raiseEv_mask]
  · rfl

theorem pushOccAt_route (k : OccKind) (z : Nat) (s : State) : (pushOccAt k z s).ev.route = s.ev.route := by
  unfold pushOccAt
  split
  · split
    · rfl
    · dsimp only; split <;> simp [raiseEv_route]
  · rfl

theorem pushOccAt_fired (k : OccKind) (z : Nat) (s : State) : (pushOccAt k z s).rfx.fired = s.rfx.fired := by
  unfold pushOccAt
  split
  · split
    · rfl
    · dsimp only; split <;> rfl
  · rfl

theorem pushOccAt_entries (k : OccKind) (z : Nat) (s : State) : (pushOccAt k z s).rfx.entries = s.rfx.entries := by
  unfold pushOccAt
  split
  · split
    · rfl
    · dsimp only; split <;> rfl
  · rfl

/-- Raising an event changes the events and the occurrence buffer alone. -/
theorem raise_frame (e : Nat) (s : State) : raise e s = { s with ev := (raise e s).ev, rfx := (raise e s).rfx } := by
  unfold raise
  split
  · unfold pushOcc; rw [pushOccAt_frame]; rfl
  · rfl

@[simp] theorem raise_mask (e : Nat) (s : State) : (raise e s).ev.mask = s.ev.mask := by
  unfold raise pushOcc; split <;> simp [pushOccAt_mask, raiseEv_mask]
@[simp] theorem raise_route (e : Nat) (s : State) : (raise e s).ev.route = s.ev.route := by
  unfold raise pushOcc; split <;> simp [pushOccAt_route, raiseEv_route]
@[simp] theorem raise_fired (e : Nat) (s : State) : (raise e s).rfx.fired = s.rfx.fired := by
  unfold raise pushOcc; split <;> simp [pushOccAt_fired, raiseEv]
@[simp] theorem raise_entries (e : Nat) (s : State) : (raise e s).rfx.entries = s.rfx.entries := by
  unfold raise pushOcc; split <;> simp [pushOccAt_entries, raiseEv]

theorem raiseIf_frame (b : Bool) (e : Nat) (s : State) :
    raiseIf b e s = { s with ev := (raiseIf b e s).ev, rfx := (raiseIf b e s).rfx } := by
  unfold raiseIf; split
  · exact raise_frame e s
  · rfl

@[simp] theorem raiseIf_mask (b : Bool) (e : Nat) (s : State) : (raiseIf b e s).ev.mask = s.ev.mask := by
  unfold raiseIf; split <;> simp
@[simp] theorem raiseIf_route (b : Bool) (e : Nat) (s : State) : (raiseIf b e s).ev.route = s.ev.route := by
  unfold raiseIf; split <;> simp
@[simp] theorem raiseIf_fired (b : Bool) (e : Nat) (s : State) : (raiseIf b e s).rfx.fired = s.rfx.fired := by
  unfold raiseIf; split <;> simp
@[simp] theorem raiseIf_entries (b : Bool) (e : Nat) (s : State) : (raiseIf b e s).rfx.entries = s.rfx.entries := by
  unfold raiseIf; split <;> simp

/-! ### Records -/

theorem record_frame (code : Half) (sev fc : BitVec 2) (cls : BitVec 6) (idx p1 p2 p3 : Nat) (s : State) (fl : BitVec 4) :
    record code sev fc cls idx p1 p2 p3 s fl = { s with alm := { s.alm with batch := (record code sev fc cls idx p1 p2 p3 s fl).alm.batch } } :=
  rfl

@[simp] theorem record_almCfg (code : Half) (sev fc : BitVec 2) (cls : BitVec 6) (idx p1 p2 p3 : Nat) (s : State) (fl : BitVec 4) :
    (record code sev fc cls idx p1 p2 p3 s fl).alm.cfg = s.alm.cfg := rfl

theorem note_frame (code : Half) (sev : BitVec 2) (cls : BitVec 6) (idx p1 p2 p3 : Nat) (s : State) :
    note code sev cls idx p1 p2 p3 s = { s with alm := (note code sev cls idx p1 p2 p3 s).alm } := rfl

@[simp] theorem note_almCfg (code : Half) (sev : BitVec 2) (cls : BitVec 6) (idx p1 p2 p3 : Nat) (s : State) :
    (note code sev cls idx p1 p2 p3 s).alm.cfg = s.alm.cfg := rfl

/-! ### raise: what it leaves alone -/

@[simp] theorem raise_pending (e : Nat) (s : State) : (raise e s).pending = s.pending := by rw [raise_frame e s]
@[simp] theorem raise_clk (e : Nat) (s : State) : (raise e s).clk = s.clk := by rw [raise_frame e s]
@[simp] theorem raise_zone (e : Nat) (s : State) : (raise e s).zone = s.zone := by rw [raise_frame e s]
@[simp] theorem raise_cmd (e : Nat) (s : State) : (raise e s).cmd = s.cmd := by rw [raise_frame e s]
@[simp] theorem raise_hosts (e : Nat) (s : State) : (raise e s).hosts = s.hosts := by rw [raise_frame e s]
@[simp] theorem raise_boot (e : Nat) (s : State) : (raise e s).boot = s.boot := by rw [raise_frame e s]
@[simp] theorem raise_plan (e : Nat) (s : State) : (raise e s).plan = s.plan := by rw [raise_frame e s]
@[simp] theorem raise_dom (e : Nat) (s : State) : (raise e s).dom = s.dom := by rw [raise_frame e s]
@[simp] theorem raise_alm (e : Nat) (s : State) : (raise e s).alm = s.alm := by rw [raise_frame e s]
@[simp] theorem raise_flt (e : Nat) (s : State) : (raise e s).flt = s.flt := by rw [raise_frame e s]
@[simp] theorem raise_ks (e : Nat) (s : State) : (raise e s).ks = s.ks := by rw [raise_frame e s]
@[simp] theorem raise_nv (e : Nat) (s : State) : (raise e s).nv = s.nv := by rw [raise_frame e s]
@[simp] theorem raise_outs (e : Nat) (s : State) : (raise e s).outs = s.outs := by rw [raise_frame e s]
@[simp] theorem raise_regs (e : Nat) (s : State) : (raise e s).regs = s.regs := by rw [raise_frame e s]
@[simp] theorem raise_prune (e : Nat) (s : State) : (raise e s).prune = s.prune := by rw [raise_frame e s]
@[simp] theorem raise_modb (e : Nat) (s : State) : (raise e s).modb = s.modb := by rw [raise_frame e s]
@[simp] theorem raise_brs (e : Nat) (s : State) : (raise e s).brs = s.brs := by rw [raise_frame e s]
@[simp] theorem raise_legs (e : Nat) (s : State) : (raise e s).legs = s.legs := by rw [raise_frame e s]
@[simp] theorem raise_vls (e : Nat) (s : State) : (raise e s).vls = s.vls := by rw [raise_frame e s]
@[simp] theorem raise_vhs (e : Nat) (s : State) : (raise e s).vhs = s.vhs := by rw [raise_frame e s]
@[simp] theorem raise_io (e : Nat) (s : State) : (raise e s).io = s.io := by rw [raise_frame e s]
@[simp] theorem raise_net (e : Nat) (s : State) : (raise e s).net = s.net := by rw [raise_frame e s]
@[simp] theorem raise_acc (e : Nat) (s : State) : (raise e s).acc = s.acc := by rw [raise_frame e s]
@[simp] theorem raise_trl (e : Nat) (s : State) : (raise e s).trl = s.trl := by rw [raise_frame e s]
@[simp] theorem raise_adc (e : Nat) (s : State) : (raise e s).adc = s.adc := by rw [raise_frame e s]

/-! ### raiseIf: what it leaves alone -/

@[simp] theorem raiseIf_pending (b : Bool) (e : Nat) (s : State) : (raiseIf b e s).pending = s.pending := by rw [raiseIf_frame b e s]
@[simp] theorem raiseIf_clk (b : Bool) (e : Nat) (s : State) : (raiseIf b e s).clk = s.clk := by rw [raiseIf_frame b e s]
@[simp] theorem raiseIf_zone (b : Bool) (e : Nat) (s : State) : (raiseIf b e s).zone = s.zone := by rw [raiseIf_frame b e s]
@[simp] theorem raiseIf_cmd (b : Bool) (e : Nat) (s : State) : (raiseIf b e s).cmd = s.cmd := by rw [raiseIf_frame b e s]
@[simp] theorem raiseIf_hosts (b : Bool) (e : Nat) (s : State) : (raiseIf b e s).hosts = s.hosts := by rw [raiseIf_frame b e s]
@[simp] theorem raiseIf_boot (b : Bool) (e : Nat) (s : State) : (raiseIf b e s).boot = s.boot := by rw [raiseIf_frame b e s]
@[simp] theorem raiseIf_plan (b : Bool) (e : Nat) (s : State) : (raiseIf b e s).plan = s.plan := by rw [raiseIf_frame b e s]
@[simp] theorem raiseIf_dom (b : Bool) (e : Nat) (s : State) : (raiseIf b e s).dom = s.dom := by rw [raiseIf_frame b e s]
@[simp] theorem raiseIf_alm (b : Bool) (e : Nat) (s : State) : (raiseIf b e s).alm = s.alm := by rw [raiseIf_frame b e s]
@[simp] theorem raiseIf_flt (b : Bool) (e : Nat) (s : State) : (raiseIf b e s).flt = s.flt := by rw [raiseIf_frame b e s]
@[simp] theorem raiseIf_ks (b : Bool) (e : Nat) (s : State) : (raiseIf b e s).ks = s.ks := by rw [raiseIf_frame b e s]
@[simp] theorem raiseIf_nv (b : Bool) (e : Nat) (s : State) : (raiseIf b e s).nv = s.nv := by rw [raiseIf_frame b e s]
@[simp] theorem raiseIf_outs (b : Bool) (e : Nat) (s : State) : (raiseIf b e s).outs = s.outs := by rw [raiseIf_frame b e s]
@[simp] theorem raiseIf_regs (b : Bool) (e : Nat) (s : State) : (raiseIf b e s).regs = s.regs := by rw [raiseIf_frame b e s]
@[simp] theorem raiseIf_prune (b : Bool) (e : Nat) (s : State) : (raiseIf b e s).prune = s.prune := by rw [raiseIf_frame b e s]
@[simp] theorem raiseIf_modb (b : Bool) (e : Nat) (s : State) : (raiseIf b e s).modb = s.modb := by rw [raiseIf_frame b e s]
@[simp] theorem raiseIf_brs (b : Bool) (e : Nat) (s : State) : (raiseIf b e s).brs = s.brs := by rw [raiseIf_frame b e s]
@[simp] theorem raiseIf_legs (b : Bool) (e : Nat) (s : State) : (raiseIf b e s).legs = s.legs := by rw [raiseIf_frame b e s]
@[simp] theorem raiseIf_vls (b : Bool) (e : Nat) (s : State) : (raiseIf b e s).vls = s.vls := by rw [raiseIf_frame b e s]
@[simp] theorem raiseIf_vhs (b : Bool) (e : Nat) (s : State) : (raiseIf b e s).vhs = s.vhs := by rw [raiseIf_frame b e s]
@[simp] theorem raiseIf_io (b : Bool) (e : Nat) (s : State) : (raiseIf b e s).io = s.io := by rw [raiseIf_frame b e s]
@[simp] theorem raiseIf_net (b : Bool) (e : Nat) (s : State) : (raiseIf b e s).net = s.net := by rw [raiseIf_frame b e s]
@[simp] theorem raiseIf_acc (b : Bool) (e : Nat) (s : State) : (raiseIf b e s).acc = s.acc := by rw [raiseIf_frame b e s]
@[simp] theorem raiseIf_trl (b : Bool) (e : Nat) (s : State) : (raiseIf b e s).trl = s.trl := by rw [raiseIf_frame b e s]
@[simp] theorem raiseIf_adc (b : Bool) (e : Nat) (s : State) : (raiseIf b e s).adc = s.adc := by rw [raiseIf_frame b e s]

/-! ### record: what it leaves alone -/

@[simp] theorem record_pending (code : Half) (sev fc : BitVec 2) (cls : BitVec 6) (idx p1 p2 p3 : Nat) (s : State) (fl : BitVec 4) : (record code sev fc cls idx p1 p2 p3 s fl).pending = s.pending := rfl
@[simp] theorem record_clk (code : Half) (sev fc : BitVec 2) (cls : BitVec 6) (idx p1 p2 p3 : Nat) (s : State) (fl : BitVec 4) : (record code sev fc cls idx p1 p2 p3 s fl).clk = s.clk := rfl
@[simp] theorem record_zone (code : Half) (sev fc : BitVec 2) (cls : BitVec 6) (idx p1 p2 p3 : Nat) (s : State) (fl : BitVec 4) : (record code sev fc cls idx p1 p2 p3 s fl).zone = s.zone := rfl
@[simp] theorem record_ev (code : Half) (sev fc : BitVec 2) (cls : BitVec 6) (idx p1 p2 p3 : Nat) (s : State) (fl : BitVec 4) : (record code sev fc cls idx p1 p2 p3 s fl).ev = s.ev := rfl
@[simp] theorem record_cmd (code : Half) (sev fc : BitVec 2) (cls : BitVec 6) (idx p1 p2 p3 : Nat) (s : State) (fl : BitVec 4) : (record code sev fc cls idx p1 p2 p3 s fl).cmd = s.cmd := rfl
@[simp] theorem record_hosts (code : Half) (sev fc : BitVec 2) (cls : BitVec 6) (idx p1 p2 p3 : Nat) (s : State) (fl : BitVec 4) : (record code sev fc cls idx p1 p2 p3 s fl).hosts = s.hosts := rfl
@[simp] theorem record_boot (code : Half) (sev fc : BitVec 2) (cls : BitVec 6) (idx p1 p2 p3 : Nat) (s : State) (fl : BitVec 4) : (record code sev fc cls idx p1 p2 p3 s fl).boot = s.boot := rfl
@[simp] theorem record_plan (code : Half) (sev fc : BitVec 2) (cls : BitVec 6) (idx p1 p2 p3 : Nat) (s : State) (fl : BitVec 4) : (record code sev fc cls idx p1 p2 p3 s fl).plan = s.plan := rfl
@[simp] theorem record_dom (code : Half) (sev fc : BitVec 2) (cls : BitVec 6) (idx p1 p2 p3 : Nat) (s : State) (fl : BitVec 4) : (record code sev fc cls idx p1 p2 p3 s fl).dom = s.dom := rfl
@[simp] theorem record_rfx (code : Half) (sev fc : BitVec 2) (cls : BitVec 6) (idx p1 p2 p3 : Nat) (s : State) (fl : BitVec 4) : (record code sev fc cls idx p1 p2 p3 s fl).rfx = s.rfx := rfl
@[simp] theorem record_flt (code : Half) (sev fc : BitVec 2) (cls : BitVec 6) (idx p1 p2 p3 : Nat) (s : State) (fl : BitVec 4) : (record code sev fc cls idx p1 p2 p3 s fl).flt = s.flt := rfl
@[simp] theorem record_ks (code : Half) (sev fc : BitVec 2) (cls : BitVec 6) (idx p1 p2 p3 : Nat) (s : State) (fl : BitVec 4) : (record code sev fc cls idx p1 p2 p3 s fl).ks = s.ks := rfl
@[simp] theorem record_nv (code : Half) (sev fc : BitVec 2) (cls : BitVec 6) (idx p1 p2 p3 : Nat) (s : State) (fl : BitVec 4) : (record code sev fc cls idx p1 p2 p3 s fl).nv = s.nv := rfl
@[simp] theorem record_outs (code : Half) (sev fc : BitVec 2) (cls : BitVec 6) (idx p1 p2 p3 : Nat) (s : State) (fl : BitVec 4) : (record code sev fc cls idx p1 p2 p3 s fl).outs = s.outs := rfl
@[simp] theorem record_regs (code : Half) (sev fc : BitVec 2) (cls : BitVec 6) (idx p1 p2 p3 : Nat) (s : State) (fl : BitVec 4) : (record code sev fc cls idx p1 p2 p3 s fl).regs = s.regs := rfl
@[simp] theorem record_prune (code : Half) (sev fc : BitVec 2) (cls : BitVec 6) (idx p1 p2 p3 : Nat) (s : State) (fl : BitVec 4) : (record code sev fc cls idx p1 p2 p3 s fl).prune = s.prune := rfl
@[simp] theorem record_modb (code : Half) (sev fc : BitVec 2) (cls : BitVec 6) (idx p1 p2 p3 : Nat) (s : State) (fl : BitVec 4) : (record code sev fc cls idx p1 p2 p3 s fl).modb = s.modb := rfl
@[simp] theorem record_brs (code : Half) (sev fc : BitVec 2) (cls : BitVec 6) (idx p1 p2 p3 : Nat) (s : State) (fl : BitVec 4) : (record code sev fc cls idx p1 p2 p3 s fl).brs = s.brs := rfl
@[simp] theorem record_legs (code : Half) (sev fc : BitVec 2) (cls : BitVec 6) (idx p1 p2 p3 : Nat) (s : State) (fl : BitVec 4) : (record code sev fc cls idx p1 p2 p3 s fl).legs = s.legs := rfl
@[simp] theorem record_vls (code : Half) (sev fc : BitVec 2) (cls : BitVec 6) (idx p1 p2 p3 : Nat) (s : State) (fl : BitVec 4) : (record code sev fc cls idx p1 p2 p3 s fl).vls = s.vls := rfl
@[simp] theorem record_vhs (code : Half) (sev fc : BitVec 2) (cls : BitVec 6) (idx p1 p2 p3 : Nat) (s : State) (fl : BitVec 4) : (record code sev fc cls idx p1 p2 p3 s fl).vhs = s.vhs := rfl
@[simp] theorem record_io (code : Half) (sev fc : BitVec 2) (cls : BitVec 6) (idx p1 p2 p3 : Nat) (s : State) (fl : BitVec 4) : (record code sev fc cls idx p1 p2 p3 s fl).io = s.io := rfl
@[simp] theorem record_net (code : Half) (sev fc : BitVec 2) (cls : BitVec 6) (idx p1 p2 p3 : Nat) (s : State) (fl : BitVec 4) : (record code sev fc cls idx p1 p2 p3 s fl).net = s.net := rfl
@[simp] theorem record_acc (code : Half) (sev fc : BitVec 2) (cls : BitVec 6) (idx p1 p2 p3 : Nat) (s : State) (fl : BitVec 4) : (record code sev fc cls idx p1 p2 p3 s fl).acc = s.acc := rfl
@[simp] theorem record_trl (code : Half) (sev fc : BitVec 2) (cls : BitVec 6) (idx p1 p2 p3 : Nat) (s : State) (fl : BitVec 4) : (record code sev fc cls idx p1 p2 p3 s fl).trl = s.trl := rfl
@[simp] theorem record_adc (code : Half) (sev fc : BitVec 2) (cls : BitVec 6) (idx p1 p2 p3 : Nat) (s : State) (fl : BitVec 4) : (record code sev fc cls idx p1 p2 p3 s fl).adc = s.adc := rfl

/-! ### note: what it leaves alone -/

@[simp] theorem note_pending (code : Half) (sev : BitVec 2) (cls : BitVec 6) (idx p1 p2 p3 : Nat) (s : State) : (note code sev cls idx p1 p2 p3 s).pending = s.pending := rfl
@[simp] theorem note_clk (code : Half) (sev : BitVec 2) (cls : BitVec 6) (idx p1 p2 p3 : Nat) (s : State) : (note code sev cls idx p1 p2 p3 s).clk = s.clk := rfl
@[simp] theorem note_zone (code : Half) (sev : BitVec 2) (cls : BitVec 6) (idx p1 p2 p3 : Nat) (s : State) : (note code sev cls idx p1 p2 p3 s).zone = s.zone := rfl
@[simp] theorem note_ev (code : Half) (sev : BitVec 2) (cls : BitVec 6) (idx p1 p2 p3 : Nat) (s : State) : (note code sev cls idx p1 p2 p3 s).ev = s.ev := rfl
@[simp] theorem note_cmd (code : Half) (sev : BitVec 2) (cls : BitVec 6) (idx p1 p2 p3 : Nat) (s : State) : (note code sev cls idx p1 p2 p3 s).cmd = s.cmd := rfl
@[simp] theorem note_hosts (code : Half) (sev : BitVec 2) (cls : BitVec 6) (idx p1 p2 p3 : Nat) (s : State) : (note code sev cls idx p1 p2 p3 s).hosts = s.hosts := rfl
@[simp] theorem note_boot (code : Half) (sev : BitVec 2) (cls : BitVec 6) (idx p1 p2 p3 : Nat) (s : State) : (note code sev cls idx p1 p2 p3 s).boot = s.boot := rfl
@[simp] theorem note_plan (code : Half) (sev : BitVec 2) (cls : BitVec 6) (idx p1 p2 p3 : Nat) (s : State) : (note code sev cls idx p1 p2 p3 s).plan = s.plan := rfl
@[simp] theorem note_dom (code : Half) (sev : BitVec 2) (cls : BitVec 6) (idx p1 p2 p3 : Nat) (s : State) : (note code sev cls idx p1 p2 p3 s).dom = s.dom := rfl
@[simp] theorem note_rfx (code : Half) (sev : BitVec 2) (cls : BitVec 6) (idx p1 p2 p3 : Nat) (s : State) : (note code sev cls idx p1 p2 p3 s).rfx = s.rfx := rfl
@[simp] theorem note_flt (code : Half) (sev : BitVec 2) (cls : BitVec 6) (idx p1 p2 p3 : Nat) (s : State) : (note code sev cls idx p1 p2 p3 s).flt = s.flt := rfl
@[simp] theorem note_ks (code : Half) (sev : BitVec 2) (cls : BitVec 6) (idx p1 p2 p3 : Nat) (s : State) : (note code sev cls idx p1 p2 p3 s).ks = s.ks := rfl
@[simp] theorem note_nv (code : Half) (sev : BitVec 2) (cls : BitVec 6) (idx p1 p2 p3 : Nat) (s : State) : (note code sev cls idx p1 p2 p3 s).nv = s.nv := rfl
@[simp] theorem note_outs (code : Half) (sev : BitVec 2) (cls : BitVec 6) (idx p1 p2 p3 : Nat) (s : State) : (note code sev cls idx p1 p2 p3 s).outs = s.outs := rfl
@[simp] theorem note_regs (code : Half) (sev : BitVec 2) (cls : BitVec 6) (idx p1 p2 p3 : Nat) (s : State) : (note code sev cls idx p1 p2 p3 s).regs = s.regs := rfl
@[simp] theorem note_prune (code : Half) (sev : BitVec 2) (cls : BitVec 6) (idx p1 p2 p3 : Nat) (s : State) : (note code sev cls idx p1 p2 p3 s).prune = s.prune := rfl
@[simp] theorem note_modb (code : Half) (sev : BitVec 2) (cls : BitVec 6) (idx p1 p2 p3 : Nat) (s : State) : (note code sev cls idx p1 p2 p3 s).modb = s.modb := rfl
@[simp] theorem note_brs (code : Half) (sev : BitVec 2) (cls : BitVec 6) (idx p1 p2 p3 : Nat) (s : State) : (note code sev cls idx p1 p2 p3 s).brs = s.brs := rfl
@[simp] theorem note_legs (code : Half) (sev : BitVec 2) (cls : BitVec 6) (idx p1 p2 p3 : Nat) (s : State) : (note code sev cls idx p1 p2 p3 s).legs = s.legs := rfl
@[simp] theorem note_vls (code : Half) (sev : BitVec 2) (cls : BitVec 6) (idx p1 p2 p3 : Nat) (s : State) : (note code sev cls idx p1 p2 p3 s).vls = s.vls := rfl
@[simp] theorem note_vhs (code : Half) (sev : BitVec 2) (cls : BitVec 6) (idx p1 p2 p3 : Nat) (s : State) : (note code sev cls idx p1 p2 p3 s).vhs = s.vhs := rfl
@[simp] theorem note_io (code : Half) (sev : BitVec 2) (cls : BitVec 6) (idx p1 p2 p3 : Nat) (s : State) : (note code sev cls idx p1 p2 p3 s).io = s.io := rfl
@[simp] theorem note_net (code : Half) (sev : BitVec 2) (cls : BitVec 6) (idx p1 p2 p3 : Nat) (s : State) : (note code sev cls idx p1 p2 p3 s).net = s.net := rfl
@[simp] theorem note_acc (code : Half) (sev : BitVec 2) (cls : BitVec 6) (idx p1 p2 p3 : Nat) (s : State) : (note code sev cls idx p1 p2 p3 s).acc = s.acc := rfl
@[simp] theorem note_trl (code : Half) (sev : BitVec 2) (cls : BitVec 6) (idx p1 p2 p3 : Nat) (s : State) : (note code sev cls idx p1 p2 p3 s).trl = s.trl := rfl
@[simp] theorem note_adc (code : Half) (sev : BitVec 2) (cls : BitVec 6) (idx p1 p2 p3 : Nat) (s : State) : (note code sev cls idx p1 p2 p3 s).adc = s.adc := rfl

/-! ### pushOccAt: what it leaves alone -/

@[simp] theorem pushOccAt_pending (k : OccKind) (z : Nat) (s : State) : (pushOccAt k z s).pending = s.pending := by rw [pushOccAt_frame k z s]
@[simp] theorem pushOccAt_clk (k : OccKind) (z : Nat) (s : State) : (pushOccAt k z s).clk = s.clk := by rw [pushOccAt_frame k z s]
@[simp] theorem pushOccAt_zone (k : OccKind) (z : Nat) (s : State) : (pushOccAt k z s).zone = s.zone := by rw [pushOccAt_frame k z s]
@[simp] theorem pushOccAt_cmd (k : OccKind) (z : Nat) (s : State) : (pushOccAt k z s).cmd = s.cmd := by rw [pushOccAt_frame k z s]
@[simp] theorem pushOccAt_hosts (k : OccKind) (z : Nat) (s : State) : (pushOccAt k z s).hosts = s.hosts := by rw [pushOccAt_frame k z s]
@[simp] theorem pushOccAt_boot (k : OccKind) (z : Nat) (s : State) : (pushOccAt k z s).boot = s.boot := by rw [pushOccAt_frame k z s]
@[simp] theorem pushOccAt_plan (k : OccKind) (z : Nat) (s : State) : (pushOccAt k z s).plan = s.plan := by rw [pushOccAt_frame k z s]
@[simp] theorem pushOccAt_dom (k : OccKind) (z : Nat) (s : State) : (pushOccAt k z s).dom = s.dom := by rw [pushOccAt_frame k z s]
@[simp] theorem pushOccAt_alm (k : OccKind) (z : Nat) (s : State) : (pushOccAt k z s).alm = s.alm := by rw [pushOccAt_frame k z s]
@[simp] theorem pushOccAt_flt (k : OccKind) (z : Nat) (s : State) : (pushOccAt k z s).flt = s.flt := by rw [pushOccAt_frame k z s]
@[simp] theorem pushOccAt_ks (k : OccKind) (z : Nat) (s : State) : (pushOccAt k z s).ks = s.ks := by rw [pushOccAt_frame k z s]
@[simp] theorem pushOccAt_nv (k : OccKind) (z : Nat) (s : State) : (pushOccAt k z s).nv = s.nv := by rw [pushOccAt_frame k z s]
@[simp] theorem pushOccAt_outs (k : OccKind) (z : Nat) (s : State) : (pushOccAt k z s).outs = s.outs := by rw [pushOccAt_frame k z s]
@[simp] theorem pushOccAt_regs (k : OccKind) (z : Nat) (s : State) : (pushOccAt k z s).regs = s.regs := by rw [pushOccAt_frame k z s]
@[simp] theorem pushOccAt_prune (k : OccKind) (z : Nat) (s : State) : (pushOccAt k z s).prune = s.prune := by rw [pushOccAt_frame k z s]
@[simp] theorem pushOccAt_modb (k : OccKind) (z : Nat) (s : State) : (pushOccAt k z s).modb = s.modb := by rw [pushOccAt_frame k z s]
@[simp] theorem pushOccAt_brs (k : OccKind) (z : Nat) (s : State) : (pushOccAt k z s).brs = s.brs := by rw [pushOccAt_frame k z s]
@[simp] theorem pushOccAt_legs (k : OccKind) (z : Nat) (s : State) : (pushOccAt k z s).legs = s.legs := by rw [pushOccAt_frame k z s]
@[simp] theorem pushOccAt_vls (k : OccKind) (z : Nat) (s : State) : (pushOccAt k z s).vls = s.vls := by rw [pushOccAt_frame k z s]
@[simp] theorem pushOccAt_vhs (k : OccKind) (z : Nat) (s : State) : (pushOccAt k z s).vhs = s.vhs := by rw [pushOccAt_frame k z s]
@[simp] theorem pushOccAt_io (k : OccKind) (z : Nat) (s : State) : (pushOccAt k z s).io = s.io := by rw [pushOccAt_frame k z s]
@[simp] theorem pushOccAt_net (k : OccKind) (z : Nat) (s : State) : (pushOccAt k z s).net = s.net := by rw [pushOccAt_frame k z s]
@[simp] theorem pushOccAt_acc (k : OccKind) (z : Nat) (s : State) : (pushOccAt k z s).acc = s.acc := by rw [pushOccAt_frame k z s]
@[simp] theorem pushOccAt_trl (k : OccKind) (z : Nat) (s : State) : (pushOccAt k z s).trl = s.trl := by rw [pushOccAt_frame k z s]
@[simp] theorem pushOccAt_adc (k : OccKind) (z : Nat) (s : State) : (pushOccAt k z s).adc = s.adc := by rw [pushOccAt_frame k z s]

theorem pushOcc_eq (k : OccKind) (s : State) : pushOcc k s = pushOccAt k (zone s) s := rfl

/-! ### touch: what it leaves alone -/

@[simp] theorem touch_pending (d : Fin 16) (s : State) : (touch d s).pending = s.pending := rfl
@[simp] theorem touch_clk (d : Fin 16) (s : State) : (touch d s).clk = s.clk := rfl
@[simp] theorem touch_zone (d : Fin 16) (s : State) : (touch d s).zone = s.zone := rfl
@[simp] theorem touch_ev (d : Fin 16) (s : State) : (touch d s).ev = s.ev := rfl
@[simp] theorem touch_cmd (d : Fin 16) (s : State) : (touch d s).cmd = s.cmd := rfl
@[simp] theorem touch_hosts (d : Fin 16) (s : State) : (touch d s).hosts = s.hosts := rfl
@[simp] theorem touch_boot (d : Fin 16) (s : State) : (touch d s).boot = s.boot := rfl
@[simp] theorem touch_plan (d : Fin 16) (s : State) : (touch d s).plan = s.plan := rfl
@[simp] theorem touch_rfx (d : Fin 16) (s : State) : (touch d s).rfx = s.rfx := rfl
@[simp] theorem touch_alm (d : Fin 16) (s : State) : (touch d s).alm = s.alm := rfl
@[simp] theorem touch_flt (d : Fin 16) (s : State) : (touch d s).flt = s.flt := rfl
@[simp] theorem touch_ks (d : Fin 16) (s : State) : (touch d s).ks = s.ks := rfl
@[simp] theorem touch_nv (d : Fin 16) (s : State) : (touch d s).nv = s.nv := rfl
@[simp] theorem touch_outs (d : Fin 16) (s : State) : (touch d s).outs = s.outs := rfl
@[simp] theorem touch_regs (d : Fin 16) (s : State) : (touch d s).regs = s.regs := rfl
@[simp] theorem touch_prune (d : Fin 16) (s : State) : (touch d s).prune = s.prune := rfl
@[simp] theorem touch_modb (d : Fin 16) (s : State) : (touch d s).modb = s.modb := rfl
@[simp] theorem touch_brs (d : Fin 16) (s : State) : (touch d s).brs = s.brs := rfl
@[simp] theorem touch_legs (d : Fin 16) (s : State) : (touch d s).legs = s.legs := rfl
@[simp] theorem touch_vls (d : Fin 16) (s : State) : (touch d s).vls = s.vls := rfl
@[simp] theorem touch_vhs (d : Fin 16) (s : State) : (touch d s).vhs = s.vhs := rfl
@[simp] theorem touch_io (d : Fin 16) (s : State) : (touch d s).io = s.io := rfl
@[simp] theorem touch_net (d : Fin 16) (s : State) : (touch d s).net = s.net := rfl
@[simp] theorem touch_acc (d : Fin 16) (s : State) : (touch d s).acc = s.acc := rfl
@[simp] theorem touch_trl (d : Fin 16) (s : State) : (touch d s).trl = s.trl := rfl
@[simp] theorem touch_adc (d : Fin 16) (s : State) : (touch d s).adc = s.adc := rfl

/-! ### What the shared operations leave of `kept` -/

@[simp] theorem raise_kept (e : Nat) (s : State) : (raise e s).kept = s.kept := by simp [State.kept]
@[simp] theorem raiseIf_kept (b : Bool) (e : Nat) (s : State) : (raiseIf b e s).kept = s.kept := by simp [State.kept]
@[simp] theorem record_kept (code : Half) (sev fc : BitVec 2) (cls : BitVec 6) (idx p1 p2 p3 : Nat) (s : State) (fl : BitVec 4) :
    (record code sev fc cls idx p1 p2 p3 s fl).kept = s.kept := rfl
@[simp] theorem note_kept (code : Half) (sev : BitVec 2) (cls : BitVec 6) (idx p1 p2 p3 : Nat) (s : State) :
    (note code sev cls idx p1 p2 p3 s).kept = s.kept := rfl
@[simp] theorem drew_kept (s : State) : (drew s).kept = s.kept := rfl
@[simp] theorem touch_kept (d : Fin 16) (s : State) : (touch d s).kept = s.kept := rfl
@[simp] theorem modDom_kept (d : Fin 16) (f : DomOne → DomOne) (s : State) : (modDom d f s).kept = s.kept := rfl
@[simp] theorem modHost_kept (h : Fin 14) (f : HostSt → HostSt) (s : State) : (modHost h f s).kept = s.kept := rfl
@[simp] theorem modSlot_kept (k : Fin 64) (f : KeySlot → KeySlot) (s : State) : (modSlot k f s).kept = s.kept := rfl
@[simp] theorem modRfx_kept (i : Fin 128) (f : RfxEntry → RfxEntry) (s : State) : (modRfx i f s).kept = s.kept := rfl
@[simp] theorem modBlk_kept (b : Fin 25) (f : BlkSt → BlkSt) (s : State) : (modBlk b f s).kept = s.kept := rfl
@[simp] theorem pushOccAt_kept (k : OccKind) (z : Nat) (s : State) : (pushOccAt k z s).kept = s.kept := by
  simp [State.kept, pushOccAt_mask, pushOccAt_route, pushOccAt_fired]

@[simp] theorem stickCmd_kept (m : BitVec 12) (s : State) : (stickCmd m s).kept = s.kept := by simp [stickCmd]; rfl
@[simp] theorem stickDom_kept (d : Fin 16) (m : BitVec 6) (s : State) : (stickDom d m s).kept = s.kept := by simp [stickDom]
@[simp] theorem stickReg_kept (m : BitVec 4) (s : State) : (stickReg m s).kept = s.kept := by simp [stickReg]; rfl
@[simp] theorem stickPlan_kept (m : BitVec 4) (s : State) : (stickPlan m s).kept = s.kept := by simp [stickPlan]; rfl
@[simp] theorem stickAlm_kept (m : BitVec 8) (s : State) : (stickAlm m s).kept = s.kept := by simp [stickAlm]; rfl
@[simp] theorem stickSlot_kept (k : Fin 64) (m : BitVec 8) (s : State) : (stickSlot k m s).kept = s.kept := by simp [stickSlot]
@[simp] theorem stickRfx_kept (i : Fin 128) (m : BitVec 4) (s : State) : (stickRfx i m s).kept = s.kept := by simp [stickRfx]

@[simp] theorem startRoot_kept (s : State) : (startRoot s).kept = s.kept := rfl
@[simp] theorem startUpOne_kept (d : Fin 16) (s : State) : (startUpOne d s).kept = s.kept := by
  unfold startUpOne; split <;> simp
@[simp] theorem wakeOne_kept (d : Fin 16) (s : State) (b : BitVec 6) : (wakeOne d s b).kept = s.kept := by
  unfold wakeOne; split
  · simp
  · split
    · simp
    · split <;> simp
/-- Waking a domain for an internal demand. -/
@[simp] theorem wakeInternal_kept (d : Fin 16) (s : State) (b : BitVec 6) : (wakeInternal d s b).kept = s.kept := by
  unfold wakeInternal; dsimp only; split <;> simp
@[simp] theorem startUp_kept (d : Fin 16) (s : State) : (startUp d s).kept = s.kept := by
  unfold startUp; dsimp only; split <;> simp
@[simp] theorem wakeOnAccess_kept (d : Fin 16) (s : State) : (wakeOnAccess d s).kept = s.kept := by
  unfold wakeOnAccess; split <;> simp
/-- Putting a packet into an outgoing buffer. -/
@[simp] theorem pushOut_kept (h : Fin 16) (o : OutPkt) (s : State) : (pushOut h o s).kept = s.kept := by
  unfold pushOut
  split
  · dsimp only; split
    · rfl
    · split
      · simp
      · split <;> simp
  · rfl
/-- A frame on the wire is no part of what is kept. -/
@[simp] theorem sendFrame_kept (p : Fin 3) (c : BitVec 3) (f : EthFrame) (s : State) : (sendFrame p c f s).kept = s.kept := by
  unfold sendFrame; split <;> rfl
@[simp] theorem pushReply_kept (src : Option EthSrc) (r : Packet) (c : BitVec 3) (m : ReplyMark) (s : State) :
    (pushReply src r c m s).kept = s.kept := by
  unfold pushReply directReply
  split
  · split
    · split <;> simp
    · rfl
  · simp
@[simp] theorem buildAuthReply_kept (r : Packet) (k : Fin 64) (src : Option EthSrc) (c : BitVec 3) (m : ReplyMark) (s : State) :
    (buildAuthReply r k src c m s).kept = s.kept := by
  unfold buildAuthReply; dsimp only; split <;> simp
/-- Answering a request. -/
@[simp] theorem sendReply_kept (q : QPkt) (c d : Half) (l : List Byte) (t : Option (BitVec 64)) (m : ReplyMark) (s : State) :
    (sendReply q c d l t m s).kept = s.kept := by
  unfold sendReply
  split
  · dsimp only; split
    · split
      · simp
      · simp only [wakeInternal_kept]; rfl
    · simp
  · rfl

end Sys2Proof.Machine
end

