-- ==== Sys2Proof/Laws/Packets.lean ====
section
/-! SUPPORT. What the completion of a packet leaves alone, and how a packet row runs from its checks to its completion. -/

namespace Sys2Proof.Machine

/-! ### Completion -/

@[simp] theorem dropQ_kept (n : Nat) (s : State) : (dropQ n s).kept = s.kept := rfl
@[simp] theorem putQ_kept (q : QPkt) (s : State) : (putQ q s).kept = s.kept := rfl

@[simp] theorem planDone_kept (p : Packet) (c : Half) (s : State) : (planDone p c s).kept = s.kept := by
  unfold planDone; split
  · rfl
  · simp
@[simp] theorem answerBroken_kept (q : QPkt) (s : State) : (answerBroken q s).kept = s.kept := by
  unfold answerBroken; simp only [sendReply_kept]; split <;> simp

theorem chainDone_kept (n : Nat) (c : Half) (s : State) : (chainDone n c s).kept = s.kept := by
  unfold chainDone
  split
  · rfl
  · dsimp only
    split
    · split <;> rfl
    · have h (l : List QPkt) (s : State) : (l.foldl (fun s q => answerBroken q s) s).kept = s.kept :=
        foldl_keeps State.kept _ (fun b a => answerBroken_kept a b) l s
      split
      · rw [stickCmd_kept, h]; rfl
      · rw [h]; rfl

@[simp] theorem reflexDone_kept (p : Packet) (c : Half) (s : State) : (reflexDone p c s).kept = s.kept := by
  unfold reflexDone; dsimp only; split <;> simp

@[simp] theorem bcastAnswer_kept (m : Nat) (h : Fin 16) (t : Half) (n : Word) (g o : Bool) (s : State) :
    (bcastAnswer m h t n g o s).kept = s.kept := by
  unfold bcastAnswer
  split
  · rfl
  · dsimp only; split
    · rfl
    · split
      · rw [pushOut_kept]; rfl
      · rfl

/-- Completing a packet does nothing but its bookkeeping and its reply. -/
@[simp] theorem complete_kept (q : QPkt) (a : Ans) (s : State) (m : ReplyMark) : (complete q a s m).kept = s.kept := by
  unfold complete
  dsimp only
  repeat' split
  all_goals simp [chainDone_kept]

/-! ### A packet of one unit -/

theorem domCheck_on (d : Fin 16) (s : State) (h : domOn d s = true) : domCheck d s = .go := by
  have e : domState d s = .on := by simpa [domOn] using h
  simp [domCheck, e, DomState.answer]

theorem domChecks_on (ds : List (Fin 16)) (s : State) (h : ∀ d ∈ ds, domOn d s = true) : domChecks ds s = .go := by
  induction ds with
  | nil => rfl
  | cons d ds ih =>
    have h1 := domCheck_on d s (h d (by simp))
    have h2 := ih fun e he => h e (by simp [he])
    simp [domChecks, h1, h2]

/-- Using domains changes their idle times alone. -/
theorem touch_all (ds : List (Fin 16)) (s : State) :
    let t := ds.foldl (fun s d => touch d s) s
    t = { s with dom := t.dom } ∧ t.dom = { s.dom with dom := t.dom.dom }
      ∧ ∀ d : Fin 16, t.dom.dom[d] = { s.dom.dom[d] with idleSince := t.dom.dom[d].idleSince } := by
  induction ds generalizing s with
  | nil => exact ⟨rfl, rfl, fun _ => rfl⟩
  | cons e ds ih =>
    obtain ⟨h1, h2, h3⟩ := ih (touch e s)
    dsimp only [List.foldl_cons] at *
    generalize List.foldl (fun s d => touch d s) (touch e s) ds = t at *
    refine ⟨?_, ?_, ?_⟩
    · rw [h1]; rfl
    · rw [h2]; rfl
    · intro d
      rw [h3 d]
      have : (touch e s).dom.dom[d] = { s.dom.dom[d] with idleSince := (touch e s).dom.dom[d].idleSince } := by
        simp only [touch, modDom]
        by_cases hd : e = d
        · subst hd; simp
        · have : e.val ≠ d.val := fun h => hd (Fin.ext h)
          simp [Vector.getElem_set_ne, this]
      rw [this]

theorem entered_putQ {s t : State} (h : Entered s t) (q : QPkt) : Entered s (putQ q t) := by
  obtain ⟨h1, h2, h3, h4⟩ := h
  refine ⟨?_, ?_, h3, h4⟩
  · rw [h1]; rfl
  · obtain ⟨w, hw⟩ : ∃ w, (putQ q t).cmd = { t.cmd with waiting := w } := ⟨_, rfl⟩
    rw [hw, h2]

theorem entered_touches {s t : State} (h : Entered s t) (ds : List (Fin 16)) :
    Entered s (ds.foldl (fun s d => touch d s) t) := by
  obtain ⟨h1, h2, h3, h4⟩ := h
  obtain ⟨k1, k2, k3⟩ := touch_all ds t
  dsimp only at k1 k2 k3
  generalize ds.foldl (fun s d => touch d s) t = u at *
  have hc : u.cmd = t.cmd := by rw [k1]
  refine ⟨?_, ?_, ?_, ?_⟩
  · rw [k1, h1]
  · rw [hc, h2]
  · rw [k2, h3]
  · intro d; rw [k3 d, h4 d]

theorem entered_domOn {s t : State} (h : Entered s t) (d : Fin 16) : domOn d t = domOn d s := by
  have : t.dom.dom[d].st = s.dom.dom[d].st := by rw [h.2.2.2 d]
  exact congrArg (fun x => decide (x = DomState.on)) this

theorem entered_join (s : State) (q : QPkt) :
    Entered s (modCmd (fun c => { c with waiting := q :: c.waiting, arrivals := c.arrivals + 1 }) s) :=
  ⟨rfl, rfl, rfl, fun _ => rfl⟩

theorem runPart_go (spec : OpSpec) (q : QPkt) (u : UnitRef) (s : State) (h1 : q.late = false) (h2 : q.effect = none)
    (hd : domChecks (unitDoms spec q u s) s = .go) (hp : spec.parOk q.pkt.payload = true)
    (ht : q.todo.filter (fun x => decide (x ≠ u)) = [])
    (hin : (spec.inner q.pkt ((unitDoms spec q u s).foldl (fun s d => touch d s) s)).all
      (innerReady · ((unitDoms spec q u s).foldl (fun s d => touch d s) s)) = true) :
    runPart spec q u s =
      (let t0 := (unitDoms spec q u s).foldl (fun s d => touch d s) s
       let t1 := (spec.inner q.pkt t0).foldl (fun s d => touch d s) t0
       let r : UnitRes × State := match spec.act with
         | .perUnit f _ => f q u t1
         | .whole _ => (⟨u, 0, 0, 0⟩, t1)
       let q' := { q with todo := [], results := q.results ++ [r.1] }
       finishParts spec q' (putQ q' r.2)) := by
  obtain ⟨pkt, seq, todo, units, results, staged, effect, late, authOk, ranLate, busy, chain, pcp⟩ := q
  dsimp only at h1 h2
  subst h1 h2
  unfold runPart
  simp only [Bool.or_false] at *
  rw [hd]
  dsimp only
  rw [if_neg (by simp [hp]), if_neg (by rw [hin]; decide), ht]
  rfl

/-- A packet row with one addressed unit, its domains on: it acts in a state that `s` has entered. -/
theorem runRow_one (spec : OpSpec) (op : Half) (p : Packet) (s : State) (u : UnitRef)
    (hr : engineRuns s = true) (ha : alwaysAuth op p.host = true → p.auth = true)
    (hl : spec.lenOk p.payload = true) (hres : spec.resOk p.payload = true)
    (hu : spec.units { p with opcode := op } s = [u]) (hb : ∀ w ∈ s.cmd.waiting, u ∈ w.todo → w.busy = false)
    (hd : ∀ d ∈ rowDoms spec { p with opcode := op } u, domOn d s = true)
    (hany : spec.anyOf { p with opcode := op } = [] ∨ ∃ d ∈ spec.anyOf { p with opcode := op }, domOn d s = true)
    (hp : spec.parOk p.payload = true)
    (hi : ∀ t, Entered s t → (spec.inner { p with opcode := op } t).all (innerReady · t) = true) :
    ∃ q t, Entered s t ∧ q.pkt = { p with opcode := op } ∧ q.units = [u] ∧ q.late = false ∧ q.results = []
      ∧ runRow spec op p s =
        (let r : UnitRes × State := match spec.act with
          | .perUnit f _ => f q u t
          | .whole _ => (⟨u, 0, 0, 0⟩, t)
         let q' := { q with todo := [], results := [r.1] }
         finishParts spec q' (putQ q' r.2)) := by
  let p' : Packet := { p with opcode := op }
  let q0 : QPkt := { mkQ p' [u] s with staged := true }
  let s1 := modCmd (fun c => { c with waiting := q0 :: c.waiting, arrivals := c.arrivals + 1 }) s
  have e1 : Entered s s1 := entered_join s q0
  let ds := unitDoms spec q0 u s1
  have hds : ∀ d ∈ ds, domOn d s1 = true := by
    intro d hd'
    rw [entered_domOn e1]
    simp only [ds, unitDoms] at hd'
    split at hd'
    · rcases List.mem_append.1 hd' with h | h
      · exact hd d (by simpa [rowDoms, q0, mkQ, p'] using h)
      · exfalso
        rcases hany with hn | ⟨e, he, hon⟩
        · simp [q0, mkQ, p', hn] at h
        · have : (spec.anyOf q0.pkt).any (fun d => domCheck d s1 = .go) = true := by
            rw [List.any_eq_true]
            exact ⟨e, he, by simpa using domCheck_on e s1 (by rw [entered_domOn e1]; exact hon)⟩
          simp [this] at h
    · rename_i hne
      exact hd d (by unfold rowDoms; split <;> simp_all)
  let t0 := ds.foldl (fun s d => touch d s) s1
  have e2 : Entered s t0 := entered_touches e1 ds
  let t1 := (spec.inner p' t0).foldl (fun s d => touch d s) t0
  have e3 : Entered s t1 := entered_touches e2 _
  refine ⟨q0, t1, e3, rfl, rfl, rfl, rfl, ?_⟩
  have hbusy : ([u].any fun u => (inQueue u s).any (·.busy)) = false := by
    simp only [List.any_cons, List.any_nil, Bool.or_false, inQueue]
    rw [List.any_eq_false]
    intro w hw
    have := List.mem_filter.1 hw
    simpa using hb w this.1 (by simpa using this.2)
  have hau : (alwaysAuth op p'.host && !p'.auth) = false := by
    cases hx : alwaysAuth op p.host with
    | false => rfl
    | true =>
      have := ha hx
      simp [p', this]
  unfold runRow
  simp only [hr, if_true]
  rw [hu, if_neg (by simp [hres]), if_neg (by simpa [p'] using hau), if_neg (by simp [hl]), if_neg (by simp [hbusy])]
  unfold runNow
  dsimp only
  show List.foldl _ s1 [u] = _
  simp only [List.foldl_cons, List.foldl_nil]
  have hf : s1.cmd.waiting.find? (·.seq = q0.seq) = some q0 := by simp [s1]
  show (match s1.cmd.waiting.find? (·.seq = q0.seq) with | some q' => if u ∈ q'.todo && !q'.busy then runPart spec q' u s1 else s1 | none => s1) = _
  rw [hf]
  dsimp only
  rw [if_pos (by simp [q0, mkQ])]
  exact runPart_go spec q0 u s1 rfl rfl (domChecks_on ds s1 hds) hp (by simp [q0, mkQ]) (hi t0 e2)


/-! ### How it ends -/

theorem lateUnits_of_not (q : QPkt) (a : Ans) (s : State) (h : q.late = false) : lateUnits q a s = s := by simp [lateUnits, h]

theorem finishParts_perUnit (spec : OpSpec) (q : QPkt) (s : State) (f : QPkt → UnitRef → State → UnitRes × State)
    (comb : QPkt → List UnitRes → State → Ans) (h : spec.act = .perUnit f comb) (hl : q.late = false) :
    finishParts spec q s = complete q (comb q q.results s) s := by
  unfold finishParts; rw [h]; dsimp only; rw [lateUnits_of_not _ _ _ hl]

theorem finishParts_some (spec : OpSpec) (q : QPkt) (s t : State) (u : UnitRef) (a : Ans)
    (f : QPkt → List UnitRef → State → Option Ans × State) (h : spec.act = .whole f) (hr : q.results = [⟨u, 0, 0, 0⟩])
    (hl : q.late = false) (hf : f q [u] s = (some a, t)) : ∃ m, finishParts spec q s = complete q a t m := by
  unfold finishParts
  rw [h]
  simp [hr, hf, partAns, lateUnits_of_not _ _ _ hl]
  all_goals exact ⟨_, rfl⟩

theorem finishParts_none (spec : OpSpec) (q : QPkt) (s t : State) (u : UnitRef)
    (f : QPkt → List UnitRef → State → Option Ans × State) (h : spec.act = .whole f) (hr : q.results = [⟨u, 0, 0, 0⟩])
    (hf : f q [u] s = (none, t)) : finishParts spec q s = putQ { q with busy := true, todo := q.units } t := by
  unfold finishParts
  rw [h]
  simp [hr, hf]

/-- A packet row of an opcode that acts once: it answers what its act answers in the state entered. -/
theorem answers_whole {c : Instr} {spec : OpSpec} {op : Half} {p : Packet} {s : State} {u : UnitRef}
    {f : QPkt → List UnitRef → State → Option Ans × State} {P : Ans → State → Prop}
    (hc : exec c s = runPacket spec op p s) (hact : spec.act = .whole f)
    (hat : AtHead op u (rowDoms spec { p with opcode := op } u) p s)
    (hl : spec.lenOk p.payload = true) (hres : spec.resOk p.payload = true)
    (hu : spec.units { p with opcode := op } (begin_ s) = [u])
    (hany : spec.anyOf { p with opcode := op } = [] ∨ ∃ d ∈ spec.anyOf { p with opcode := op }, domOn d s = true)
    (hp : spec.parOk p.payload = true)
    (hi : ∀ t, Entered (begin_ s) t → (spec.inner { p with opcode := op } t).all (innerReady · t) = true)
    (hf : ∀ q t, q.pkt = { p with opcode := op } → q.late = false → Entered (begin_ s) t →
      ∃ a t', f q [u] t = (some a, t') ∧ P a t') :
    Answers c op p s P := by
  obtain ⟨h1, h2, h3, h4⟩ := hat
  obtain ⟨q, t, e, hq, _, hla, hr, hrun⟩ :=
    runRow_one spec op p (begin_ s) u h1 h2 hl hres hu h3 h4 hany hp hi
  rw [hact] at hrun
  dsimp only at hrun
  obtain ⟨a, t', hfa, hP⟩ := hf { q with todo := [], results := [⟨u, 0, 0, 0⟩] } _ hq hla
    (entered_putQ e { q with todo := [], results := [⟨u, 0, 0, 0⟩] })
  obtain ⟨m, hm⟩ := finishParts_some spec _ _ t' u a f hact rfl (by exact hla) hfa
  exact ⟨{ q with todo := [], results := [⟨u, 0, 0, 0⟩] }, m, a, t', by rw [hc]; unfold runPacket run; rw [hrun, hm], hq, hP⟩

/-- The same where the completion comes with another row. -/
theorem begins_whole {c : Instr} {spec : OpSpec} {op : Half} {p : Packet} {s : State} {u : UnitRef}
    {f : QPkt → List UnitRef → State → Option Ans × State} {P : QPkt → State → Prop}
    (hc : exec c s = runPacket spec op p s) (hact : spec.act = .whole f)
    (hat : AtHead op u (rowDoms spec { p with opcode := op } u) p s)
    (hl : spec.lenOk p.payload = true) (hres : spec.resOk p.payload = true)
    (hu : spec.units { p with opcode := op } (begin_ s) = [u])
    (hany : spec.anyOf { p with opcode := op } = [] ∨ ∃ d ∈ spec.anyOf { p with opcode := op }, domOn d s = true)
    (hp : spec.parOk p.payload = true)
    (hi : ∀ t, Entered (begin_ s) t → (spec.inner { p with opcode := op } t).all (innerReady · t) = true)
    (hf : ∀ q t, q.pkt = { p with opcode := op } → q.late = false → Entered (begin_ s) t →
      ∃ t', f q [u] t = (none, t') ∧ P q (putQ { q with busy := true, todo := q.units } t')) :
    Begins c s P := by
  obtain ⟨h1, h2, h3, h4⟩ := hat
  obtain ⟨q, t, e, hq, _, hla, hr, hrun⟩ :=
    runRow_one spec op p (begin_ s) u h1 h2 hl hres hu h3 h4 hany hp hi
  rw [hact] at hrun
  dsimp only at hrun
  obtain ⟨t', hfa, hP⟩ := hf { q with todo := [], results := [⟨u, 0, 0, 0⟩] } _ hq hla
    (entered_putQ e { q with todo := [], results := [⟨u, 0, 0, 0⟩] })
  refine ⟨_, _, ?_, hP⟩
  rw [hc]; unfold runPacket run; rw [hrun, finishParts_none spec _ _ t' u f hact rfl hfa]

/-- A packet row that addresses one unit of an opcode that acts unit by unit. -/
theorem answers_unit {c : Instr} {spec : OpSpec} {op : Half} {p : Packet} {s : State} {u : UnitRef}
    {f : QPkt → UnitRef → State → UnitRes × State} {comb : QPkt → List UnitRes → State → Ans} {P : Ans → State → Prop}
    (hc : exec c s = runPacket spec op p s) (hact : spec.act = .perUnit f comb)
    (hat : AtHead op u (rowDoms spec { p with opcode := op } u) p s)
    (hl : spec.lenOk p.payload = true) (hres : spec.resOk p.payload = true)
    (hu : spec.units { p with opcode := op } (begin_ s) = [u])
    (hany : spec.anyOf { p with opcode := op } = [] ∨ ∃ d ∈ spec.anyOf { p with opcode := op }, domOn d s = true)
    (hp : spec.parOk p.payload = true)
    (hi : ∀ t, Entered (begin_ s) t → (spec.inner { p with opcode := op } t).all (innerReady · t) = true)
    (hf : ∀ q q' t, q.pkt = { p with opcode := op } → q'.pkt = { p with opcode := op } → q.late = false → Entered (begin_ s) t →
      P (comb q' [(f q u t).1] (putQ q' (f q u t).2)) (putQ q' (f q u t).2)) :
    Answers c op p s P := by
  obtain ⟨h1, h2, h3, h4⟩ := hat
  obtain ⟨q, t, e, hq, _, hla, hr, hrun⟩ :=
    runRow_one spec op p (begin_ s) u h1 h2 hl hres hu h3 h4 hany hp hi
  rw [hact] at hrun
  dsimp only at hrun
  refine ⟨{ q with todo := [], results := [(f q u t).1] }, .none, _, _, ?_, hq, hf q { q with todo := [], results := [(f q u t).1] } t hq hq hla e⟩
  rw [hc]; unfold runPacket run; rw [hrun, finishParts_perUnit _ _ _ f comb hact (by exact hla)]

end Sys2Proof.Machine
end

