-- ==== Sys2Proof/Tests/Slice0.lean ====
section
/-! SUPPORT. The author's own tests: ill-formed commands that the checks refuse, the check codes and ciphers on published values,
single commands on small states, and for every statement with hypotheses states and operands that meet them. -/

set_option Elab.async false

namespace Sys2Proof.Tests

open Sys2Proof.Machine

/-! ### Builders -/

/-- A request of SPI host 0 with a wanted reply. -/
def pk (b : List Byte) (op : Half := 0) : Packet :=
  { host := 0, replyWanted := true, auth := false, chain := false, member := 0, prio := 0, opcode := op, tag := 0x77
    hostSeq := 1, keySlot := 0xFF, time := none, payload := b, cmac := [] }

/-- `n` zero bytes. -/
def zs (n : Nat) : List Byte := List.replicate n 0

/-- `n` zero bytes with some of them set. -/
def zw (n : Nat) (l : List (Nat × Byte)) : List Byte := l.foldl (fun b e => b.set e.1 e.2) (zs n)

/-- An AUTH request under key slot `k` with a given CMAC. -/
def pka (b : List Byte) (k : Byte := 0) (cmac : List Byte := zs 8) : Packet := { pk b with auth := true, keySlot := k, cmac := cmac }

/-- The block in operation: ready, no condition, every domain on, some time after reset. -/
def live : State :=
  { State.reset with boot := { BootSt.fresh with phase := 7, condition := 0 }, cmd := { CmdSt.fresh with ready := true }
                     clk := { Clk.fresh with now := 5000000000, d00Clock := 5000000000, cmdClock := 5000000000 } }

/-- `live` with the domains of a list in a given state. -/
def dst (l : List (Fin 16)) (x : DomState) (s : State := live) : State :=
  l.foldl (fun s d => modDom d (fun y => { y with st := x }) s) s

/-- `live` with its boot part changed. -/
def booted (phase condition : Nat) (s : State := live) : State := { s with boot := { s.boot with phase := phase, condition := condition } }

def qp (p : Packet) (u : UnitRef) : QPkt := mkQ p [u] live

/-! ### Ill-formed commands (one for each check) -/

theorem test_payload_too_long : (Instr.nop (pk (zs 1025))).wellFormed = false := by decide +kernel
theorem test_cmac_without_auth : (Instr.nop { pk [] with cmac := zs 8 }).wellFormed = false := by decide +kernel
theorem test_auth_without_cmac : (Instr.nop { pk [] with auth := true, keySlot := 0 }).wellFormed = false := by decide +kernel
theorem test_slot_without_auth : (Instr.nop { pk [] with keySlot := 3 }).wellFormed = false := by decide +kernel
theorem test_slot_past_63 : (Instr.nop (pka [] 64)).wellFormed = false := by decide +kernel
theorem test_opcode_of_other_row : (Instr.nop (pk [] 0x0001)).wellFormed = false := by decide +kernel
theorem test_good_packet : (Instr.outSet (pk (zs 28) 0x0200)).wellFormed = true := by decide +kernel
theorem test_reply_bit : (pk [] 0x8000).wellFormed = false := by decide +kernel
theorem test_can_too_long : (Instr.canFrameReceived 0 ⟨false, 1, false, false, false, false, zs 9⟩).wellFormed = false := by decide +kernel
theorem test_can_fd_length : (Instr.canFrameReceived 0 ⟨false, 1, true, false, false, false, zs 11⟩).wellFormed = false := by decide +kernel
theorem test_can_identifier : (Instr.canFrameReceived 0 ⟨false, 2048, false, false, false, false, []⟩).wellFormed = false := by decide +kernel
theorem test_can_remote_data : (Instr.canFrameReceived 0 ⟨false, 1, false, false, true, false, [1]⟩).wellFormed = false := by decide +kernel
theorem test_can_fd_good : (Instr.canFrameReceived 0 ⟨true, 2048, true, false, false, false, zs 12⟩).wellFormed = true := by decide +kernel
theorem test_eth_too_long :
    (Instr.switchFrame 0 ⟨0, 0, none, 0x0800, zs 1501⟩ 1522 true 0).wellFormed = false := by decide +kernel
theorem test_spi_too_long : (Instr.spiTransaction 0 (zs 4097)).wellFormed = false := by decide +kernel
theorem test_command_frame_too_long : (Instr.ethCommandFrame 0 0 0 0 (zs 1501)).wellFormed = false := by decide +kernel
theorem test_wake_frame_too_long : (Instr.endpointFrameWake 0 0 0 0 (zs 1501)).wellFormed = false := by decide +kernel
theorem test_rake_of_63 : (Instr.rakeSample (List.replicate 63 0)).wellFormed = false := by decide +kernel
theorem test_pulse_of_65 : (Instr.cyclicPulse (List.replicate 65 0)).wellFormed = false := by decide +kernel
theorem test_confirm_of_63 : (Instr.cyclicConfirm (List.replicate 63 0)).wellFormed = false := by decide +kernel
theorem test_field_of_15 : (Instr.fieldInputSample (List.replicate 15 0)).wellFormed = false := by decide +kernel
theorem test_learn_of_9 : (Instr.learnSpanEnd 0 (List.replicate 9 0)).wellFormed = false := by decide +kernel
theorem test_lin_too_long : (Instr.linFrameReceived 0 (zs 9) true true).wellFormed = false := by decide +kernel
theorem test_link_reserved : (Instr.linkChange 0 3).wellFormed = false := by decide +kernel
theorem test_group_mac_age : (Instr.macEntryAge 0x010000000000 0).wellFormed = false := by decide +kernel
theorem test_trellis_too_long : (Instr.trellisFrameReceived 0 (zs 1069)).wellFormed = false := by decide +kernel
theorem test_fatal_code : (Instr.fatalFault 0x11).wellFormed = false := by decide +kernel

/-! ### Check codes and ciphers on published values -/

/-- R44: the CRC-16 of the characters 123456789. -/
theorem test_crc16 : crc16 ((List.range 9).map fun i => BitVec.ofNat 8 (0x31 + i)) = 0x29B1 := by decide +kernel
/-- R45: the CRC-32 of the same characters. -/
theorem test_crc32 : crc32 ((List.range 9).map fun i => BitVec.ofNat 8 (0x31 + i)) = 0xCBF43926 := by decide +kernel
/-- FIPS 197, appendix C.1. -/
theorem test_aes : Crypto.aes ((List.range 16).map (BitVec.ofNat 8)) ((List.range 16).map fun i => BitVec.ofNat 8 (17 * i))
    = be 16 0x69c4e0d86a7b0430d8cdb78070b4c55a := by decide +kernel
/-- RFC 4493, example 1. -/
theorem test_cmac_empty : Crypto.cmac (be 16 0x2b7e151628aed2a6abf7158809cf4f3c) [] = be 16 0xbb1d6929e95937287fa37d129b756746 := by
  decide +kernel
/-- RFC 3394, section 4.1. -/
theorem test_key_wrap : Crypto.keyWrap ((List.range 16).map (BitVec.ofNat 8)) ((List.range 16).map fun i => BitVec.ofNat 8 (17 * i))
    = be 24 0x1fa68b0a8112b447aef34bd8fb5a7b829d3e862371d2cfe5 := by decide +kernel

/-! ### Single commands -/

/-- The state after a command that goes on. -/
def after (c : Instr) (s : State) : State :=
  match exec c s with
  | .next t => t
  | _ => s

/-- R76, Table 2-6: the reply carries the opcode with bit 15, the tag and the status OK. -/
theorem test_nop_reply : (after (.nop (pk [])) live).hosts[0].out.map (fun o => (halfAt o.bytes 2, halfAt o.bytes 4, halfAt o.bytes 16)) = [(0x8000, 0x77, 0x0000)] := by
  decide +kernel

/-- R82, Table 2-9: the data of IDENTIFY begin with the part code 0140h. -/
theorem test_identify : (after (.identify (pk [] 0x0001)) live).hosts[0].out.map (fun o => (halfAt o.bytes 16, halfAt o.bytes 20)) = [(0x0000, 0x0140)] := by
  decide +kernel

/-- Step 9 of Table 2-7: a payload of the wrong length that addresses a unit is answered BAD_LENGTH. -/
theorem test_bad_length : (after (.outSet (pk (zw 27 [(0, 1)]) 0x0200)) live).hosts[0].out.map (fun o => halfAt o.bytes 16) = [0x0021] := by
  decide +kernel

/-- Step 4 before step 9: the same payload without a unit is answered BAD_PARAM. -/
theorem test_no_unit : (after (.outSet (pk (zs 27) 0x0200)) live).hosts[0].out.map (fun o => halfAt o.bytes 16) = [0x0022] := by decide +kernel

/-- A command in front of the queue runs before the rest. -/
theorem test_step_order : (match step { live with pending := [.nop (pk []), .identify (pk [] 0x0001)] } with
    | .next t => (t.pending, t.hosts[0].out.length)
    | _ => ([], 0)) = ([.identify (pk [] 0x0001)], 1) := by decide +kernel

/-! ### Witnesses

For each statement with hypotheses, one theorem named after it: states and operands, written out, that meet all the hypotheses of each
of its clauses together, taken where a clause's range ends. -/

namespace ForStepRunsFrontCommand

theorem witness_StepRunsFrontCommand :
    (let c : Instr := Instr.lpBrownOut
     let rest : List Instr := []
     let s : State := { live with pending := [.lpBrownOut] }
     s.pending = c :: rest) := by
  decide +kernel

end ForStepRunsFrontCommand

namespace ForIdleQueueTicks

theorem witness_IdleQueueTicks :
    (let s : State := live
     s.pending = []) := by
  decide +kernel

end ForIdleQueueTicks

namespace ForEndOfCycleKeeps

theorem witness_EndOfCycleKeeps :
    (let s : State := live
     Calm s) := by
  unfold Calm; decide +kernel

end ForEndOfCycleKeeps

namespace ForSettledEveryStep

theorem witness_SettledEveryStep : Settled live ∧ ∃ t, step { live with pending := [.lpBrownOut] } = .next t := ⟨by unfold Settled; decide +kernel, _, rfl⟩

end ForSettledEveryStep

namespace ForPacketRoundTrip

theorem witness_PacketRoundTrip :
    (let p : Packet := pk (zs 1024)
     p.wellFormed = true) := by
  decide +kernel

end ForPacketRoundTrip

namespace ForTrellisFrameRoundTrip

theorem witness_TrellisFrameRoundTrip :
    (let type : Nat := 255
     let dest : Nat := 15
     let src : Nat := 15
     let host : Nat := 15
     let body : List Byte := zs 1056
     type < 256 ∧ dest < 16 ∧ src < 16 ∧ host < 16 ∧ body.length ≤ 1056) := by
  decide +kernel

end ForTrellisFrameRoundTrip

namespace ForBasicPackets

theorem witness_BasicPackets :
    (let p : Packet := pk []
     let s : State := live
     p.payload = [] ∧ AtHead 0x0000 .chip [] p s ∧ AtHead 0x0001 .chip [] p s ∧ AtHead 0x0102 .chip [] p s) := by
  unfold AtHead; decide +kernel

end ForBasicPackets

namespace ForStatusPackets

theorem witness_StatusPackets :
    (let p : Packet := pk (zw 6 [(4, 1)])
     let s : State := live
     let u : UnitRef := UnitRef.chip
     statusRange p.payload = true ∧ zeroAt [5] p.payload = true ∧ statusUnits p (begin_ s) = [u] ∧ AtHead 0x0002 u (rowDoms opReadStatus
         p u) p s ∧ p.payload.length = 6)
    ∧ (let p : Packet := pk (zw 10 [(4, 1)])
     let s : State := live
     let u : UnitRef := UnitRef.chip
     statusRange p.payload = true ∧ zeroAt [5] p.payload = true ∧ statusUnits p (begin_ s) = [u] ∧ AtHead 0x0002 u (rowDoms opReadStatus
         p u) p s ∧ p.payload.length = 10) := by
  unfold AtHead; refine ⟨?_, ?_⟩ <;> decide +kernel

end ForStatusPackets

namespace ForEventSettings

theorem witness_EventSettings :
    (let p : Packet := pk (zw 8 [(0, 255), (1, 1)])
     let s : State := live
     let n := numAt p.payload 1 1
     let first := numAt p.payload 0 1
     p.payload.length = 4 + 4 * n ∧ 1 ≤ n ∧ first + n ≤ 256 ∧ routeRes p.payload = true ∧ AtHead 0x0005 .chip [] p s)
    ∧ (let p : Packet := pk (zw 34 [(0, 3)])
     let s : State := live
     p.payload.length = 34 ∧ numAt p.payload 0 1 ≤ 3 ∧ zeroAt [1] p.payload = true ∧ AtHead 0x0006 .chip [] p s)
    ∧ (let e : Nat := 255
     let s : State := live
     domOn 0 s = true ∧ ready s = true ∧ e < 256 ∧ s.ev.mask.getLsbD e = false)
    ∧ (let e : Nat := 255
     let s : State := { live with ev := { live.ev with mask := 2 ^ 255 } }
     domOn 0 s = true ∧ ready s = true ∧ e < 256 ∧ s.ev.mask.getLsbD e = true) := by
  unfold AtHead; refine ⟨?_, ?_, ?_, ?_⟩ <;> decide +kernel

end ForEventSettings

namespace ForEngineEvent

theorem witness_EngineEvent :
    (let s : State := { live with ev := { live.ev with mask := BitVec.ofNat 256 (2 ^ 236) } }
     domOn 0 s = true ∧ ready s = true ∧ s.ev.mask.getLsbD 236 = true
       ∧ ((0x800 : BitVec 12).getLsbD 11 = true ∧ s.cmd.sticky.getLsbD 11 = false)
       ∧ ∀ i, (0 : BitVec 12).getLsbD i = true → s.cmd.sticky.getLsbD i = true) := by
  refine ⟨?_, ?_, ?_, ?_, fun i h => ?_⟩
  all_goals first | decide +kernel | (simp at h)

end ForEngineEvent

namespace ForHostSettings

theorem witness_HostSettings :
    (let p : Packet := pk (zw 12 [(0, 2)])
     let s : State := live
     let b := p.payload
     b.length = 12 ∧ (onlyBits 2 0x0F b && zeroAt [10, 11] b) = true ∧ ethHost (numAt b 0 1) = true ∧ numAt b 1 1 ≤ 1 ∧ s.boot.member =
         0 ∧ AtHead 0x0007 .chip [] p s)
    ∧ (let p : Packet := pk (zw 4 [(0, 2)])
     let s : State := live
     let b := p.payload
     b.length = 4 ∧ zeroAt [1, 2, 3] b = true ∧ ethHost (numAt b 0 1) = true ∧ AtHead 0x0008 .chip [] p s)
    ∧ (let p : Packet := pk (zs 4)
     let s : State := live
     let b := p.payload
     b.length = 4 ∧ zeroAt [1] b = true ∧ numAt b 0 1 ≤ 9 ∧ AtHead 0x000B .chip [] p s ∧ (zeroAt [0] b && onlyBits 1 0x07 b) = true ∧
         AtHead 0x0009 .chip [] p s ∧ (zeroAt [0, 1, 2] b && onlyBits 3 1 b) = true ∧ p.host ≠ 12 ∧ AtHead 0x0004 .chip [] p s) := by
  unfold AtHead; refine ⟨?_, ?_, ?_⟩ <;> decide +kernel

end ForHostSettings

namespace ForSchedCancel

theorem witness_SchedCancel :
    (let p : Packet := pk [13, 1, 0, 0]
     let s : State := live
     p.payload.length = 4 ∧ numAt p.payload 0 1 ≤ 13 ∧ numAt p.payload 1 1 ≤ 1 ∧ AtHead 0x000A .chip [] p s) := by
  unfold AtHead; decide +kernel

end ForSchedCancel

namespace ForReplyRule

theorem witness_ReplyRule :
    (let q : QPkt := qp { pk [] with replyWanted := false } .chip
     q.pkt.replyWanted = false)
    ∧ (let q : QPkt := qp (pk []) .chip
     let data : List Byte := zs 1020
     let s : State := live
     let h : Fin 14 := 0
     h.val < 2 ∧ q.pkt.host.val = h.val ∧ q.pkt.replyWanted = true ∧ q.authOk = false ∧ s.hosts[h].out.length < 64 ∧ q.pkt.opcode.toNat
         < 0x8000 ∧ data.length ≤ 1020) := by
  refine ⟨?_, ?_⟩ <;> decide +kernel

end ForReplyRule

namespace ForPlanPackets

theorem witness_PlanPackets :
    (let p : Packet := pk (zs 20)
     let s : State := live
     let b := p.payload
     9 ≤ b.length ∧ b.length ≤ 1024 ∧ zeroAt [4, 5, 6, 7] b = true ∧ p.host ≠ 12 ∧ numAt b 0 4 + (b.length - 8) ≤ 0x60000 ∧ (64 ≤ numAt
         b 0 4 ∨ numAt b 0 4 + (b.length - 8) ≤ 60) ∧ AtHead 0x1200 .chip [] p s ∧ p.payload.length = 20 ∧ (onlyBits 17 0x0F p.payload &&
         zeroAt [18, 19] p.payload) = true ∧ (4 ≤ s.boot.lastCause ∨ ((byteAt p.payload 17).toNat % 16).testBit s.boot.lastCause = false)
         ∧ AtHead 0x1202 .chip [15] p s)
    ∧ (let p : Packet := pk (zs 4)
     let s : State := live
     let e := (0x1240 : Half)
     p.payload.length = 4 ∧ zeroAt [0, 1, 2, 3] p.payload = true ∧ p.host ≠ 12 ∧ s.ks.reload = false ∧ commitCheck (readPlan
         s.plan.targetB s.nv) s = some e ∧ AtHead 0x1201 .chip [14, 15] p s)
    ∧ (let p : Packet := pk (zw 20 [(17, 1)])
     let s : State := live
     p.payload.length = 20 ∧ (onlyBits 17 0x0F p.payload && zeroAt [18, 19] p.payload) = true ∧ s.boot.lastCause < 4 ∧ ((byteAt
         p.payload 17).toNat % 16).testBit s.boot.lastCause = true ∧ AtHead 0x1202 .chip [15] p s) := by
  unfold AtHead; refine ⟨?_, ?_, ?_⟩ <;> decide +kernel

end ForPlanPackets

namespace ForPortsTakePackets

/-- Host 2 bound to a source at port 0. -/
def bound : State := modHost 2 (fun x => { x with reg := some ⟨0x020000000001, 0, 0, true⟩ }) live

theorem witness_PortsTakePackets :
    (let p : Packet := pk []
     let s : State := live
     let k : Fin 2 := 0
     p.wellFormed = true ∧ s.cmd.restart = none ∧ p.host.val = k.val ∧ spiMode s = .live ∧ s.hosts[(Fin.ofNat 14 k.val : Fin 14)].out =
         [])
    ∧ (let p : Packet := { pk [] with host := 2 }
     let s : State := bound
     let src : EthSrc := (⟨0, 0x020000000001, 0, 3⟩ : EthSrc)
     let h : Fin 14 := 2
     p.wellFormed = true ∧ s.cmd.restart = none ∧ p.host.val = h.val ∧ sourceHost src s = some h ∧ portPasses src.port s = true ∧ domOn
         0 s = true ∧ s.boot.member = 0 ∧ ready s = true ∧ s.boot.condition = 0) := by
  refine ⟨?_, ?_⟩ <;> decide +kernel

end ForPortsTakePackets

namespace ForArrivedPacketsGoOn

/-- A packet of key slot 3 with its CMAC, and the slot. -/
def keyed : Packet := let p := pka [] 3; { p with cmac := Crypto.cmac8 (zs 16) (cmacMessage p) }
def authed : State := { live with
  cmd := { live.cmd with authWait := [qp keyed .chip] }
  ks := { live.ks with slots := live.ks.slots.set 3 { live.ks.slots[3] with st := .loaded, attr := 1, key := zs 16 } } }
def chained : State := { live with cmd := { live.cmd with chains := [⟨7, 0, false, some 0, [qp (pk []) .chip]⟩] } }
def stagedNop : QPkt := { qp (pk []) .chip with staged := true, effect := some 0 }
def queued (q : QPkt) : State := { live with cmd := { live.cmd with waiting := [q] } }

theorem witness_ArrivedPacketsGoOn :
    (let s : State := authed
     let q := qp keyed .chip
     let rest := ([] : List QPkt)
     let k : Fin 64 := Fin.ofNat 64 q.pkt.keySlot.toNat
     let x := s.ks.slots[k]
     engineRuns s = true ∧ s.cmd.authWait = q :: rest ∧ q.pkt.auth = true ∧ cryptoReady s = true ∧ x.st = .loaded ∧ x.attr.getLsbD
         (authAttr q.pkt.opcode) = true ∧ x.seqS ≠ 0xFFFFFFFF ∧ q.pkt.hostSeq ≠ 0xFFFFFFFF ∧ Crypto.cmac8 x.key (cmacMessage q.pkt) =
         q.pkt.cmac ∧ replayOk x q.pkt.hostSeq = true)
    ∧ (let s : State := { live with cmd := { live.cmd with authWait := [qp (pk []) .chip] } }
     let q := qp (pk []) .chip
     let rest := ([] : List QPkt)
     engineRuns s = true ∧ s.cmd.authWait = q :: rest ∧ q.pkt.auth = false ∧ cryptoReady s = true)
    ∧ (let s : State := chained
     engineRuns s = true ∧ s.cmd.authWait = [] ∧ s.cmd.waiting.filter (fun q => q.staged && q.effect.isSome) = [])
    ∧ (let s : State := chained
     let h : Fin 14 := 0
     let r := (⟨7, 0, false, some 0, [qp (pk []) .chip]⟩ : ChainRun)
     let q := qp (pk []) .chip
     let rest := ([] : List QPkt)
     engineRuns s = true ∧ s.cmd.chains.find? (fun r => r.host.val = h.val && r.prev.isSome && !r.waiting.isEmpty) = some r ∧ r.waiting
         = q :: rest)
    ∧ (let s : State := queued stagedNop
     let u := UnitRef.chip
     let q := stagedNop
     engineRuns s = true ∧ queueHead u s = some q ∧ (opSpec q.pkt.opcode).isSome = true ∧ effectDue q s = true ∧ s.cmd.waiting.filter
         (fun q => q.staged && q.effect.isSome) = [q] ∧ q.todo = [u]) := by
  refine ⟨?_, ?_, ?_, ?_, ?_⟩ <;> decide +kernel

end ForArrivedPacketsGoOn

namespace ForPacketsLeave

def signing : ReplyWait := ⟨0, pk [], 3, 0, none, .none⟩
def signed : State := { live with
  cmd := { live.cmd with replyWait := [signing] }
  ks := { live.ks with slots := live.ks.slots.set 3 { live.ks.slots[3] with st := .loaded, attr := 1, key := zs 16 } } }
def lanHost : Reg := ⟨0x020000000001, 0, 0, true⟩
def outOne : OutPkt := ⟨0, packetBytes (pk []) false, 0, 0, .none⟩
def leaving : State := modHost 2 (fun x => { x with reg := some lanHost, out := [outOne] }) live
def collecting : State := { live with ev := { live.ev with ebw := live.ev.ebw.set 0 (some 4999980000), entries := live.ev.entries.set 0 [⟨1, 0, 1, 0⟩] } }

theorem witness_PacketsLeave :
    (let s : State := signed
     let r := signing
     let rest := ([] : List ReplyWait)
     let h : Fin 14 := 0
     s.cmd.replyWait = r :: rest ∧ cryptoReady s = true ∧ s.ks.slots[r.slot].st = .loaded ∧ r.pkt.host.val = h.val ∧ h.val < 2 ∧
         s.hosts[h].out.length < 64)
    ∧ (let s : State := leaving
     let h : Fin 14 := 2
     let r := lanHost
     let o := outOne
     s.hosts[h].reg = some r ∧ s.hosts[h].out = [o] ∧ o.bytes.length ≤ 1500 ∧ o.mark = .none ∧ domOn (portDomain r.port) s = true ∧
         portShut r.port s = false ∧ domOn 0 s = true)
    ∧ (let s : State := collecting
     let h : Fin 10 := 0
     let t0 := 4999980000
     domOn 0 s = true ∧ ready s = true ∧ s.ev.ebw[h] = some t0 ∧ t0 + 20000 ≤ s.clk.now ∧ s.ev.entries[h] ≠ [] ∧ s.ev.entries[h].length
         ≤ 85 ∧ s.hosts[(Fin.ofNat 14 h.val : Fin 14)].out.length < 64 ∧ h.val < 2) := by
  refine ⟨?_, ?_, ?_⟩ <;> decide +kernel

end ForPacketsLeave

namespace ForHostTimers

def lapsing (t : Nat) : State := modHost 2 (fun x => { x with reg := some ⟨0x020000000001, 0, 0, false⟩, lapseAt := t }) live
def quiet (t : Nat) : State := modHost 2 (fun x => { x with silenceAt := some t }) live
def chainOpen (t : Nat) : State := modHost 2 (fun x => { x with chain := { x.chain with open_ := true, lastAt := t } }) live

theorem witness_HostTimers :
    (let h : Fin 14 := 2
     let s : State := lapsing 5000000000
     let r := (⟨0x020000000001, 0, 0, false⟩ : Reg)
     s.hosts[h].reg = some r ∧ r.bound = false ∧ s.hosts[h].lapseAt ≤ s.clk.cmdClock)
    ∧ (let h : Fin 14 := 2
     let s : State := chainOpen 4990000000
     (s.hosts[h].reg.any (fun r => !r.bound) = false ∨ s.clk.cmdClock < s.hosts[h].lapseAt) ∧ s.hosts[h].chain.open_ = true ∧
         s.hosts[h].chain.lastAt + 10000000 ≤ s.clk.now)
    ∧ (let h : Fin 14 := 2
     let s : State := quiet 5000000000
     let t0 := 5000000000
     s.hosts[h].silenceAt = some t0 ∧ t0 ≤ s.clk.cmdClock)
    ∧ (let h : Fin 14 := 2
     let s : State := quiet 5000000001
     let t0 := 5000000001
     s.hosts[h].silenceAt = some t0 ∧ s.clk.cmdClock < t0)
    ∧ (let h : Fin 14 := 2
     let s : State := chainOpen 4990000001
     s.hosts[h].chain.open_ = true ∧ s.clk.now < s.hosts[h].chain.lastAt + 10000000) := by
  refine ⟨?_, ?_, ?_, ?_, ?_⟩ <;> decide +kernel

end ForHostTimers

namespace ForColdStarts

def restarting : RestartReq := ⟨true, false, some 5000000000⟩

theorem witness_ColdStarts :
    (let s : State := booted 2 1
     let v := 2999
     v < 3000 ∧ 2 ≤ s.boot.phase ∧ s.alm.flush.any (·.powerFail) = false ∧ (v ≤ 4500 ∨ 2 ≤ s.boot.phase))
    ∧ (let s : State := { live with alm := { live.alm with flush := some ⟨true, 0, 0, []⟩ } }
     let v := 2999
     v < 3000 ∧ 2 ≤ s.boot.phase ∧ s.alm.flush.any (·.powerFail) = true)
    ∧ (let s : State := booted 1 1
     let v := 4501
     3000 ≤ v ∧ s.boot.phase ≤ 1 ∧ 4500 < v)
    ∧ (let s : State := booted 2 1
     2 ≤ s.boot.phase ∧ s.alm.flush.any (·.powerFail) = false ∧ s.boot.phase = 2)
    ∧ (let s : State := live
     3 ≤ s.boot.phase ∧ s.boot.resetLow = none)
    ∧ (let s : State := { live with cmd := { live.cmd with restart := some restarting } }
     let r := restarting
     s.cmd.restart = some r ∧ r.cold = true ∧ r.at_.any (fun t => decide (t ≤ s.clk.now)) = true) := by
  refine ⟨?_, ?_, ?_, ?_, ?_, ?_⟩ <;> decide +kernel

end ForColdStarts

namespace ForBringUpPhases

theorem witness_BringUpPhases :
    (let s : State := { booted 3 1 with boot := { (booted 3 1).boot with resetLow := some 0 } }
     s.boot.phase = 3 ∧ s.boot.resetLow.isSome = true)
    ∧ (let s : State := booted 3 1
     s.boot.condition = 1 ∧ s.boot.phase = 3 ∧ s.boot.resetLow = none)
    ∧ (let s : State := booted 3 1
     s.boot.condition = 1 ∧ s.boot.phase = 3 ∧ s.boot.resetLow = none ∧ s.boot.startAt + 3200000 ≤ s.clk.now)
    ∧ (let s : State := { booted 3 1 with clk := { live.clk with now := 3199999 } }
     s.boot.condition = 1 ∧ s.boot.phase = 3 ∧ s.clk.now < s.boot.startAt + 3200000)
    ∧ (let s : State := booted 4 1
     s.boot.condition = 1 ∧ s.boot.phase = 4)
    ∧ (let s : State := booted 5 1
     s.boot.condition = 1 ∧ s.boot.phase = 5 ∧ s.boot.selfFails = 0)
    ∧ (let s : State := { booted 5 1 with boot := { (booted 5 1).boot with selfFails := 1 } }
     s.boot.condition = 1 ∧ s.boot.phase = 5 ∧ 1 ≤ s.boot.selfFails)
    ∧ (let s : State := booted 6 1
     s.boot.condition = 1 ∧ s.boot.phase = 6 ∧ s.plan.picked = false ∧ s.plan.passedA = false ∧ s.plan.passedB = false)
    ∧ (let s : State := { booted 6 1 with plan := { live.plan with picked := true } }
     s.boot.condition = 1 ∧ s.boot.phase = 6 ∧ s.plan.picked = true ∧ planOver s = true ∧ planBusy s = false) := by
  refine ⟨?_, ?_, ?_, ?_, ?_, ?_, ?_, ?_, ?_⟩ <;> decide +kernel

end ForBringUpPhases

namespace ForPlanAndWarmRestart

/-- A plan of one packet, which is AUTH, in copy A, about to be executed. -/
def planRuns : State := { booted 6 1 with
  plan := { live.plan with next := some (0, 0) }
  nv := Mem.write live.nv 0 (be 4 0x485A5031 ++ be 2 1 ++ be 2 1 ++ be 4 9 ++ be 4 24 ++ zs 48 ++ packetBytes (pka [])) }
def warmReq : RestartReq := ⟨false, false, some 5000000000⟩
def replays (t : Nat) : State := { live with ks := { live.ks with slots := live.ks.slots.set 63 { live.ks.slots[63] with dirty := true, wroteAt := some t } } }
/-- The same with a packet of this member that a plan may hold. -/
def planRuns2 : State := { booted 6 1 with
  plan := { live.plan with next := some (0, 0) }
  nv := Mem.write live.nv 0 (be 4 0x485A5031 ++ be 2 1 ++ be 2 1 ++ be 4 9 ++ be 4 16 ++ zs 48 ++ packetBytes (pk [])) }

theorem witness_PlanAndWarmRestart :
    (let s : State := planRuns
     let off := 0
     let i := 0
     let c := readPlan s.plan.copyB s.nv
     let b := c.body.drop off
     s.boot.condition = 1 ∧ s.boot.phase = 6 ∧ engineRuns s = true ∧ planBusy s = false ∧ s.plan.next = some (off, i) ∧ i < c.count ∧
         (BitVec.ofNat 4 ((byteAt b 1).toNat / 16) == s.boot.member.setWidth 4) = true ∧ planForbidden b = true)
    ∧ (let s : State := planRuns2
     let off := 0
     let i := 0
     let c := readPlan s.plan.copyB s.nv
     let b := c.body.drop off
     let m : BitVec 4 := BitVec.ofNat 4 ((byteAt b 1).toNat / 16)
     s.boot.condition = 1 ∧ s.boot.phase = 6 ∧ engineRuns s = true ∧ planBusy s = false ∧ s.plan.next = some (off, i) ∧ i < c.count ∧ (m
         = s.boot.member.setWidth 4 ∨ m = 15) ∧ planForbidden b = false)
    ∧ (let s : State := { planRuns with cmd := { live.cmd with waiting := [qp { pk [] with host := 12 } .chip] } }
     planBusy s = true)
    ∧ (let s : State := { live with cmd := { live.cmd with restart := some warmReq } }
     let r := warmReq
     s.cmd.restart = some r ∧ r.cold = false ∧ r.at_.any (fun t => decide (t ≤ s.clk.now)) = true ∧ s.boot.condition ≠ 1)
    ∧ (let s : State := { dst [15] .off (booted 5 2) with dom := { (dst [15] .off).dom with root := true } }
     s.boot.condition = 2 ∧ s.boot.phase = 5 ∧ s.dom.root = true ∧ domOn 15 s = false ∧ s.alm.staging = [] ∧ s.alm.intake = [] ∧
         s.alm.flush = none)
    ∧ (let s : State := { booted 5 2 with dom := { live.dom with root := true } }
     s.boot.condition = 2 ∧ s.boot.phase = 5 ∧ s.dom.root = true ∧ domOn 15 s = true)
    ∧ (let s : State := booted 6 2
     s.boot.condition = 2 ∧ s.boot.phase = 6)
    ∧ (let s : State := replays 4999000000
     let k : Fin 64 := 63
     s.ks.slots[k].dirty = true ∧ s.ks.slots[k].wroteAt.all (fun t => decide (t + 1000000 ≤ s.clk.now)) = true)
    ∧ (let s : State := replays 4999000001
     let k : Fin 64 := 63
     s.ks.slots[k].dirty = true ∧ s.ks.slots[k].wroteAt.all (fun t => decide (t + 1000000 ≤ s.clk.now)) = false) := by
  refine ⟨?_, ?_, ?_, ?_, ?_, ?_, ?_, ?_, ?_⟩ <;> decide +kernel

end ForPlanAndWarmRestart

namespace ForDomainPackets

theorem witness_DomainPackets :
    (let p : Packet := pk (zs 12)
     let s : State := live
     let b := p.payload
     b.length = 12 ∧ zeroAt [9, 10, 11] b = true ∧ onlyBits 8 1 b = true ∧ AtHead 0x0100 .chip [] p s ∧ (p.host = 11 → dsTarget (wordAt
         b 0) 0 = 3))
    ∧ (let p : Packet := { pk (zs 12) with host := 11 }
     let s : State := live
     let b := p.payload
     b.length = 12 ∧ zeroAt [9, 10, 11] b = true ∧ onlyBits 8 1 b = true ∧ AtHead 0x0100 .chip [] p s ∧ p.host = 11 ∧ dsTarget (wordAt b
         0) 0 ≠ 3)
    ∧ (let p : Packet := pk (zw 6 [(0, 8), (1, 1)])
     let s : State := live
     let b := p.payload
     let code := (byteAt b 0).toNat
     let idx := (byteAt b 1).toNat
     b.length = 6 ∧ zeroAt [3] b = true ∧ onlyBits 2 1 b = true ∧ AtHead 0x0101 .chip [] p s ∧ 1 ≤ code ∧ code ≤ 8 ∧ (idx = 0xFF ∨ idx <
         wakeIndices code) ∧ AtHead 0x0103 .chip [] p s)
    ∧ (let p : Packet := pk (zw 6 [(0, 9), (1, 0xFF)])
     let s : State := live
     let b := p.payload
     let code := (byteAt b 0).toNat
     let idx := (byteAt b 1).toNat
     b.length = 6 ∧ zeroAt [3] b = true ∧ onlyBits 2 1 b = true ∧ AtHead 0x0101 .chip [] p s ∧ code = 9 ∧ (idx = 0xFF ∨ idx = 0))
    ∧ (let p : Packet := pk (zs 6)
     let s : State := live
     let b := p.payload
     let code := (byteAt b 0).toNat
     let idx := (byteAt b 1).toNat
     b.length = 6 ∧ zeroAt [3] b = true ∧ onlyBits 2 1 b = true ∧ AtHead 0x0101 .chip [] p s ∧ (code = 0 ∨ 9 < code ∨ (idx ≠ 0xFF ∧
         wakeIndices code ≤ idx))) := by
  unfold AtHead; refine ⟨?_, ?_, ?_, ?_, ?_⟩ <;> decide +kernel

end ForDomainPackets

namespace ForDomainTurns

/-- A DOMAIN_SET with one turn left, of domain `d` to `target`. -/
def dsetOf (d : List (Fin 16)) (target : Word) (last : Option Nat) : DSet :=
  ⟨qp (pk []) .chip, target, false, d, Vector.replicate 16 0, Vector.replicate 16 0, 0, last, true⟩
def turning (d : List (Fin 16)) (target : Word) (last : Option Nat) (s : State := live) : State :=
  { s with dom := { s.dom with dset := some (dsetOf d target last) } }
def pathDown (t : Option Nat) : PathDown := ⟨1, true, false, 2, t⟩
def replyDown (t : Option Nat) : State := { live with dom := { live.dom with replyPath := [pathDown t] } }
def turningF (d : List (Fin 16)) (target : Word) (s : State) : State :=
  { s with dom := { s.dom with dset := some { dsetOf d target none with force := true } } }

theorem witness_DomainTurns :
    (let s : State := turning [12] 0x02000000 (some 4999990000) (dst [12] .off)
     let x := dsetOf [12] 0x02000000 (some 4999990000)
     let d := 12
     let goal := dsTarget x.target d
     let st := s.dom.dom[d].st
     s.dom.dset = some x ∧ x.lastTurn.any (fun t => decide (s.clk.now < t + 10000)) = false ∧ x.turns.find? (fun d => !turnWaits x d s)
         = some d ∧ goal = 2 ∧ (st = .off ∨ st = .ret) ∧ s.boot.condition ≠ 3)
    ∧ (let s : State := turning [12] 0x02000000 none
     let x := dsetOf [12] 0x02000000 none
     let d := 12
     let goal := dsTarget x.target d
     let st := s.dom.dom[d].st
     s.dom.dset = some x ∧ x.lastTurn.any (fun t => decide (s.clk.now < t + 10000)) = false ∧ x.turns.find? (fun d => !turnWaits x d s)
         = some d ∧ goal = 2 ∧ st = .on)
    ∧ (let s : State := turning [12] 0x02000000 none (dst [12] .off (booted 7 3))
     let x := dsetOf [12] 0x02000000 none
     let d := 12
     let goal := dsTarget x.target d
     let st := s.dom.dom[d].st
     s.dom.dset = some x ∧ x.lastTurn.any (fun t => decide (s.clk.now < t + 10000)) = false ∧ x.turns.find? (fun d => !turnWaits x d s)
         = some d ∧ goal = 2 ∧ st ≠ .on ∧ s.boot.condition = 3)
    ∧ (let s : State := turning [12] 0x01000000 none
     let x := dsetOf [12] 0x01000000 none
     let d := 12
     let goal := dsTarget x.target d
     let st := s.dom.dom[d].st
     s.dom.dset = some x ∧ x.lastTurn.any (fun t => decide (s.clk.now < t + 10000)) = false ∧ x.turns.find? (fun d => !turnWaits x d s)
         = some d ∧ goal ≤ 1 ∧ st = .on ∧ downReason d (decide (goal = 1)) s = 0)
    ∧ (let s : State := turning [6] 0x00001000 none (modOut 0 (fun c => { c with st := .rising }) live)
     let x := dsetOf [6] 0x00001000 none
     let d := 6
     let goal := dsTarget x.target d
     let st := s.dom.dom[d].st
     s.dom.dset = some x ∧ x.lastTurn.any (fun t => decide (s.clk.now < t + 10000)) = false ∧ x.turns.find? (fun d => !turnWaits x d s)
         = some d ∧ goal ≤ 1 ∧ st = .on ∧ downReason d (decide (goal = 1)) s ≠ 0 ∧ (forceable (downReason d (decide (goal = 1)) s) = false
         ∨ x.force = false))
    ∧ (let s : State := turningF [6] 0 (modOut 0 (fun c => { c with st := .on, mode := 1 }) live)
     let x := { dsetOf [6] 0 none with force := true }
     let d := 6
     let goal := dsTarget x.target d
     let st := s.dom.dom[d].st
     s.dom.dset = some x ∧ x.lastTurn.any (fun t => decide (s.clk.now < t + 10000)) = false ∧ x.turns.find? (fun d => !turnWaits x d s)
         = some d ∧ goal ≤ 1 ∧ st = .on ∧ forceable (downReason d (decide (goal = 1)) s) = true ∧ x.force = true)
    ∧ (let s : State := turning [12] 0x01000000 none (dst [12] .off)
     let x := dsetOf [12] 0x01000000 none
     let d := 12
     let goal := dsTarget x.target d
     let st := s.dom.dom[d].st
     s.dom.dset = some x ∧ x.lastTurn.any (fun t => decide (s.clk.now < t + 10000)) = false ∧ x.turns.find? (fun d => !turnWaits x d s)
         = some d ∧ goal = 1 ∧ st = .off)
    ∧ (let s : State := turning [12] 0x01000000 none (dst [12] .ret)
     let x := dsetOf [12] 0x01000000 none
     let d := 12
     let goal := dsTarget x.target d
     let st := s.dom.dom[d].st
     s.dom.dset = some x ∧ x.lastTurn.any (fun t => decide (s.clk.now < t + 10000)) = false ∧ x.turns.find? (fun d => !turnWaits x d s)
         = some d ∧ (goal = 0 ∧ st = .off ∨ goal = 1 ∧ st = .ret))
    ∧ (let s : State := turning [12] 0 none (dst [12] .ret)
     let x := dsetOf [12] 0 none
     let d := 12
     let goal := dsTarget x.target d
     let st := s.dom.dom[d].st
     s.dom.dset = some x ∧ x.lastTurn.any (fun t => decide (s.clk.now < t + 10000)) = false ∧ x.turns.find? (fun d => !turnWaits x d s)
         = some d ∧ goal = 0 ∧ st = .ret)
    ∧ (let s : State := turning [12] 0 (some 4999990001)
     let x := dsetOf [12] 0 (some 4999990001)
     s.dom.dset = some x ∧ (x.lastTurn.any (fun t => decide (s.clk.now < t + 10000)) = true ∨ x.turns.find? (fun d => !turnWaits x d s)
         = none) ∧ (x.turns ≠ [] ∨ dsSettled x s = false ∨ pathMoves x s = true))
    ∧ (let s : State := turning [] 0 none
     let x := dsetOf [] 0 none
     s.dom.dset = some x ∧ x.turns = [] ∧ dsSettled x s = true ∧ pathMoves x s = false)
    ∧ (let s : State := live
     s.dom.dset = none ∧ s.dom.replyPath = [])
    ∧ (let s : State := replyDown (some 5000000000)
     let e := pathDown (some 5000000000)
     let rest := ([] : List PathDown)
     let t0 := 5000000000
     s.dom.replyPath = e :: rest ∧ e.at_ = some t0 ∧ t0 ≤ s.clk.now ∧ e.dom.val ≤ 2 ∧ s.dom.dom[e.dom].st = .on)
    ∧ (let s : State := { replyDown (some 5000000000) with dom := { (dst [1] .ret).dom with replyPath := [pathDown (some 5000000000)] } }
     let e := pathDown (some 5000000000)
     let rest := ([] : List PathDown)
     let t0 := 5000000000
     s.dom.replyPath = e :: rest ∧ e.at_ = some t0 ∧ t0 ≤ s.clk.now ∧ (e.toRet = true ∧ s.dom.dom[e.dom].st = .ret ∨ s.dom.dom[e.dom].st
         = .off))
    ∧ (let s : State := replyDown (some 5000000001)
     let e := pathDown (some 5000000001)
     let rest := ([] : List PathDown)
     s.dom.replyPath = e :: rest ∧ e.at_.any (fun t => decide (t ≤ s.clk.now)) = false) := by
  refine ⟨?_, ?_, ?_, ?_, ?_, ?_, ?_, ?_, ?_, ?_, ?_, ?_, ?_, ?_, ?_⟩ <;> decide +kernel

end ForDomainTurns

namespace ForDomainTransitions

theorem witness_DomainTransitions :
    (let d : Fin 16 := 3
     let s : State := { dst [3] .offToOn with dom := { (dst [3] .offToOn).dom with root := true } }
     let st := s.dom.dom[d].st
     s.dom.root = true ∧ (st = .retToOn ∨ (st = .offToOn ∧ (d = 15 ∨ domOn 15 s = true))) ∧ s.dom.dom[d].returnTo = none)
    ∧ (let d : Fin 16 := 3
     let s : State := { dst [3] .retToOn with dom := { (dst [3] .retToOn).dom with root := false } }
     let st := s.dom.dom[d].st
     s.dom.root = false ∧ (st = .retToOn ∨ (st = .offToOn ∧ (d = 15 ∨ domOn 15 s = true))))
    ∧ (let d : Fin 16 := 3
     let s : State := dst [15] .off (dst [3] .offToOn)
     let st := s.dom.dom[d].st
     st = .offToOn ∧ d ≠ 15 ∧ domOn 15 s = false)
    ∧ (let d : Fin 16 := 3
     let s : State := dst [3] .toRet
     let st := s.dom.dom[d].st
     st = .toRet ∧ downReady d true s = true)
    ∧ (let d : Fin 16 := 3
     let s : State := dst [3] .toOff
     let st := s.dom.dom[d].st
     st = .toOff ∧ downReady d false s = true)
    ∧ (let d : Fin 16 := 3
     let s : State := live
     let st := s.dom.dom[d].st
     (st = .toRet ∧ downReady d true s = false ∨ st = .toOff ∧ downReady d false s = false ∨ st = .on ∨ st = .ret ∨ st = .off))
    ∧ (let d : Fin 16 := 3
     let s : State := modDom 3 (fun x => { x with returnTo := some .ret, idleSince := 4990000000 }) live
     let r := DomState.ret
     s.dom.dom[d].returnTo = some r ∧ domOn d s = true ∧ workDone d s = true ∧ s.dom.dom[d].idleSince + 10000000 ≤ s.clk.now ∧
         downReason d (r == .ret) s = 0 ∧ (d = 0 → r ≠ .ret → s.cmd.sched = []))
    ∧ (let d : Fin 16 := 6
     let s : State := modDom 6 (fun x => { x with returnTo := some .off, idleSince := 4990000000 }) (modOut 0 (fun x =>
         { x with st := .on, mode := 1 }) live)
     let r := DomState.off
     s.dom.dom[d].returnTo = some r ∧ domOn d s = true ∧ workDone d s = true ∧ s.dom.dom[d].idleSince + 10000000 ≤ s.clk.now ∧
         downReason d (r == .ret) s ≠ 0)
    ∧ (let d : Fin 16 := 3
     let s : State := modDom 3 (fun x => { x with returnTo := some .off, idleSince := 4990000001 }) live
     let r := DomState.off
     s.dom.dom[d].returnTo = some r ∧ domOn d s = true ∧ (s.clk.now < s.dom.dom[d].idleSince + 10000000 ∨ workDone d s = false))
    ∧ (let s : State := modOut 0 (fun x => { x with st := .on }) (dst [6] .ret)
     let n : Fin 96 := 0
     let kind : TripKind := TripKind.thermal
     let mA : Nat := 0
     let e := outDomain n
     conducting s.outs[n] = true ∧ (kind = .wire → 0 < fld s.outs[primary n s].cfg2 8 8 * 200 ∧ 11 * (fld s.outs[primary n s].cfg2 8 8 *
         200) < 10 * mA) ∧ s.dom.dom[e].st = .ret ∧ s.dom.dom[e].upAfter = false ∧ s.boot.condition = 0 ∧ 3 ≤ s.boot.phase ∧
         s.boot.resetLow = none)
    ∧ (let s : State := { dst [3] .offToOn with dom := { (dst [3] .offToOn).dom with root := true } }
     let n : Fin 96 := 0
     let e := outDomain n
     (conducting s.outs[n] = false ∨ s.dom.dom[e].st = .on ∨ s.dom.dom[e].st = .off))
    ∧ (let s : State := { dst [10] .ret with vhs := live.vhs.set 1 { live.vhs[1] with st := .on } }
     let kind : TripKind := TripKind.thermal
     let u : UnitRef := UnitRef.vh 1
     let f : Fin 16 := 10
     let live : Bool := match u with
       | .leg k => (if k.val % 2 = 0 then (legModes s.brs[legBridge k]).1 else (legModes
         s.brs[legBridge k]).2) != 0
       | .vh g => s.vhs[g].st == .rising || s.vhs[g].st == .on
       | .vl k => s.vls[k].st == .on
         || s.vls[k].st == .clamp
       | .fq k => fqGate s.io.fq[k] s.io.fld.supply
       | _ => false
     unitDomain u = some f ∧ live = true ∧ kind ≠ .wire ∧ s.dom.dom[f].st = .ret ∧ s.dom.dom[f].upAfter = false ∧ s.boot.condition = 0 ∧
         3 ≤ s.boot.phase ∧ s.boot.resetLow = none)
    ∧ (let s : State := { dst [3] .offToOn with dom := { (dst [3] .offToOn).dom with root := true } }
     let kind : TripKind := TripKind.thermal
     let u : UnitRef := UnitRef.leg 0
     let f : Fin 16 := 10
     let live : Bool := match u with
       | .leg k => (if k.val % 2 = 0 then (legModes s.brs[legBridge k]).1 else (legModes
         s.brs[legBridge k]).2) != 0
       | .vh g => s.vhs[g].st == .rising || s.vhs[g].st == .on
       | .vl k => s.vls[k].st == .on
         || s.vls[k].st == .clamp
       | .fq k => fqGate s.io.fq[k] s.io.fld.supply
       | _ => false
     unitDomain u = some f ∧ (∀ k, u ≠ .out k) ∧ (live = false ∨ kind = .wire)) := by
  refine ⟨?_, ?_, ?_, ?_, ?_, ?_, ?_, ?_, ?_, ?_, ?_, ?_, ?_⟩ <;> decide +kernel

end ForDomainTransitions

namespace ForAlwaysOnSection

def wakeOn (e : Bool) (s : State := live) : State := modWake 8 1 ⟨e, 0⟩ s

theorem witness_AlwaysOnSection :
    (let s : State := wakeOn false
     let l : Fin 2 := 1
     let level : Bool := false
     s.dom.wakeLevel[l] = level)
    ∧ (let s : State := wakeOn false
     let l : Fin 2 := 1
     let level : Bool := true
     let held : Nat := 49999
     s.dom.wakeLevel[l] ≠ level ∧ (held < 50000 ∨ s.dom.wake[wakeSlot 8 l.val].enable = false))
    ∧ (let s : State := wakeOn true (dst [0] .off)
     let l : Fin 2 := 1
     let level : Bool := true
     let held : Nat := 50000
     s.dom.wakeLevel[l] ≠ level ∧ 50000 ≤ held ∧ s.dom.wake[wakeSlot 8 l.val].enable = true ∧ s.boot.phase = 7 ∧ s.boot.condition = 0 ∧
         s.boot.resetLow = none ∧ s.dom.lastWake.source = 0 ∧ s.dom.dom[(0 : Fin 16)].st = .off ∧ s.dom.dom[(0 : Fin 16)].upAfter = false)
    ∧ (let s : State :=
         { dst [0] .ret with dom := { (dst [0] .ret).dom with timerAt := some 5000000000, schedTimer := some 5000000000 }, clk := { live.clk with ao := 5000000000 } }
     let t0 := 5000000000
     s.dom.timerAt = some t0 ∧ t0 ≤ s.clk.ao ∧ s.dom.schedTimer = some t0 ∧ s.boot.phase = 7 ∧ s.boot.condition = 0 ∧ s.boot.resetLow =
         none ∧ s.dom.dom[(0 : Fin 16)].st = .ret ∧ s.dom.dom[(0 : Fin 16)].upAfter = false)
    ∧ (let s : State :=
         { live with dom := { live.dom with timerAt := some 5000000001, schedTimer := some 5000000001 }, clk := { live.clk with ao := 5000000000 } }
     let t0 := 5000000001
     s.dom.timerAt = some t0 ∧ s.clk.ao < t0 ∧ s.dom.schedTimer = some t0)
    ∧ (let s : State := modDom 0 (fun x => { x with st := .off, woa := true }) live
     let src : EthSrc := (⟨1, 0x020000000001, 0, 3⟩ : EthSrc)
     portPasses src.port s = true ∧ s.dom.dom[(0 : Fin 16)].st = .off ∧ s.dom.dom[(0 : Fin 16)].upAfter = false ∧ s.dom.dom[(0 : Fin
         16)].woa = true ∧ s.boot.member = 0 ∧ s.boot.phase = 7 ∧ s.boot.condition = 0 ∧ s.boot.resetLow = none ∧ s.dom.frames = [])
    ∧ (let s : State := wakeOn true (dst [0] .off)
     let src : EthSrc := (⟨1, 0x020000000001, 0, 3⟩ : EthSrc)
     portPasses src.port s = true ∧ s.dom.dom[(0 : Fin 16)].st = .off ∧ s.dom.dom[(0 : Fin 16)].woa = false)
    ∧ (let s : State := wakeOn false
     let src : EthSrc := (⟨1, 0x020000000001, 0, 3⟩ : EthSrc)
     (domOn 0 s = true ∨ portPasses src.port s = false)) := by
  refine ⟨?_, ?_, ?_, ?_, ?_, ?_, ?_, ?_⟩ <;> decide +kernel

end ForAlwaysOnSection

namespace ForOutputPackets

/-- `live` with output 95 changed. -/
def out95 (f : OutSt → OutSt) : State := modOut 95 f live

theorem witness_OutputPackets :
    (let p : Packet := pk (zw 28 [(0, 128), (12, 1)])
     let s : State := modOut 94 (fun c => { c with partner := some 95 }) (modOut 95 (fun c => { c with partner := some 94 }) live)
     let n : Fin 96 := 95
     let b := p.payload
     outMask b = [.out n] ∧ b.length = 28 ∧ outSetRes b = true ∧ (byteAt b 12).toNat ≤ 3 ∧ AtHead 0x0200 (.out n) [outDomain n] p s ∧
         isSecondary n s = true)
    ∧ (let p : Packet := pk (zw 28 [(0, 128), (12, 1)])
     let s : State := live
     let n : Fin 96 := 95
     let b := p.payload
     let mode : BitVec 2 := BitVec.ofNat 2 (byteAt b 12).toNat
     let v : PwmVals := if (byteAt b 13).getLsbD 1 then s.outs[n].vals else ⟨numAt b 16 4, numAt b 20 4, numAt b 24 4⟩
     outMask b = [.out n] ∧ b.length = 28 ∧ outSetRes b = true ∧ (byteAt b 12).toNat ≤ 3 ∧ AtHead 0x0200 (.out n) [outDomain n] p s ∧
         isSecondary n s = false ∧ (2 ≤ mode.toNat → pwmRange (outClass n) mode v = true) ∧ (mode = 0 ∨ s.outs[n].prot = .none))
    ∧ (let p : Packet := pk (zw 28 [(0, 128), (12, 1)])
     let s : State := out95 fun c => { c with prot := .latched }
     let n : Fin 96 := 95
     let b := p.payload
     let mode : BitVec 2 := BitVec.ofNat 2 (byteAt b 12).toNat
     let v : PwmVals := if (byteAt b 13).getLsbD 1 then s.outs[n].vals else ⟨numAt b 16 4, numAt b 20 4, numAt b 24 4⟩
     outMask b = [.out n] ∧ b.length = 28 ∧ outSetRes b = true ∧ (byteAt b 12).toNat ≤ 3 ∧ AtHead 0x0200 (.out n) [outDomain n] p s ∧
         isSecondary n s = false ∧ (2 ≤ mode.toNat → pwmRange (outClass n) mode v = true) ∧ mode ≠ 0 ∧ s.outs[n].prot ≠ .none)
    ∧ (let p : Packet := pk (zw 28 [(0, 128), (12, 2)])
     let s : State := live
     let n : Fin 96 := 95
     let b := p.payload
     let mode : BitVec 2 := BitVec.ofNat 2 (byteAt b 12).toNat
     let v : PwmVals := if (byteAt b 13).getLsbD 1 then s.outs[n].vals else ⟨numAt b 16 4, numAt b 20 4, numAt b 24 4⟩
     outMask b = [.out n] ∧ b.length = 28 ∧ outSetRes b = true ∧ (byteAt b 12).toNat ≤ 3 ∧ AtHead 0x0200 (.out n) [outDomain n] p s ∧
         isSecondary n s = false ∧ (¬ (2 ≤ mode.toNat → pwmRange (outClass n) mode v = true)))
    ∧ (let p : Packet := pk (zw 16 [(0, 128), (12, 15)])
     let s : State := modOut 94 (fun c => { c with partner := some 95 }) (modOut 95 (fun c => { c with partner := some 94 }) live)
     let n : Fin 96 := 95
     let b := p.payload
     outMask b = [.out n] ∧ b.length = 16 ∧ opOutConfig.resOk b = true ∧ AtHead 0x0201 (.out n) [outDomain n] p s ∧ isSecondary n s =
         true)
    ∧ (let p : Packet := pk (zw 16 [(11, 1), (12, 8), (13, 48)])
     let s : State := live
     let n : Fin 96 := 0
     let b := p.payload
     let v := (byteAt b 13).toNat
     let w := byteAt b 12
     outMask b = [.out n] ∧ b.length = 16 ∧ opOutConfig.resOk b = true ∧ AtHead 0x0201 (.out n) [outDomain n] p s ∧ isSecondary n s =
         false ∧ (w.getLsbD 3 = true ∧ v / 16 % 4 = 3 ∧ outClass n ≠ 2))
    ∧ (let p : Packet := pk (zw 16 [(0, 128), (12, 15)])
     let s : State := live
     let n : Fin 96 := 95
     let b := p.payload
     let v := (byteAt b 13).toNat
     let w := byteAt b 12
     outMask b = [.out n] ∧ b.length = 16 ∧ opOutConfig.resOk b = true ∧ AtHead 0x0201 (.out n) [outDomain n] p s ∧ isSecondary n s =
         false ∧ (¬ (w.getLsbD 3 = true ∧ v / 16 % 4 = 3 ∧ outClass n ≠ 2)))
    ∧ (let p : Packet := pk (zw 4 [(1, 95), (2, 1)])
     let s : State := live
     let n : Fin 96 := 95
     let b := p.payload
     b.length = 4 ∧ byteAt b 3 = 0 ∧ numAt b 0 2 = n.val ∧ byteAt b 2 = 1 ∧ AtHead 0x0202 (.out n) [outDomain n] p s)
    ∧ (let p : Packet := pk (zw 32 [(0, 95), (1, 0), (4, 128), (16, 1)])
     let s : State := modOut 94 (fun c => { c with partner := some 95 }) (modOut 95 (fun c => { c with partner := some 94 }) live)
     let n : Fin 96 := 95
     let b := p.payload
     b.length = 32 ∧ opOutCas.resOk b = true ∧ opOutCas.parOk b = true ∧ (byteAt b 0).toNat = n.val ∧ AtHead 0x0204 (.out n) [outDomain
         n] p s ∧ s.outs[n].mode.toNat = (byteAt b 1).toNat ∧ isSecondary n s = true)
    ∧ (let p : Packet := pk (zw 32 [(0, 95), (1, 0), (4, 128), (16, 1)])
     let s : State := live
     let n : Fin 96 := 95
     let b := p.payload
     let mode : BitVec 2 := BitVec.ofNat 2 (byteAt (b.drop 4) 12).toNat
     let v : PwmVals := if (byteAt (b.drop 4) 13).getLsbD 1 then s.outs[n].vals else ⟨numAt (b.drop 4) 16 4, numAt (b.drop 4) 20 4,
         numAt (b.drop 4) 24 4⟩
     b.length = 32 ∧ opOutCas.resOk b = true ∧ opOutCas.parOk b = true ∧ (byteAt b 0).toNat = n.val ∧ AtHead 0x0204 (.out n) [outDomain
         n] p s ∧ s.outs[n].mode.toNat = (byteAt b 1).toNat ∧ isSecondary n s = false ∧ (2 ≤ mode.toNat → pwmRange (outClass n) mode v =
         true) ∧ (mode = 0 ∨ s.outs[n].prot = .none))
    ∧ (let p : Packet := pk (zw 32 [(0, 95), (1, 0), (4, 128), (16, 1)])
     let s : State := out95 fun c => { c with prot := .latched }
     let n : Fin 96 := 95
     let b := p.payload
     let mode : BitVec 2 := BitVec.ofNat 2 (byteAt (b.drop 4) 12).toNat
     let v : PwmVals := if (byteAt (b.drop 4) 13).getLsbD 1 then s.outs[n].vals else ⟨numAt (b.drop 4) 16 4, numAt (b.drop 4) 20 4,
         numAt (b.drop 4) 24 4⟩
     b.length = 32 ∧ opOutCas.resOk b = true ∧ opOutCas.parOk b = true ∧ (byteAt b 0).toNat = n.val ∧ AtHead 0x0204 (.out n) [outDomain
         n] p s ∧ s.outs[n].mode.toNat = (byteAt b 1).toNat ∧ isSecondary n s = false ∧ (2 ≤ mode.toNat → pwmRange (outClass n) mode v =
         true) ∧ mode ≠ 0 ∧ s.outs[n].prot ≠ .none)
    ∧ (let p : Packet := pk (zw 32 [(0, 95), (1, 0), (4, 128), (16, 2)])
     let s : State := live
     let n : Fin 96 := 95
     let b := p.payload
     let mode : BitVec 2 := BitVec.ofNat 2 (byteAt (b.drop 4) 12).toNat
     let v : PwmVals := if (byteAt (b.drop 4) 13).getLsbD 1 then s.outs[n].vals else ⟨numAt (b.drop 4) 16 4, numAt (b.drop 4) 20 4,
         numAt (b.drop 4) 24 4⟩
     b.length = 32 ∧ opOutCas.resOk b = true ∧ opOutCas.parOk b = true ∧ (byteAt b 0).toNat = n.val ∧ AtHead 0x0204 (.out n) [outDomain
         n] p s ∧ s.outs[n].mode.toNat = (byteAt b 1).toNat ∧ isSecondary n s = false ∧ (¬ (2 ≤ mode.toNat → pwmRange (outClass n) mode v
         = true)))
    ∧ (let p : Packet := pk (zw 32 [(0, 95), (1, 1), (4, 128), (16, 1)])
     let s : State := live
     let n : Fin 96 := 95
     let b := p.payload
     b.length = 32 ∧ opOutCas.resOk b = true ∧ opOutCas.parOk b = true ∧ (byteAt b 0).toNat = n.val ∧ AtHead 0x0204 (.out n) [outDomain
         n] p s ∧ s.outs[n].mode.toNat ≠ (byteAt b 1).toNat ∧ isSecondary n s = false) := by
  unfold AtHead; refine ⟨?_, ?_, ?_, ?_, ?_, ?_, ?_, ?_, ?_, ?_, ?_, ?_, ?_⟩ <;> decide +kernel

end ForOutputPackets

namespace ForGangs

theorem witness_Gangs :
    (let p : Packet := pk (zw 4 [(1, 1), (2, 1)])
     let s : State := live
     let x : Fin 96 := 0
     let y : Fin 96 := 1
     let b := p.payload
     let en : Bool := (byteAt b 2).getLsbD 0
     b.length = 4 ∧ zeroAt [3] b = true ∧ onlyBits 2 1 b = true ∧ (byteAt b 0).toNat = x.val ∧ (byteAt b 1).toNat = y.val ∧ AtHead
         0x0203 (.out x) [outDomain x] p s ∧ AtHead 0x0203 (.out y) [outDomain y] p s ∧ (x.val < y.val ∧ outClass x = outClass y ∧
         outBlock x = outBlock y) ∧ en = true ∧ (s.outs[x].st = .off ∧ s.outs[x].mode = 0) ∧ (s.outs[y].st = .off ∧ s.outs[y].mode = 0) ∧
         s.outs[x].partner = none ∧ s.outs[y].partner = none)
    ∧ (let p : Packet := pk (zw 4 [(1, 1)])
     let s : State := modOut 0 (fun c => { c with partner := some 1 }) (modOut 1 (fun c => { c with partner := some 0 }) live)
     let x : Fin 96 := 0
     let y : Fin 96 := 1
     let b := p.payload
     let en : Bool := (byteAt b 2).getLsbD 0
     b.length = 4 ∧ zeroAt [3] b = true ∧ onlyBits 2 1 b = true ∧ (byteAt b 0).toNat = x.val ∧ (byteAt b 1).toNat = y.val ∧ AtHead
         0x0203 (.out x) [outDomain x] p s ∧ AtHead 0x0203 (.out y) [outDomain y] p s ∧ (x.val < y.val ∧ outClass x = outClass y ∧
         outBlock x = outBlock y) ∧ en = false ∧ (s.outs[x].st = .off ∧ s.outs[x].mode = 0) ∧ (s.outs[y].st = .off ∧ s.outs[y].mode = 0) ∧
         s.outs[x].partner = some y)
    ∧ (let p : Packet := pk (zw 4 [(1, 1)])
     let s : State := live
     let x : Fin 96 := 0
     let y : Fin 96 := 1
     let b := p.payload
     let en : Bool := (byteAt b 2).getLsbD 0
     b.length = 4 ∧ zeroAt [3] b = true ∧ onlyBits 2 1 b = true ∧ (byteAt b 0).toNat = x.val ∧ (byteAt b 1).toNat = y.val ∧ AtHead
         0x0203 (.out x) [outDomain x] p s ∧ AtHead 0x0203 (.out y) [outDomain y] p s ∧ (x.val < y.val ∧ outClass x = outClass y ∧
         outBlock x = outBlock y) ∧ en = false ∧ s.outs[x].partner ≠ some y)
    ∧ (let p : Packet := pk (zw 4 [(1, 1), (2, 1)])
     let s : State := modOut 0 (fun c => { c with partner := some 1 }) (modOut 1 (fun c => { c with partner := some 0 }) live)
     let x : Fin 96 := 0
     let y : Fin 96 := 1
     let b := p.payload
     let en : Bool := (byteAt b 2).getLsbD 0
     b.length = 4 ∧ zeroAt [3] b = true ∧ onlyBits 2 1 b = true ∧ (byteAt b 0).toNat = x.val ∧ (byteAt b 1).toNat = y.val ∧ AtHead
         0x0203 (.out x) [outDomain x] p s ∧ AtHead 0x0203 (.out y) [outDomain y] p s ∧ (x.val < y.val ∧ outClass x = outClass y ∧
         outBlock x = outBlock y) ∧ (en = true ∨ s.outs[x].partner = some y) ∧ (¬ ((s.outs[x].st = .off ∧ s.outs[x].mode = 0) ∧
         (s.outs[y].st = .off ∧ s.outs[y].mode = 0)) ∨ en = true ∧ (s.outs[x].partner ≠ none ∨ s.outs[y].partner ≠ none)))
    ∧ (let p : Packet := pk (zw 4 [(0, 1), (1, 1), (2, 1)])
     let s : State := live
     let x : Fin 96 := 1
     let y : Fin 96 := 1
     let b := p.payload
     b.length = 4 ∧ zeroAt [3] b = true ∧ onlyBits 2 1 b = true ∧ (byteAt b 0).toNat = x.val ∧ (byteAt b 1).toNat = y.val ∧ AtHead
         0x0203 (.out x) [outDomain x] p s ∧ AtHead 0x0203 (.out y) [outDomain y] p s ∧ (¬ (x.val < y.val ∧ outClass x = outClass y ∧
         outBlock x = outBlock y))) := by
  unfold AtHead; refine ⟨?_, ?_, ?_, ?_, ?_⟩ <;> decide +kernel

end ForGangs

namespace ForCellTransitions

theorem witness_CellTransitions :
    (let n : Fin 96 := 95
     let s : State := modOut 95 (fun x => { x with st := .rising }) live
     isSecondary n s = false ∧ s.outs[n].st = .rising ∧ s.outs[n].st ≠ .falling)
    ∧ (let n : Fin 96 := 95
     let s : State := modOut 95 (fun x => { x with st := .falling }) live
     isSecondary n s = false ∧ s.outs[n].st ≠ .rising ∧ s.outs[n].st = .falling ∧ (¬ (demand s.outs[n] = true ∧ inhibited n s = false)))
    ∧ (let n : Fin 96 := 95
     let s : State := modOut 95 (fun x => { x with st := .falling, mode := 1, hotHold := true }) live
     isSecondary n s = false ∧ s.outs[n].st = .falling ∧ (demand s.outs[n] = true ∧ inhibited n s = false) ∧ isHot n s = true)
    ∧ (let n : Fin 96 := 95
     let s : State := modOut 95 (fun x => { x with st := .falling, mode := 1 }) live
     isSecondary n s = false ∧ s.outs[n].st = .falling ∧ (demand s.outs[n] = true ∧ inhibited n s = false) ∧ isHot n s = false ∧
         needsTok s.outs[n] = true ∧ s.outs[n].tok = .none)
    ∧ (let n : Fin 96 := 95
     let s : State := modOut 95 (fun x => { x with st := .falling, mode := 1, tok := .held 3 }) live
     isSecondary n s = false ∧ s.outs[n].st = .falling ∧ (demand s.outs[n] = true ∧ inhibited n s = false) ∧ isHot n s = false ∧
         (needsTok s.outs[n] = false ∨ s.outs[n].tok.isHeld = true))
    ∧ (let n : Fin 96 := 95
     let s : State := modOut 95 (fun x => { x with st := .demag }) live
     let mv : Int := (-499 : Int)
     isSecondary n s = false ∧ s.outs[n].st = .demag ∧ -500 < mv ∧ (¬ (demand s.outs[n] = true ∧ inhibited n s = false)) ∧ (s.outs[n].st
         ≠ .falling ∨ -1000 ≤ mv))
    ∧ (let n : Fin 96 := 95
     let s : State := modOut 95 (fun x => { x with st := .demag, mode := 1, hotHold := true }) live
     let mv : Int := (-499 : Int)
     isSecondary n s = false ∧ s.outs[n].st = .demag ∧ -500 < mv ∧ (demand s.outs[n] = true ∧ inhibited n s = false) ∧ isHot n s = true)
    ∧ (let n : Fin 96 := 95
     let s : State := modOut 95 (fun x => { x with st := .demag, mode := 1 }) live
     let mv : Int := (-499 : Int)
     isSecondary n s = false ∧ s.outs[n].st = .demag ∧ -500 < mv ∧ (demand s.outs[n] = true ∧ inhibited n s = false) ∧ isHot n s = false
         ∧ needsTok s.outs[n] = true ∧ s.outs[n].tok = .none)
    ∧ (let n : Fin 96 := 95
     let s : State := modOut 95 (fun x => { x with st := .demag, mode := 1, tok := .held 3 }) live
     let mv : Int := (-499 : Int)
     isSecondary n s = false ∧ s.outs[n].st = .demag ∧ -500 < mv ∧ (demand s.outs[n] = true ∧ inhibited n s = false) ∧ isHot n s = false
         ∧ (needsTok s.outs[n] = false ∨ s.outs[n].tok.isHeld = true))
    ∧ (let n : Fin 96 := 95
     let s : State := modOut 95 (fun x => { x with st := .falling }) live
     let mv : Int := (-1001 : Int)
     isSecondary n s = false ∧ (s.outs[n].st ≠ .demag ∨ mv ≤ -500) ∧ s.outs[n].st = .falling ∧ mv < -1000)
    ∧ (let n : Fin 96 := 95
     let s : State := modOut 95 (fun x => { x with st := .waitToken, mode := 1, tok := .waiting 4000000000 true }) live
     let r : Fin 7 := 3
     isSecondary n s = false ∧ regionOn r s = true ∧ waitingUnits r s = [outIdx n] ∧ tokensUsed r s + min (weight (outIdx n) s)
         (tokenBudget r s) ≤ tokenBudget r s ∧ s.outs[n].st = .waitToken ∧ (demand s.outs[n] = true ∧ inhibited n s = false) ∧ needsTok
         s.outs[n] = true ∧ isHot n s = false)
    ∧ (let n : Fin 96 := 95
     let s : State := modOut 94 (fun c => { c with tok := .held 99 }) (modOut 95 (fun x =>
         { x with st := .waitToken, mode := 1, tok := .waiting 4000000000 true }) live)
     let r : Fin 7 := 3
     isSecondary n s = false ∧ regionOn r s = true ∧ waitingUnits r s = [outIdx n] ∧ tokenBudget r s < tokensUsed r s + min (weight
         (outIdx n) s) (tokenBudget r s))
    ∧ (let n : Fin 96 := 95
     let s : State := modOut 95 (fun x => { x with st := .rising }) live
     let r : Fin 7 := 3
     isSecondary n s = false ∧ (regionOn r s = false ∨ waitingUnits r s = [])) := by
  refine ⟨?_, ?_, ?_, ?_, ?_, ?_, ?_, ?_, ?_, ?_, ?_, ?_, ?_⟩ <;> decide +kernel

end ForCellTransitions

namespace ForPwmRows

/-- `live` with output 0 in slow PWM of 100 ms with the on-time and the phase given. -/
def slow (on_ phase : Nat) (f : OutSt → OutSt := id) : State :=
  modOut 0 (fun c => f { c with mode := 3, vals := ⟨100, on_, phase⟩ }) live

theorem witness_PwmRows :
    (let n : Fin 96 := 0
     let s : State := slow 50 0
     let st := nextPeriod n s
     let c := s.outs[n]
     let due := mirrorDue c.mirAt s
     pwmRuns n s = true ∧ st ≤ s.zone.time + edgeLead n s ∧ (pwmRuns n s = false ∨ c.pwm.onPhase = false ∨ s.zone.time + edgeLead n s <
         c.pwm.onEnd ∨ (c.pwm.perEnd ≤ c.pwm.onEnd ∧ c.vals = c.pwm.act ∧ c.pwm.waitFrom = none)) ∧ c.mode = 3 ∧ c.st = .off ∧ c.tok =
         .none ∧ inhibited n s = false ∧ isHot n s = false ∧ st ≤ s.zone.time + 50000 ∧ 0 < c.vals.on_ ∧ (c.mirPend = false ∨ due = false))
    ∧ (let n : Fin 96 := 0
     let s : State := slow 50 0 fun c => { c with pwm := { c.pwm with onPhase := true, onEnd := 0, perEnd := 1 } }
     let st := nextPeriod n s
     let c := s.outs[n]
     (pwmRuns n s = false ∨ s.zone.time + edgeLead n s < st) ∧ pwmRuns n s = true ∧ c.pwm.onPhase = true ∧ c.pwm.onEnd ≤ s.zone.time +
         edgeLead n s ∧ (c.pwm.onEnd < c.pwm.perEnd ∨ c.vals ≠ c.pwm.act ∨ c.pwm.waitFrom.isSome = true) ∧ (pwmRuns n s = false ∨ c.mode ≠
         3 ∨ c.st ≠ .off ∨ c.tok ≠ .none ∨ inhibited n s = true ∨ isHot n s = true ∨ s.zone.time + 50000 < st ∨ c.vals.on_ = 0))
    ∧ (let n : Fin 96 := 0
     let s : State := slow 50 0 fun c => { c with mirPend := true, mirAt := some 4990000000 }
     let c := s.outs[n]
     let due := mirrorDue c.mirAt s
     c.mirPend = true ∧ due = true ∧ domOn 15 s = true)
    ∧ (let n : Fin 96 := 0
     let s : State := dst [15] .off (slow 50 0 fun c => { c with mirPend := true })
     let c := s.outs[n]
     let due := mirrorDue c.mirAt s
     c.mirPend = true ∧ due = true ∧ (s.dom.dom[(15 : Fin 16)].st = .off ∨ s.dom.dom[(15 : Fin 16)].st = .ret) ∧ s.dom.dom[(15 : Fin
         16)].upAfter = false ∧ upAllowed 15 s = true)
    ∧ (let s : State := modBr 7 (fun x => { x with mirPend := true }) live
     let m : Fin 16 := 15
     let k := legBridge m
     let x := s.brs[k]
     x.mirPend = true ∧ mirrorDue x.mirAt s = true ∧ domOn 15 s = true)
    ∧ (let s : State := slow 50 0
     let m : Fin 16 := 15
     let k := legBridge m
     let x := s.brs[k]
     (x.mirPend = false ∨ mirrorDue x.mirAt s = false))
    ∧ (let s : State := modVl 15 (fun x => { x with mirPend := true }) live
     let m : Fin 16 := 15
     let x := s.vls[m]
     x.mirPend = true ∧ mirrorDue x.mirAt s = true ∧ domOn 15 s = true)
    ∧ (let s : State := slow 50 0
     let m : Fin 16 := 15
     let x := s.vls[m]
     (x.mirPend = false ∨ mirrorDue x.mirAt s = false))
    ∧ (let s : State := modFq 15 (fun x => { x with mirPend := true }) live
     let m : Fin 16 := 15
     let x := s.io.fq[m]
     x.mirPend = true ∧ mirrorDue x.mirAt s = true ∧ domOn 15 s = true)
    ∧ (let s : State := slow 50 0
     let m : Fin 16 := 15
     let x := s.io.fq[m]
     (x.mirPend = false ∨ mirrorDue x.mirAt s = false)) := by
  refine ⟨?_, ?_, ?_, ?_, ?_, ?_, ?_, ?_, ?_, ?_⟩ <;> decide +kernel

end ForPwmRows

namespace ForMirrorEntryReadsBack

theorem witness_MirrorEntryReadsBack :
    (let s : State := live
     Memory.wf s.nv)
    ∧ (let n : Fin 96 := 95
     let s : State := live
     let a : Nat := 0xC17BF
     Memory.wf s.nv ∧ (a < 0xC0000 + 0x40 * n.val ∨ 0xC0000 + 0x40 * n.val + 0x40 ≤ a)) := by
  refine ⟨?_, ?_⟩ <;> decide +kernel

end ForMirrorEntryReadsBack

namespace ForProtectionTrips

def envOne : Env := { peak := 200, hold := 10, half := 10, mode := 1, codes := [] }
def trippedOut (s0 : CellState) (e0 : Option Env) : State := modOut 95 (fun c => { c with prot := .offPending, trips := 1, tripAt := 5000000000, tripFrom := s0, tripEnv := e0 }) live

theorem witness_ProtectionTrips :
    (let n : Fin 96 := 95
     let s : State := dst [9] .off
     isSecondary n s = false ∧ cellPowered n s = false)
    ∧ (let n : Fin 96 := 95
     let s : State := modOut 95 (fun x => { x with st := .on, mode := 1 }) live
     let mA : Nat := (staticMA (outClass n) (ocStep s.outs[n])) + 1
     let c := s.outs[n]
     isSecondary n s = false ∧ cellPowered n s = true ∧ trippedNow n s = false ∧ c.prot ≠ .latched ∧ staticMA (outClass n) (ocStep c) <
         mA ∧ (gateOn c = true ∧ c.env = none ∨ c.st = .demag) ∧ c.env = none ∧ (mA < isclMA (outClass n) ∨ ((trippedNow n s = false) ∧
         gateOn c = false)))
    ∧ (let n : Fin 96 := 95
     let s : State := trippedOut .on none
     let mA : Nat := (staticMA (outClass n) (ocStep s.outs[n])) + 1
     let c := s.outs[n]
     isSecondary n s = false ∧ cellPowered n s = true ∧ trippedNow n s = true ∧ staticMA (outClass n) (ocStep c) < mA ∧ (c.tripFrom.gate
         = true ∧ c.tripEnv = none ∨ c.tripFrom = .demag))
    ∧ (let n : Fin 96 := 95
     let s : State := modOut 95 (fun x => { x with st := .on, mode := 1 }) live
     let mA : Nat := (staticMA (outClass n) (ocStep s.outs[n]))
     let c := s.outs[n]
     isSecondary n s = false ∧ cellPowered n s = true ∧ (mA ≤ staticMA (outClass n) (ocStep c) ∨ ((trippedNow n s = false) ∧ gateOn c =
         false ∧ c.st ≠ .demag)))
    ∧ (let n : Fin 96 := 95
     let s : State := modOut 95 (fun x => { x with st := .on, mode := 1, env := some envOne }) live
     let mA : Nat := (staticMA (outClass n) (ocStep s.outs[n])) + 1
     let e := envOne
     let c := s.outs[n]
     isSecondary n s = false ∧ cellPowered n s = true ∧ c.env = some e ∧ trippedNow n s = false ∧ c.prot ≠ .latched ∧ gateOn c = true ∧
         envLimit n c e (sinceRiseUs c s) < mA)
    ∧ (let n : Fin 96 := 95
     let s : State := modOut 95 (fun x => { x with st := .on, mode := 1, env := some envOne }) live
     let mA : Nat := (staticMA (outClass n) (ocStep s.outs[n]))
     let e := envOne
     let c := s.outs[n]
     isSecondary n s = false ∧ cellPowered n s = true ∧ c.env = some e ∧ trippedNow n s = false ∧ (gateOn c = false ∨ mA ≤ envLimit n c
         e (sinceRiseUs c s)))
    ∧ (let n : Fin 96 := 95
     let s : State := trippedOut .on (some envOne)
     let mA : Nat := (staticMA (outClass n) (ocStep s.outs[n])) + 1
     let e := envOne
     let c := s.outs[n]
     isSecondary n s = false ∧ cellPowered n s = true ∧ c.tripEnv = some e ∧ trippedNow n s = true ∧ c.tripFrom.gate = true ∧ envLimit n
         c e (sinceRiseUs c s) < mA)
    ∧ (let n : Fin 96 := 95
     let s : State := modOut 95 (fun x => { x with st := .on, mode := 1 }) live
     let mA : Nat := isclMA (outClass n)
     let c := s.outs[n]
     isSecondary n s = false ∧ cellPowered n s = true ∧ trippedNow n s = false ∧ gateOn c = true ∧ isclMA (outClass n) ≤ mA)
    ∧ (let n : Fin 96 := 95
     let s : State := modOut 95 (fun x => { x with st := .on, mode := 1 }) live
     let tj : Int := (175 : Int)
     let c := s.outs[n]
     isSecondary n s = false ∧ cellPowered n s = true ∧ trippedNow n s = false ∧ c.prot ≠ .latched ∧ 175 ≤ tj ∧ conducting c = true)
    ∧ (let n : Fin 96 := 95
     let s : State := modOut 95 (fun x => { x with cfg2 := 0 }) live
     let tj : Int := (175 : Int)
     let c := s.outs[n]
     isSecondary n s = false ∧ cellPowered n s = true ∧ trippedNow n s = false ∧ 175 ≤ tj ∧ conducting c = false)
    ∧ (let n : Fin 96 := 95
     let s : State := modOut 95 (fun x => { x with st := .on, mode := 1 }) live
     let tj : Int := (174 : Int)
     isSecondary n s = false ∧ cellPowered n s = true ∧ tj < 175)
    ∧ (let n : Fin 96 := 95
     let s : State := dst [9] .off
     isSecondary n s = false ∧ domOn (outDomain n) s = false)
    ∧ (let n : Fin 96 := 95
     let s : State := modOut 95 (fun x => { x with cfg2 := 0 }) live
     let c := s.outs[n]
     isSecondary n s = false ∧ domOn (outDomain n) s = true ∧ fld c.cfg2 8 8 = 0)
    ∧ (let n : Fin 96 := 95
     let s : State := modOut 95 (fun x => { x with st := .on, mode := 1 }) live
     let high : Bool := true
     let c := s.outs[n]
     let th := thetaStep c (wireCurrent n high s)
     isSecondary n s = false ∧ domOn (outDomain n) s = true ∧ fld c.cfg2 8 8 ≠ 0 ∧ (th < 2 ^ 32 ∨ (2 ^ 32 ≤ c.theta ∧ c.prot ≠ .none)))
    ∧ (let n : Fin 96 := 95
     let s : State := modOut 95 (fun x => { x with st := .on, mode := 1, theta := 2 ^ 33 }) live
     let high : Bool := true
     let c := s.outs[n]
     let th := thetaStep c (wireCurrent n high s)
     isSecondary n s = false ∧ domOn (outDomain n) s = true ∧ fld c.cfg2 8 8 ≠ 0 ∧ 2 ^ 32 ≤ th ∧ (c.theta < 2 ^ 32 ∨ c.prot = .none) ∧
         trippedNow n s = false ∧ c.prot ≠ .latched)
    ∧ (let n : Fin 96 := 95
     let s : State := modOut 95 (fun c => { c with prot := .none, theta := 2 ^ 33 }) (trippedOut .on none)
     let high : Bool := true
     let c := s.outs[n]
     let th := thetaStep c (wireCurrent n high s)
     isSecondary n s = false ∧ domOn (outDomain n) s = true ∧ fld c.cfg2 8 8 ≠ 0 ∧ 2 ^ 32 ≤ th ∧ (c.theta < 2 ^ 32 ∨ c.prot = .none) ∧
         trippedNow n s = true) := by
  refine ⟨?_, ?_, ?_, ?_, ?_, ?_, ?_, ?_, ?_, ?_, ?_, ?_, ?_, ?_, ?_, ?_⟩ <;> decide +kernel

end ForProtectionTrips

namespace ForProtectionRestart

def envOne : Env := { peak := 200, hold := 10, half := 10, mode := 1, codes := [] }
def out0 (f : OutSt → OutSt) : State := modOut 0 f live

theorem witness_ProtectionRestart :
    (let n : Fin 96 := 0
     let s : State := out0 fun c => { c with prot := .latched, clear := true }
     let c := s.outs[n]
     isSecondary n s = false ∧ domOn (outDomain n) s = true ∧ c.prot ≠ .none ∧ (c.clear = true ∧ cool n s = true) ∧ c.env = none)
    ∧ (let n : Fin 96 := 0
     let s : State := out0 fun c => { c with prot := .offPending, cfg1 := 0x03700000 }
     let c := s.outs[n]
     isSecondary n s = false ∧ domOn (outDomain n) s = true ∧ c.prot = .offPending ∧ (¬ (c.clear = true ∧ cool n s = true)) ∧ tripLatch
         c = false ∧ c.retry ≠ 0 ∧ cool n s = true)
    ∧ (let n : Fin 96 := 0
     let s : State := out0 fun c => { c with prot := .offPending, cfg1 := 0x03700000, coolFrom := 5000000000 }
     let c := s.outs[n]
     isSecondary n s = false ∧ domOn (outDomain n) s = true ∧ c.prot = .offPending ∧ (¬ (c.clear = true ∧ cool n s = true)) ∧ tripLatch
         c = false ∧ c.retry ≠ 0 ∧ cool n s = false)
    ∧ (let n : Fin 96 := 0
     let s : State := out0 fun c => { c with prot := .offPending, retry := 0 }
     let c := s.outs[n]
     isSecondary n s = false ∧ domOn (outDomain n) s = true ∧ c.prot = .offPending ∧ (¬ (c.clear = true ∧ cool n s = true)) ∧ (tripLatch
         c = true ∨ c.retry = 0))
    ∧ (let n : Fin 96 := 0
     let s : State := out0 fun c => { c with prot := .latched }
     let c := s.outs[n]
     isSecondary n s = false ∧ domOn (outDomain n) s = true ∧ c.prot = .latched ∧ (¬ (c.clear = true ∧ cool n s = true)))
    ∧ (let n : Fin 96 := 0
     let s : State := live
     let c := s.outs[n]
     isSecondary n s = false ∧ (domOn (outDomain n) s = false ∨ c.prot = .none))
    ∧ (let n : Fin 96 := 0
     let s : State := out0 fun c => { c with st := .on, env := some envOne, riseAt := 5000000000 - envEnd envOne * 1000 }
     let e := envOne
     let c := s.outs[n]
     isSecondary n s = false ∧ c.env = some e ∧ gateOn c = true ∧ envEnd e * 1000 ≤ s.clk.now - c.riseAt)
    ∧ (let n : Fin 96 := 0
     let s : State := out0 fun c => { c with st := .on, env := some envOne, riseAt := 5000000001 - envEnd envOne * 1000 }
     let e := envOne
     let c := s.outs[n]
     isSecondary n s = false ∧ c.env = some e ∧ (gateOn c = false ∨ s.clk.now - c.riseAt < envEnd e * 1000))
    ∧ (let n : Fin 96 := 0
     let s : State := out0 fun c => { c with st := .on, learnRun := true, cfg1 := 0xC0000, riseAt := 4872000000, learn := 6 }
     let c := s.outs[n]
     isSecondary n s = false ∧ c.learnRun = true ∧ gateOn c = true ∧ envMode c = 3 ∧ 128000000 ≤ s.clk.now - c.riseAt ∧ c.learn < 7)
    ∧ (let n : Fin 96 := 0
     let s : State := out0 fun c => { c with st := .on, learnRun := true, cfg1 := 0xC0000, riseAt := 4872000000, learn := 7 }
     let c := s.outs[n]
     isSecondary n s = false ∧ c.learnRun = true ∧ gateOn c = true ∧ envMode c = 3 ∧ 128000000 ≤ s.clk.now - c.riseAt ∧ 7 ≤ c.learn)
    ∧ (let n : Fin 96 := 0
     let s : State := out0 fun c => { c with prot := .offPending, cfg1 := 0x03700000 }
     let c := s.outs[n]
     isSecondary n s = false ∧ (c.learnRun = false ∨ gateOn c = false ∨ envMode c ≠ 3 ∨ s.clk.now - c.riseAt < 128000000))
    ∧ (let n : Fin 96 := 0
     let s : State := out0 fun c => { c with st := .waitToken, mode := 1 }
     let tj : Int := (149 : Int)
     let c := s.outs[n]
     isSecondary n s = false ∧ tj < 150 ∧ cellPowered n s = true ∧ c.st = .waitToken ∧ c.tok = .none ∧ (∀ m, c.partner = some m →
         s.outs[m].hotHold = false) ∧ inhibited n s = false ∧ demand c = true ∧ needsTok c = true)
    ∧ (let n : Fin 96 := 0
     let s : State := out0 fun c => { c with prot := .offPending, cfg1 := 0x03700000 }
     let tj : Int := (150 : Int)
     isSecondary n s = false ∧ (150 ≤ tj ∨ cellPowered n s = false)) := by
  refine ⟨?_, ?_, ?_, ?_, ?_, ?_, ?_, ?_, ?_, ?_, ?_, ?_, ?_⟩ <;> decide +kernel

end ForProtectionRestart

namespace ForProtectionPackets

def out0 (f : OutSt → OutSt) : State := modOut 0 f live
/-- A learned entry of output 0 in non-volatile memory. -/
def learnt0 : State := writeSlot (learnArea 0) 1 0 10 (zw 10 [(6, 1)] ++ List.replicate 10 20 ++ zs 4) live

theorem witness_ProtectionPackets :
    (let p : Packet := pk (zw 24 [(11, 2)])
     let s : State := modOut 0 (fun c => { c with partner := some 1 }) (modOut 1 (fun c => { c with partner := some 0 }) live)
     let n : Fin 96 := 1
     let b := p.payload
     outMask p.payload = [.out n] ∧ b.length = 24 ∧ opProtConfig.resOk b = true ∧ AtHead 0x0300 (.out n) [outDomain n] p s ∧ isSecondary
         n s = true)
    ∧ (let p : Packet := pk (zw 24 [(11, 1)])
     let s : State := live
     let n : Fin 96 := 0
     let b := p.payload
     let w := numAt b 12 2
     outMask p.payload = [.out n] ∧ b.length = 24 ∧ opProtConfig.resOk b = true ∧ AtHead 0x0300 (.out n) [outDomain n] p s ∧ isSecondary
         n s = false ∧ protRange (outClass n) w (wordAt b 16) (wordAt b 20) = true)
    ∧ (let p : Packet := pk (zw 24 [(11, 1), (12, 4)])
     let s : State := live
     let n : Fin 96 := 0
     let b := p.payload
     let w := numAt b 12 2
     outMask p.payload = [.out n] ∧ b.length = 24 ∧ opProtConfig.resOk b = true ∧ AtHead 0x0300 (.out n) [outDomain n] p s ∧ isSecondary
         n s = false ∧ protRange (outClass n) w (wordAt b 16) (wordAt b 20) = false)
    ∧ (let p : Packet := pk (zw 16 [(11, 2), (12, 1)])
     let s : State := modOut 0 (fun c => { c with partner := some 1 }) (modOut 1 (fun c => { c with partner := some 0 }) live)
     let n : Fin 96 := 1
     let b := p.payload
     outMask p.payload = [.out n] ∧ b.length = 16 ∧ zeroAt [13, 14, 15] b = true ∧ (byteAt b 12).toNat ≤ 1 ∧ AtHead 0x0301 (.out n)
         [outDomain n] p s ∧ isSecondary n s = true ∧ (byteAt b 12).toNat ≤ 2 ∧ AtHead 0x0302 (.out n) [outDomain n] p s)
    ∧ (let p : Packet := pk (zw 16 [(11, 1), (12, 1)])
     let s : State := live
     let n : Fin 96 := 0
     let b := p.payload
     let c := s.outs[n]
     outMask p.payload = [.out n] ∧ b.length = 16 ∧ zeroAt [13, 14, 15] b = true ∧ (byteAt b 12).toNat ≤ 1 ∧ AtHead 0x0301 (.out n)
         [outDomain n] p s ∧ isSecondary n s = false ∧ c.prot = .none ∧ (byteAt b 12).toNat ≤ 2 ∧ AtHead 0x0302 (.out n) [outDomain n] p s
         ∧ ((byteAt b 12 = 1 ∧ envMode c ≠ 3) ∨ (byteAt b 12 = 2 ∧ learnedCodes n (nvView s) = none)))
    ∧ (let p : Packet := pk (zw 16 [(11, 1)])
     let s : State := out0 fun c => { c with prot := .latched }
     let n : Fin 96 := 0
     let b := p.payload
     let c := s.outs[n]
     outMask p.payload = [.out n] ∧ b.length = 16 ∧ zeroAt [13, 14, 15] b = true ∧ (byteAt b 12).toNat ≤ 1 ∧ AtHead 0x0301 (.out n)
         [outDomain n] p s ∧ isSecondary n s = false ∧ c.prot ≠ .none ∧ cool n s = true ∧ (byteAt b 12).toNat ≤ 2 ∧ AtHead 0x0302 (.out n)
         [outDomain n] p s ∧ byteAt b 12 = 0 ∧ fld c.cfg1 0 8 = 0)
    ∧ (let p : Packet := pk (zw 16 [(11, 1), (12, 1)])
     let s : State := out0 fun c => { c with prot := .latched, coolFrom := 5000000000 }
     let n : Fin 96 := 0
     let b := p.payload
     let c := s.outs[n]
     outMask p.payload = [.out n] ∧ b.length = 16 ∧ zeroAt [13, 14, 15] b = true ∧ (byteAt b 12).toNat ≤ 1 ∧ AtHead 0x0301 (.out n)
         [outDomain n] p s ∧ isSecondary n s = false ∧ c.prot ≠ .none ∧ cool n s = false)
    ∧ (let p : Packet := pk (zw 16 [(11, 1)])
     let s : State := out0 fun c => { c with cfg1 := 0x0C0005 }
     let n : Fin 96 := 0
     let b := p.payload
     let c := s.outs[n]
     outMask p.payload = [.out n] ∧ b.length = 16 ∧ zeroAt [13, 14, 15] b = true ∧ (byteAt b 12).toNat ≤ 2 ∧ AtHead 0x0302 (.out n)
         [outDomain n] p s ∧ isSecondary n s = false ∧ byteAt b 12 = 0 ∧ fld c.cfg1 0 8 ≠ 0)
    ∧ (let p : Packet := pk (zw 16 [(11, 1), (12, 1)])
     let s : State := out0 fun c => { c with cfg1 := 0x0C0005 }
     let n : Fin 96 := 0
     let b := p.payload
     let c := s.outs[n]
     outMask p.payload = [.out n] ∧ b.length = 16 ∧ zeroAt [13, 14, 15] b = true ∧ (byteAt b 12).toNat ≤ 2 ∧ AtHead 0x0302 (.out n)
         [outDomain n] p s ∧ isSecondary n s = false ∧ byteAt b 12 = 1 ∧ envMode c = 3)
    ∧ (let p : Packet := pk (zw 16 [(11, 1), (12, 2)])
     let s : State := learnt0
     let n : Fin 96 := 0
     let b := p.payload
     outMask p.payload = [.out n] ∧ b.length = 16 ∧ zeroAt [13, 14, 15] b = true ∧ (byteAt b 12).toNat ≤ 2 ∧ AtHead 0x0302 (.out n)
         [outDomain n] p s ∧ isSecondary n s = false ∧ byteAt b 12 = 2 ∧ (learnedCodes n (nvView s)).isSome = true) := by
  unfold AtHead; refine ⟨?_, ?_, ?_, ?_, ?_, ?_, ?_, ?_, ?_, ?_⟩ <;> decide +kernel

end ForProtectionPackets

namespace ForRegionPackets

theorem witness_RegionPackets :
    (let p : Packet := pk (zw 12 [(0, 64)])
     let s : State := live
     let r : Fin 7 := 6
     let b := p.payload
     let w := numAt b 2 2
     let c1 := merge s.regs[r].cfg1 (wordAt b 4) (maskOf w [(0, 23, 9), (1, 14, 9), (2, 5, 9), (3, 2, 3)])
     let c2 := merge s.regs[r].cfg2 (wordAt b 8) (maskOf w [(4, 24, 8), (5, 16, 8), (6, 8, 8), (7, 4, 4)])
     b.length = 12 ∧ opRegionConfig.resOk b = true ∧ byteAt b 0 = BitVec.ofNat 8 (2 ^ r.val) ∧ AtHead 0x0400 (.region r) [] p s ∧
         regionOk w c1 c2 = true)
    ∧ (let p : Packet := pk (zw 12 [(0, 64), (3, 1)])
     let s : State := live
     let r : Fin 7 := 6
     let b := p.payload
     let w := numAt b 2 2
     let c1 := merge s.regs[r].cfg1 (wordAt b 4) (maskOf w [(0, 23, 9), (1, 14, 9), (2, 5, 9), (3, 2, 3)])
     let c2 := merge s.regs[r].cfg2 (wordAt b 8) (maskOf w [(4, 24, 8), (5, 16, 8), (6, 8, 8), (7, 4, 4)])
     b.length = 12 ∧ opRegionConfig.resOk b = true ∧ byteAt b 0 = BitVec.ofNat 8 (2 ^ r.val) ∧ AtHead 0x0400 (.region r) [] p s ∧
         regionOk w c1 c2 = false)
    ∧ (let p : Packet := pk (zw 20 [(0, 128)])
     let s : State := live
     let i : Fin 120 := 119
     let b := p.payload
     b.length = 20 ∧ opPruneClassSet.resOk b = true ∧ numAt b 0 15 = 2 ^ i.val ∧ governed i s = true ∧ AtHead 0x0401 (idxUnit i)
         (unitDomain (idxUnit i)).toList p s)
    ∧ (let p : Packet := pk (zw 20 [(14, 2)])
     let s : State := modOut 0 (fun c => { c with partner := some 1 }) (modOut 1 (fun c => { c with partner := some 0 }) live)
     let n : Fin 96 := 1
     let b := p.payload
     b.length = 20 ∧ opPruneClassSet.resOk b = true ∧ numAt b 0 15 = 2 ^ n.val ∧ isSecondary n s = true ∧ AtHead 0x0401 (.out n)
         [outDomain n] p s)
    ∧ (let p : Packet := pk (zw 4 [(0, 20)])
     let s : State := live
     let b := p.payload
     b.length = 4 ∧ zeroAt [1, 2, 3] b = true ∧ AtHead 0x0402 .chip [] p s ∧ 20 ≤ (byteAt b 0).toNat ∧ (byteAt b 0).toNat ≤ 120)
    ∧ (let p : Packet := pk (zw 4 [(0, 19)])
     let s : State := live
     let b := p.payload
     b.length = 4 ∧ zeroAt [1, 2, 3] b = true ∧ AtHead 0x0402 .chip [] p s ∧ ((byteAt b 0).toNat < 20 ∨ 120 < (byteAt b 0).toNat)) := by
  unfold AtHead; refine ⟨?_, ?_, ?_, ?_, ?_, ?_⟩ <;> decide +kernel

end ForRegionPackets

namespace ForSupplyAndHeatRows

def reg6 (f : RegSt → RegSt) (s : State := live) : State := modReg 6 f s

theorem witness_SupplyAndHeatRows :
    (let r : Fin 7 := 0
     let s : State := live
     let l : Fin 3 := 2
     let mV : Nat := (pruneMV s.regs[r].cfg1 l) - 1
     let us : Nat := 9999
     mV < pruneMV s.regs[r].cfg1 l ∧ pruneFilter s.regs[r].cfg1 ≤ us * 1000 ∧ (mV < pruneMV s.regs[r].cfg1 l + 500 ∨ us < 10000))
    ∧ (let r : Fin 7 := 0
     let s : State := live
     let l : Fin 3 := 2
     let mV : Nat := (pruneMV s.regs[r].cfg1 l) + 500
     let us : Nat := 10000
     (pruneMV s.regs[r].cfg1 l ≤ mV ∨ us * 1000 < pruneFilter s.regs[r].cfg1) ∧ pruneMV s.regs[r].cfg1 l + 500 ≤ mV ∧ 10000 ≤ us)
    ∧ (let r : Fin 7 := 0
     let s : State := live
     let mV : Nat := 3499
     let us : Nat := 9999
     mV < 3500 ∧ s.regs[r].uv = false ∧ (mV < 4000 ∨ s.regs[r].uv = false ∨ us < 10000))
    ∧ (let r : Fin 7 := 6
     let s : State := reg6 fun x => { x with uv := true }
     let mV : Nat := 3499
     mV < 3500 ∧ s.regs[r].uv = true)
    ∧ (let mV : Nat := 3500
     3500 ≤ mV)
    ∧ (let r : Fin 7 := 6
     let s : State := reg6 fun x => { x with uv := true }
     let mV : Nat := 4000
     let us : Nat := 10000
     4000 ≤ mV ∧ s.regs[r].uv = true ∧ 10000 ≤ us)
    ∧ (let r : Fin 7 := 6
     let s : State := reg6 fun x => { x with restore := [119], releaseAt := some 4999900000 }
     let i := 119
     let due := s.regs[r].releaseAt.all (fun t => decide (t + 100000 ≤ s.clk.now))
     nextRestore r s = some i ∧ regionOn r s = true ∧ s.regs[r].uv = false ∧ due = true)
    ∧ (let r : Fin 7 := 6
     let s : State := reg6 fun x => { x with restore := [119], releaseAt := some 4999900001 }
     let i := 119
     let due := s.regs[r].releaseAt.all (fun t => decide (t + 100000 ≤ s.clk.now))
     nextRestore r s = some i ∧ (regionOn r s = false ∨ s.regs[r].uv = true ∨ due = false))
    ∧ (let r : Fin 7 := 0
     let s : State := live
     nextRestore r s = none ∧ r.val < 5)
    ∧ (let r : Fin 7 := 0
     let s : State := live
     regionOn r s = true)
    ∧ (let r : Fin 7 := 0
     let s : State := dst [6] .off
     regionOn r s = false)
    ∧ (let r : Fin 7 := 6
     let s : State := reg6 fun x => { x with therm := 7, coolAt := x.coolAt.set 2 (some 4000000000) }
     let l : Fin 3 := 2
     let t0 := 4000000000
     let x := s.regs[r]
     x.coolAt[l] = some t0 ∧ regionOn r s = true ∧ x.therm.getLsbD l.val = true ∧ t0 + 1000000000 ≤ s.clk.now)
    ∧ (let r : Fin 7 := 0
     let s : State := live
     let l : Fin 3 := 2
     let x := s.regs[r]
     (regionOn r s = false ∨ x.coolAt[l].any (fun t0 => decide (t0 + 1000000000 ≤ s.clk.now)) = false ∨ x.therm.getLsbD l.val = false))
    ∧ (let r : Fin 7 := 6
     5 ≤ r.val) := by
  refine ⟨?_, ?_, ?_, ?_, ?_, ?_, ?_, ?_, ?_, ?_, ?_, ?_, ?_, ?_⟩ <;> decide +kernel

end ForSupplyAndHeatRows

namespace ForFaultInjection

/-- An injection in force, contained or fatal, that ends at `t`. -/
def injected (cont : Bool) (t : Nat) : Inject := { checker := 1, block := 0, cont := cont, target := 0, endAt := t, armWait := false, armAt := none, fired := 0 }
def injecting (cont : Bool) (t : Nat) : State := { live with flt := { live.flt with inject := some (injected cont t) } }

theorem witness_FaultInjection :
    (let p : Packet := { pka [1, 0, 0, 0, 0, 1, 0, 0] with host := 11 }
     let s : State := live
     let b := p.payload
     let mode := numAt b 2 1
     b.length = 8 ∧ zeroAt [6, 7] b = true ∧ (injAny 1 p = [] ∨ ∃ d ∈ injAny 1 p, domOn d s = true) ∧ AtHead 0x1000 .chip (injDoms 1 p)
         p s ∧ mode ≤ 2 ∧ (p.host = 11 ∨ p.host = 12) ∧ s.flt.inject = none)
    ∧ (let p : Packet := pka [1, 25, 0, 0, 0, 1, 0, 0]
     let s : State := live
     let b := p.payload
     let bn := numAt b 1 1
     let mode := numAt b 2 1
     let ms := numAt b 4 2
     let k : Fin 25 := Fin.ofNat 25 bn
     b.length = 8 ∧ zeroAt [6, 7] b = true ∧ (injAny 1 p = [] ∨ ∃ d ∈ injAny 1 p, domOn d s = true) ∧ AtHead 0x1000 .chip (injDoms 1 p)
         p s ∧ mode ≤ 2 ∧ p.host ≠ 11 ∧ p.host ≠ 12 ∧ mode ≤ 1 ∧ (¬ (bn < 25 ∧ checkerIn (numAt b 0 1) bn = true ∧ targetOk (numAt b 0 1)
         k (numAt b 3 1) = true ∧ (mode = 1 → contChecker (numAt b 0 1) = true ∧ 1 ≤ ms ∧ ms ≤ 10000))))
    ∧ (let p : Packet := pka [1, 0, 0, 0, 0, 1, 0, 0]
     let s : State := injecting true 5000000000
     let b := p.payload
     let bn := numAt b 1 1
     let mode := numAt b 2 1
     let ms := numAt b 4 2
     let k : Fin 25 := Fin.ofNat 25 bn
     b.length = 8 ∧ zeroAt [6, 7] b = true ∧ (injAny 1 p = [] ∨ ∃ d ∈ injAny 1 p, domOn d s = true) ∧ AtHead 0x1000 .chip (injDoms 1 p)
         p s ∧ mode ≤ 2 ∧ p.host ≠ 11 ∧ p.host ≠ 12 ∧ mode ≤ 1 ∧ (bn < 25 ∧ checkerIn (numAt b 0 1) bn = true ∧ targetOk (numAt b 0 1) k
         (numAt b 3 1) = true ∧ (mode = 1 → contChecker (numAt b 0 1) = true ∧ 1 ≤ ms ∧ ms ≤ 10000)) ∧ s.flt.inject ≠ none)
    ∧ (let p : Packet := pka [1, 0, 0, 0, 0, 1, 0, 0]
     let s : State := modBlk 0 (fun x => { x with degraded := [1] }) live
     let b := p.payload
     let bn := numAt b 1 1
     let mode := numAt b 2 1
     let ms := numAt b 4 2
     let k : Fin 25 := Fin.ofNat 25 bn
     let c : BitVec 6 := BitVec.ofNat 6 (numAt b 0 1)
     b.length = 8 ∧ zeroAt [6, 7] b = true ∧ (injAny 1 p = [] ∨ ∃ d ∈ injAny 1 p, domOn d s = true) ∧ AtHead 0x1000 .chip (injDoms 1 p)
         p s ∧ mode ≤ 2 ∧ p.host ≠ 11 ∧ p.host ≠ 12 ∧ mode ≤ 1 ∧ (bn < 25 ∧ checkerIn (numAt b 0 1) bn = true ∧ targetOk (numAt b 0 1) k
         (numAt b 3 1) = true ∧ (mode = 1 → contChecker (numAt b 0 1) = true ∧ 1 ≤ ms ∧ ms ≤ 10000)) ∧ s.flt.inject = none ∧ inForce k c s
         = true)
    ∧ (let p : Packet := pka [1, 0, 0, 0, 0, 1, 0, 0]
     let s : State := live
     let b := p.payload
     let bn := numAt b 1 1
     let mode := numAt b 2 1
     let ms := numAt b 4 2
     let k : Fin 25 := Fin.ofNat 25 bn
     let c : BitVec 6 := BitVec.ofNat 6 (numAt b 0 1)
     b.length = 8 ∧ zeroAt [6, 7] b = true ∧ (injAny 1 p = [] ∨ ∃ d ∈ injAny 1 p, domOn d s = true) ∧ AtHead 0x1000 .chip (injDoms 1 p)
         p s ∧ mode ≤ 2 ∧ p.host ≠ 11 ∧ p.host ≠ 12 ∧ mode ≤ 1 ∧ (bn < 25 ∧ checkerIn (numAt b 0 1) bn = true ∧ targetOk (numAt b 0 1) k
         (numAt b 3 1) = true ∧ (mode = 1 → contChecker (numAt b 0 1) = true ∧ 1 ≤ ms ∧ ms ≤ 10000)) ∧ s.flt.inject = none ∧ inForce k c s
         = false)
    ∧ (let p : Packet := pka [0, 0, 2, 0, 0, 0, 0, 0]
     let s : State := live
     let b := p.payload
     let mode := numAt b 2 1
     b.length = 8 ∧ zeroAt [6, 7] b = true ∧ (injAny 1 p = [] ∨ ∃ d ∈ injAny 1 p, domOn d s = true) ∧ AtHead 0x1000 .chip (injDoms 1 p)
         p s ∧ mode ≤ 2 ∧ p.host ≠ 11 ∧ p.host ≠ 12 ∧ mode = 2)
    ∧ (let p : Packet := pka [25, 0, 0, 0]
     let s : State := live
     let b := p.payload
     b.length = 4 ∧ zeroAt [1, 2, 3] b = true ∧ (injAny 0 p = [] ∨ ∃ d ∈ injAny 0 p, domOn d s = true) ∧ AtHead 0x1001 .chip (injDoms 0
         p) p s ∧ (p.host = 11 ∨ p.host = 12 ∨ 25 ≤ numAt b 0 1))
    ∧ (let p : Packet := pka (zs 4)
     let s : State := live
     let b := p.payload
     let f : Fin 25 := Fin.ofNat 25 (numAt b 0 1)
     b.length = 4 ∧ zeroAt [1, 2, 3] b = true ∧ (injAny 0 p = [] ∨ ∃ d ∈ injAny 0 p, domOn d s = true) ∧ AtHead 0x1001 .chip (injDoms 0
         p) p s ∧ p.host ≠ 11 ∧ p.host ≠ 12 ∧ numAt b 0 1 < 25 ∧ inForce f 1 s = false)
    ∧ (let p : Packet := pka (zs 4)
     let s : State := modBlk 0 (fun x => { x with degraded := [1] }) live
     let b := p.payload
     let f : Fin 25 := Fin.ofNat 25 (numAt b 0 1)
     b.length = 4 ∧ zeroAt [1, 2, 3] b = true ∧ (injAny 0 p = [] ∨ ∃ d ∈ injAny 0 p, domOn d s = true) ∧ AtHead 0x1001 .chip (injDoms 0
         p) p s ∧ p.host ≠ 11 ∧ p.host ≠ 12 ∧ numAt b 0 1 < 25 ∧ inForce f 1 s = true)
    ∧ (let s : State := injecting true 5000000000
     let j := injected true 5000000000
     s.flt.inject = some j ∧ j.cont = true ∧ j.endAt ≤ s.clk.now)
    ∧ (let s : State := injecting false 5000000000
     let j := injected false 5000000000
     s.flt.inject = some j ∧ (j.cont = false ∨ s.clk.now < j.endAt))
    ∧ (let s : State :=
         { live with flt := { live.flt with inject := some { injected true 5000000000 with checker := 2, block := regionBlock 0 } } }
     let j := { injected true 5000000000 with checker := 2, block := regionBlock 0 }
     let r : Fin 7 := 0
     s.flt.inject = some j ∧ armed j = true ∧ j.checker = 2 ∧ j.block = regionBlock r ∧ 3 ≤ s.boot.phase ∧ inForce (regionBlock r) 2 s =
         false) := by
  unfold AtHead; refine ⟨?_, ?_, ?_, ?_, ?_, ?_, ?_, ?_, ?_, ?_, ?_, ?_⟩ <;> decide +kernel

end ForFaultInjection

namespace ForFaultRows

/-- `live` with the root clock running. -/
def rooted (f : FltSt → FltSt := id) : State := { live with dom := { live.dom with root := true }, flt := f live.flt }
def crossed (t : Nat) : State := modReg 6 (fun x => { x with crossAt := some t }) (modBlk (regionBlock 6) (fun x => { x with degraded := [2] }) live)
def clearing (m : Nat) : State := { modBlk 11 (fun x => { x with degraded := [1] }) live with flt := { (modBlk 11 (fun x => { x with degraded := [1] }) live).flt with clear := [(qp (pk []) .chip, 11, m)] } }
def atSlot (b : Fin 25) (pos : Nat) (s : State := live) : State := modSeq b (fun q => { q with pos := pos }) s

theorem witness_FaultRows :
    (let s : State := live
     let b : Fin 25 := 0
     let i : Fin 16 := 7
     let d := dueSlot b s
     s.flt.inject.any armed = false ∧ (adcRuns b s = false ∨ 16 ≤ b.val ∨ (d.1 ≠ .current i.val ∧ d.1 ≠ .voltage i.val)))
    ∧ (let s : State := modOut 0 (fun c => { c with st := .on, mode := 3, vals := ⟨100, 50, 0⟩ }) live
     let b : Fin 25 := 0
     let i : Fin 16 := 0
     let d := dueSlot b s
     let n : Fin 96 := blockCell b i.val
     s.flt.inject.any armed = false ∧ adcRuns b s = true ∧ b.val < 12 ∧ (d = (.current i.val, false) ∧ pwmCell n s = true ∧ inOnPhase n
         s = false))
    ∧ (let s : State := live
     let b : Fin 25 := 0
     let i : Fin 16 := 0
     let d := dueSlot b s
     let n : Fin 96 := blockCell b i.val
     s.flt.inject.any armed = false ∧ adcRuns b s = true ∧ b.val < 12 ∧ (¬ (d = (.current i.val, false) ∧ pwmCell n s = true ∧ inOnPhase
         n s = false)) ∧ d.1 = .current i.val)
    ∧ (let s : State := atSlot 0 1
     let b : Fin 25 := 0
     let i : Fin 16 := 0
     let d := dueSlot b s
     s.flt.inject.any armed = false ∧ adcRuns b s = true ∧ b.val < 12 ∧ d.1 = .voltage i.val)
    ∧ (let s : State := live
     let b : Fin 25 := 12
     let i : Fin 16 := 0
     let d := dueSlot b s
     s.flt.inject.any armed = false ∧ adcRuns b s = true ∧ 12 ≤ b.val ∧ b.val < 14 ∧ d.1 = .current i.val)
    ∧ (let s : State := atSlot 13 15
     let b : Fin 25 := 13
     let i : Fin 16 := 7
     let d := dueSlot b s
     s.flt.inject.any armed = false ∧ adcRuns b s = true ∧ 12 ≤ b.val ∧ b.val < 14 ∧ d.1 = .voltage i.val)
    ∧ (let s : State := live
     let b : Fin 25 := 14
     let i : Fin 16 := 0
     let d := dueSlot b s
     s.flt.inject.any armed = false ∧ adcRuns b s = true ∧ 14 ≤ b.val ∧ b.val < 16 ∧ d.1 = .voltage i.val ∧ i.val < 8)
    ∧ (let s : State := atSlot 15 11
     let b : Fin 25 := 15
     let i : Fin 16 := 9
     let d := dueSlot b s
     s.flt.inject.any armed = false ∧ adcRuns b s = true ∧ 14 ≤ b.val ∧ b.val < 16 ∧ d.1 = .voltage i.val ∧ 8 ≤ i.val)
    ∧ (let s : State := atSlot 14 8
     let b : Fin 25 := 14
     let i : Fin 16 := 8
     let d := dueSlot b s
     s.flt.inject.any armed = false ∧ adcRuns b s = true ∧ 14 ≤ b.val ∧ b.val < 16 ∧ d.1 = .current i.val ∧ 8 ≤ i.val)
    ∧ (let s : State := atSlot 0 17
     let b : Fin 25 := 0
     s.flt.inject.any armed = false ∧ adcRuns b s = true ∧ b.val < 16 ∧ dueSlot b s = (.pump, false))
    ∧ (let s : State := live
     let b : Fin 25 := 0
     s.flt.inject.any armed = false ∧ (adcRuns b s = false ∨ 16 ≤ b.val ∨ dueSlot b s ≠ (.pump, false)))
    ∧ (let s : State := live
     let b : Fin 25 := 17
     let x := s.flt.blocks[b]
     s.flt.inject.any armed = false ∧ hasAdc b = true ∧ domOn (blockDomain b) s = true ∧ inForce b 1 s = false ∧ (b.val = 17 ∨ dueSlot b
         s = (.selfCheck, false)) ∧ x.selfFail = false ∧ (s.flt.clear.any fun y => y.2.1 = b) = false)
    ∧ (let s : State := atSlot 0 16 (modBlk 0 (fun x => { x with selfFail := true }) live)
     let b : Fin 25 := 0
     let x := s.flt.blocks[b]
     s.flt.inject.any armed = false ∧ hasAdc b = true ∧ domOn (blockDomain b) s = true ∧ inForce b 1 s = false ∧ (b.val = 17 ∨ dueSlot b
         s = (.selfCheck, false)) ∧ x.selfFail = true)
    ∧ (let s : State := live
     let b : Fin 25 := 0
     s.flt.inject.any armed = false ∧ hasAdc b = true ∧ domOn (blockDomain b) s = true ∧ inForce b 1 s = false ∧ b.val ≠ 17 ∧ dueSlot b
         s ≠ (.selfCheck, false))
    ∧ (let s : State := modBlk 11 (fun x => { x with degraded := [1] }) live
     let b : Fin 25 := 11
     s.flt.inject.any armed = false ∧ hasAdc b = true ∧ domOn (blockDomain b) s = true ∧ inForce b 1 s = true ∧ (s.flt.clear.any fun y
         => y.2.1 = b) = false)
    ∧ (let s : State := clearing 2
     let b : Fin 25 := 11
     let q := qp (pk []) .chip
     let m := 2
     s.flt.inject.any armed = false ∧ hasAdc b = true ∧ domOn (blockDomain b) s = true ∧ inForce b 1 s = true ∧ s.flt.clear.find? (fun y
         => y.2.1 = b) = some (q, b, m) ∧ 2 ≤ m)
    ∧ (let s : State := clearing 1
     let b : Fin 25 := 11
     let q := qp (pk []) .chip
     let m := 1
     s.flt.inject.any armed = false ∧ hasAdc b = true ∧ domOn (blockDomain b) s = true ∧ inForce b 1 s = true ∧ s.flt.clear.find? (fun y
         => y.2.1 = b) = some (q, b, m) ∧ m ≤ 1)
    ∧ (let s : State := booted 3 1
     s.flt.inject.any armed = false ∧ s.boot.phase < 4)
    ∧ (let s : State := live
     s.flt.inject.any armed = false ∧ 4 ≤ s.boot.phase ∧ domOn 14 s = true)
    ∧ (let s : State := live
     let place := EccPlace.stagingSram
     s.flt.inject.any armed = false ∧ 4 ≤ s.boot.phase ∧ (place = .switchSram ∨ place = .keySram ∨ place = .stagingSram ∨ place =
         .trellisSram))
    ∧ (let s : State := live
     let row : Instr := .fatalFault 0x10
     let checker : BitVec 6 := 0x10
     let recent := s.flt.fatals.filter fun t => decide (s.clk.life.toNat < t.toNat + tenSec)
     s.flt.inject.any armed = false ∧ ((row = .fatalFault checker ∧ fatalChecker checker = true ∧ s.dom.root = true) ∨ (row = .eccError
         .engineSram true ∧ checker = 0x12 ∧ 4 ≤ s.boot.phase)) ∧ s.boot.condition ≠ 1 ∧ s.boot.condition ≠ 3 ∧ recent.length < 2)
    ∧ (let s : State := booted 4 1
     let row : Instr := .fatalFault 0x10
     let checker : BitVec 6 := 0x10
     let recent := s.flt.fatals.filter fun t => decide (s.clk.life.toNat < t.toNat + tenSec)
     s.flt.inject.any armed = false ∧ ((row = .fatalFault checker ∧ fatalChecker checker = true ∧ s.dom.root = true) ∨ (row = .eccError
         .engineSram true ∧ checker = 0x12 ∧ 4 ≤ s.boot.phase)) ∧ s.boot.condition = 1 ∧ recent.length < 2)
    ∧ (let s : State := rooted fun f => { f with fatals := [0, 0] }
     let row : Instr := .fatalFault 0x10
     let checker : BitVec 6 := 0x10
     let recent := s.flt.fatals.filter fun t => decide (s.clk.life.toNat < t.toNat + tenSec)
     s.flt.inject.any armed = false ∧ ((row = .fatalFault checker ∧ fatalChecker checker = true ∧ s.dom.root = true) ∨ (row = .eccError
         .engineSram true ∧ checker = 0x12 ∧ 4 ≤ s.boot.phase)) ∧ s.boot.condition ≠ 3 ∧ 2 ≤ recent.length)
    ∧ (let s : State := booted 7 3
     let row : Instr := .fatalFault 0x10
     let checker : BitVec 6 := 0x10
     s.flt.inject.any armed = false ∧ ((row = .fatalFault checker ∧ fatalChecker checker = true ∧ s.dom.root = true) ∨ (row = .eccError
         .engineSram true ∧ checker = 0x12 ∧ 4 ≤ s.boot.phase)) ∧ s.boot.condition = 3)
    ∧ (let s : State := live
     let checker : BitVec 6 := 0x11
     s.flt.inject.any armed = false ∧ (fatalChecker checker = false ∨ s.dom.root = false))
    ∧ (let s : State := live
     let r : Fin 7 := 6
     let mV := 501
     s.flt.inject.any armed = false ∧ 3 ≤ s.boot.phase ∧ inForce (regionBlock r) 2 s = false ∧ 500 < mV)
    ∧ (let s : State := live
     let r : Fin 7 := 6
     let mV := 500
     s.flt.inject.any armed = false ∧ (s.boot.phase < 3 ∨ mV ≤ 500 ∨ inForce (regionBlock r) 2 s = true))
    ∧ (let s : State := crossed 4000000000
     let r : Fin 7 := 6
     s.flt.inject.any armed = false ∧ inForce (regionBlock r) 2 s = true ∧ s.regs[r].crossAt.all (fun t => decide (t + 1000000000 ≤
         s.clk.now)) = true)
    ∧ (let s : State := live
     let r : Fin 7 := 6
     s.flt.inject.any armed = false ∧ (inForce (regionBlock r) 2 s = false ∨ s.regs[r].crossAt.all (fun t => decide (t + 1000000000 ≤
         s.clk.now)) = false))
    ∧ (let s : State := dst [14] .off
     s.flt.inject.any armed = false ∧ domOn 14 s = false) := by
  refine ⟨?_, ?_, ?_, ?_, ?_, ?_, ?_, ?_, ?_, ?_, ?_, ?_, ?_, ?_, ?_, ?_, ?_, ?_, ?_, ?_, ?_, ?_, ?_, ?_, ?_, ?_, ?_, ?_, ?_, ?_⟩ <;> decide +kernel

end ForFaultRows

namespace ForBridgePackets

def br7 (f : BrSt → BrSt) : State := modBr 7 f live

theorem witness_BridgePackets :
    (let p : Packet := pk (zw 12 [(0, 128), (1, 2), (3, 64)])
     let s : State := live
     let k : Fin 8 := 7
     let b := p.payload
     let x := s.brs[k]
     let u : UnitRef := .leg (legA k)
     let c : BrCmd := ⟨(byteAt b 1).toNat, numAt b 2 2, (wordAt b 4).toInt, (byteAt b 8).getLsbD 0⟩
     b.length = 12 ∧ opBrMove.resOk b = true ∧ byteAt b 0 = BitVec.ofNat 8 (2 ^ k.val) ∧ AtHead 0x0500 u [10] p s ∧ (¬ (x.st = .tripped
         ∧ moveDemand c x.pos = true)) ∧ brFields x c = true ∧ (c.mode = 4 → x.posValid = true) ∧ brHomeOk x c = true)
    ∧ (let p : Packet := pk (zw 12 [(0, 128), (1, 2), (3, 64)])
     let s : State := br7 fun x => { x with st := .tripped }
     let k : Fin 8 := 7
     let b := p.payload
     let x := s.brs[k]
     let u : UnitRef := .leg (legA k)
     let c : BrCmd := ⟨(byteAt b 1).toNat, numAt b 2 2, (wordAt b 4).toInt, (byteAt b 8).getLsbD 0⟩
     b.length = 12 ∧ opBrMove.resOk b = true ∧ byteAt b 0 = BitVec.ofNat 8 (2 ^ k.val) ∧ AtHead 0x0500 u [10] p s ∧ (x.st = .tripped ∧
         moveDemand c x.pos = true))
    ∧ (let p : Packet := pk (zw 12 [(0, 128), (1, 5)])
     let s : State := live
     let k : Fin 8 := 7
     let b := p.payload
     let x := s.brs[k]
     let u : UnitRef := .leg (legA k)
     let c : BrCmd := ⟨(byteAt b 1).toNat, numAt b 2 2, (wordAt b 4).toInt, (byteAt b 8).getLsbD 0⟩
     b.length = 12 ∧ opBrMove.resOk b = true ∧ byteAt b 0 = BitVec.ofNat 8 (2 ^ k.val) ∧ AtHead 0x0500 u [10] p s ∧ (¬ (x.st = .tripped
         ∧ moveDemand c x.pos = true)) ∧ brFields x c = false)
    ∧ (let p : Packet := pk (zw 12 [(0, 128), (1, 4), (2, 4)])
     let s : State := live
     let k : Fin 8 := 7
     let b := p.payload
     let x := s.brs[k]
     let u : UnitRef := .leg (legA k)
     let c : BrCmd := ⟨(byteAt b 1).toNat, numAt b 2 2, (wordAt b 4).toInt, (byteAt b 8).getLsbD 0⟩
     b.length = 12 ∧ opBrMove.resOk b = true ∧ byteAt b 0 = BitVec.ofNat 8 (2 ^ k.val) ∧ AtHead 0x0500 u [10] p s ∧ (¬ (x.st = .tripped
         ∧ moveDemand c x.pos = true)) ∧ brFields x c = true ∧ c.mode = 4 ∧ x.posValid = false)
    ∧ (let p : Packet := pk (zw 12 [(0, 128), (1, 2), (3, 64), (8, 1)])
     let s : State := live
     let k : Fin 8 := 7
     let b := p.payload
     let x := s.brs[k]
     let u : UnitRef := .leg (legA k)
     let c : BrCmd := ⟨(byteAt b 1).toNat, numAt b 2 2, (wordAt b 4).toInt, (byteAt b 8).getLsbD 0⟩
     b.length = 12 ∧ opBrMove.resOk b = true ∧ byteAt b 0 = BitVec.ofNat 8 (2 ^ k.val) ∧ AtHead 0x0500 u [10] p s ∧ (¬ (x.st = .tripped
         ∧ moveDemand c x.pos = true)) ∧ brFields x c = true ∧ (c.mode = 4 → x.posValid = true) ∧ brHomeOk x c = false)
    ∧ (let p : Packet := pk (zw 16 [(0, 128)])
     let s : State := live
     let k : Fin 8 := 7
     let b := p.payload
     let u : UnitRef := .leg (legA k)
     let w := numAt b 2 2
     b.length = 16 ∧ opBrConfig.resOk b = true ∧ byteAt b 0 = BitVec.ofNat 8 (2 ^ k.val) ∧ AtHead 0x0501 u [10] p s ∧ brConfigOk w
         (wordAt b 4) (wordAt b 8) (wordAt b 12) = true)
    ∧ (let p : Packet := pk (zw 16 [(0, 128), (2, 255), (3, 255)])
     let s : State := live
     let k : Fin 8 := 7
     let b := p.payload
     let u : UnitRef := .leg (legA k)
     let w := numAt b 2 2
     b.length = 16 ∧ opBrConfig.resOk b = true ∧ byteAt b 0 = BitVec.ofNat 8 (2 ^ k.val) ∧ AtHead 0x0501 u [10] p s ∧ brConfigOk w
         (wordAt b 4) (wordAt b 8) (wordAt b 12) = false)
    ∧ (let p : Packet := pk (zw 4 [(0, 7), (1, 1)])
     let s : State := live
     let k : Fin 8 := 7
     let b := p.payload
     let u : UnitRef := .leg (legA k)
     b.length = 4 ∧ zeroAt [2, 3] b = true ∧ (byteAt b 0).toNat = k.val ∧ byteAt b 1 = 1 ∧ AtHead 0x0502 u [10] p s)
    ∧ (let p : Packet := pk (zw 4 [(0, 128)])
     let s : State := br7 fun x => { x with st := .tripped }
     let k : Fin 8 := 7
     let b := p.payload
     let x := s.brs[k]
     let u : UnitRef := .leg (legA k)
     b.length = 4 ∧ zeroAt [1, 2, 3] b = true ∧ byteAt b 0 = BitVec.ofNat 8 (2 ^ k.val) ∧ AtHead 0x0503 u [10] p s ∧ x.st = .tripped ∧
         legsCool k s = true ∧ zeroAt [2, 3] b = true ∧ AtHead 0x0505 u [10] p s ∧ byteAt b 1 = 0 ∧ (fld x.cfg3 16 16 = 0 ∨ x.posValid =
         false))
    ∧ (let p : Packet := pk (zw 4 [(0, 128)])
     let s : State := modLeg (legB 7) (fun x => { x with tj := 150 }) (br7 fun x => { x with st := .tripped })
     let k : Fin 8 := 7
     let b := p.payload
     let x := s.brs[k]
     let u : UnitRef := .leg (legA k)
     b.length = 4 ∧ zeroAt [1, 2, 3] b = true ∧ byteAt b 0 = BitVec.ofNat 8 (2 ^ k.val) ∧ AtHead 0x0503 u [10] p s ∧ x.st = .tripped ∧
         legsCool k s = false)
    ∧ (let p : Packet := pk (zw 4 [(0, 128)])
     let s : State := br7 fun x => { x with cfg3 := 0x00640000, posValid := true }
     let k : Fin 8 := 7
     let b := p.payload
     let x := s.brs[k]
     let u : UnitRef := .leg (legA k)
     b.length = 4 ∧ zeroAt [1, 2, 3] b = true ∧ byteAt b 0 = BitVec.ofNat 8 (2 ^ k.val) ∧ AtHead 0x0503 u [10] p s ∧ x.st ≠ .tripped ∧
         zeroAt [2, 3] b = true ∧ AtHead 0x0505 u [10] p s ∧ byteAt b 1 = 0 ∧ fld x.cfg3 16 16 ≠ 0 ∧ x.posValid = true)
    ∧ (let p : Packet := pk (zw 8 [(0, 7)])
     let s : State := live
     let k : Fin 8 := 7
     let b := p.payload
     let x := s.brs[k]
     let u : UnitRef := .leg (legA k)
     b.length = 8 ∧ zeroAt [2, 3] b = true ∧ onlyBits 1 1 b = true ∧ (byteAt b 0).toNat = k.val ∧ AtHead 0x0504 u [10] p s ∧ x.atRest =
         true)
    ∧ (let p : Packet := pk (zw 8 [(0, 7)])
     let s : State := br7 fun x => { x with st := .run }
     let k : Fin 8 := 7
     let b := p.payload
     let x := s.brs[k]
     let u : UnitRef := .leg (legA k)
     b.length = 8 ∧ zeroAt [2, 3] b = true ∧ onlyBits 1 1 b = true ∧ (byteAt b 0).toNat = k.val ∧ AtHead 0x0504 u [10] p s ∧ x.atRest =
         false)
    ∧ (let p : Packet := pk (zw 4 [(0, 128), (1, 1)])
     let s : State := live
     let k : Fin 8 := 7
     let b := p.payload
     let u : UnitRef := .leg (legA k)
     b.length = 4 ∧ zeroAt [2, 3] b = true ∧ byteAt b 0 = BitVec.ofNat 8 (2 ^ k.val) ∧ AtHead 0x0505 u [10] p s ∧ byteAt b 1 = 1)
    ∧ (let p : Packet := pk (zw 4 [(0, 128), (1, 2)])
     let s : State := live
     let k : Fin 8 := 7
     let b := p.payload
     let u : UnitRef := .leg (legA k)
     b.length = 4 ∧ zeroAt [2, 3] b = true ∧ byteAt b 0 = BitVec.ofNat 8 (2 ^ k.val) ∧ AtHead 0x0505 u [10] p s ∧ byteAt b 1 = 2)
    ∧ (let p : Packet := pk (zw 4 [(0, 128), (1, 3)])
     let s : State := live
     let k : Fin 8 := 7
     let b := p.payload
     let u : UnitRef := .leg (legA k)
     b.length = 4 ∧ zeroAt [2, 3] b = true ∧ byteAt b 0 = BitVec.ofNat 8 (2 ^ k.val) ∧ AtHead 0x0505 u [10] p s ∧ 3 ≤ (byteAt b 1).toNat) := by
  unfold AtHead; refine ⟨?_, ?_, ?_, ?_, ?_, ?_, ?_, ?_, ?_, ?_, ?_, ?_, ?_, ?_, ?_, ?_⟩ <;> decide +kernel

end ForBridgePackets

namespace ForBridgeMotion

def br7 (f : BrSt → BrSt) : State := modBr 7 f live
/-- Bridge 7 closing under anti-pinch protection, with a run limit of 1 s, a stall time of 10 ms and a threshold. -/
def closing7 (f : BrSt → BrSt := id) : State := br7 fun x => f { x with st := .run, cfg1 := 4, cfg2 := 0x01000430, fwd := closeFwd x, driveAt := 4500000000, stateAt := 4500000000 }
def rev7 : Reversal := ⟨4994000000, 1000000, none, 0⟩

theorem witness_BridgeMotion :
    (let k : Fin 8 := 7
     let s : State := br7 fun x => { x with st := .start, stateAt := 5000000000 - startSpan x }
     let x := s.brs[k]
     x.st = .start ∧ x.stateAt + startSpan x ≤ s.clk.now ∧ rippleCounts x = true ∧ (x.lastPulse = none ∨ x.periods.length < 8 ∨ ∃ t0,
         x.lastPulse = some t0 ∧ 4 * x.periods.sum ≤ 80 * (s.clk.now - t0) ∧ 32 * (s.clk.now - t0) ≤ 7 * x.periods.sum) ∧ ((x.st ≠ .start
         ∧ x.st ≠ .run) ∨ x.ranNs + (s.clk.now - x.driveAt) < runLimitNs x) ∧ (¬ (x.st = .run ∨ (x.st = .reversing ∧ (x.rev.bind
         (·.driveAt)).isSome = true)) ∨ ¬ (max (x.lastPulse.getD 0) (if x.st == .run then x.stateAt else x.driveAt) + stallT x ≤
         s.clk.now)) ∧ (x.st ≠ .reversing ∨ x.rev = none) ∧ (x.st ≠ .stopping ∨ brStill x s.clk.now = false) ∧ (x.st ≠ .stopping ∨
         s.clk.now < x.stateAt + brakeMax x))
    ∧ (let k : Fin 8 := 7
     let s : State := closing7 fun x => { x with driveAt := 4000000000 }
     let x := s.brs[k]
     (x.st ≠ .start ∨ s.clk.now < x.stateAt + startSpan x) ∧ (x.st = .start ∨ x.st = .run) ∧ runLimitNs x ≤ x.ranNs + (s.clk.now -
         x.driveAt) ∧ (x.st = .run ∨ (x.st = .reversing ∧ (x.rev.bind (·.driveAt)).isSome = true)) ∧ max (x.lastPulse.getD 0) (if x.st ==
         .run then x.stateAt else x.driveAt) + stallT x ≤ s.clk.now ∧ stallEnd x = none ∧ x.st = .run ∧ (closing x && pinchEn x) = true)
    ∧ (let k : Fin 8 := 7
     let s : State := br7 fun x => { x with st := .start, lastPulse := some 4999999000, periods := List.replicate 8 100000 }
     let t0 := 4999999000
     let x := s.brs[k]
     x.lastPulse = some t0 ∧ 8 ≤ x.periods.length ∧ 80 * (s.clk.now - t0) < 4 * x.periods.sum)
    ∧ (let k : Fin 8 := 7
     let s : State := live
     let x := s.brs[k]
     rippleCounts x = false)
    ∧ (let k : Fin 8 := 7
     let s : State := closing7 fun x =>
         { x with stateAt := 4990000000, cfg3 := 0x00640000, act3 := 0x00640000, posValid := true, pos := closedEnd { x with act3 := 0x00640000 } }
     let e := (100 : Int)
     let x := s.brs[k]
     (x.st = .run ∨ (x.st = .reversing ∧ (x.rev.bind (·.driveAt)).isSome = true)) ∧ max (x.lastPulse.getD 0) (if x.st == .run then
         x.stateAt else x.driveAt) + stallT x ≤ s.clk.now ∧ stallEnd x = some e)
    ∧ (let k : Fin 8 := 7
     let s : State := closing7 fun x => { x with cfg2 := 0x20 }
     let x := s.brs[k]
     (x.st = .run ∨ (x.st = .reversing ∧ (x.rev.bind (·.driveAt)).isSome = true)) ∧ max (x.lastPulse.getD 0) (if x.st == .run then
         x.stateAt else x.driveAt) + stallT x ≤ s.clk.now ∧ stallEnd x = none ∧ (x.st = .reversing ∨ (closing x && pinchEn x) = false))
    ∧ (let k : Fin 8 := 7
     let s : State := closing7
     let i := 100000
     let x := s.brs[k]
     pinchArmed x = true ∧ pinchHit x i ≠ 0)
    ∧ (let k : Fin 8 := 7
     let s : State := br7 fun x => { x with st := .start, stateAt := 5000000000 - startSpan x }
     let i := 100000
     let x := s.brs[k]
     (pinchArmed x = false ∨ pinchHit x i = 0))
    ∧ (let k : Fin 8 := 7
     let s : State := br7 fun x => { x with st := .reversing, rev := some rev7 }
     let r := rev7
     let x := s.brs[k]
     x.st = .reversing ∧ x.rev = some r ∧ r.driveAt = none ∧ (r.detectAt + 6000000 ≤ s.clk.now ∨ max r.detectAt (x.lastPulse.getD 0) +
         r.pause ≤ s.clk.now))
    ∧ (let k : Fin 8 := 7
     let s : State := br7 fun x => { x with st := .reversing, rev := some { rev7 with driveAt := some 5000000000 } }
     let r := { rev7 with driveAt := some 5000000000 }
     let x := s.brs[k]
     x.rev = some r ∧ (r.driveAt.isSome = true ∨ (s.clk.now < r.detectAt + 6000000 ∧ s.clk.now < max r.detectAt (x.lastPulse.getD 0) +
         r.pause)))
    ∧ (let k : Fin 8 := 7
     let s : State := br7 fun x => { x with st := .stopping }
     let x := s.brs[k]
     x.st = .stopping ∧ brStill x s.clk.now = true ∧ x.stateAt + brakeMax x ≤ s.clk.now) := by
  refine ⟨?_, ?_, ?_, ?_, ?_, ?_, ?_, ?_, ?_, ?_, ?_⟩ <;> decide +kernel

end ForBridgeMotion

namespace ForBridgeTrips

def br7 (f : BrSt → BrSt) : State := modBr 7 f live

theorem witness_BridgeTrips :
    (let n : Fin 16 := 14
     let s : State := br7 fun x => { x with st := .run, fwd := true }
     let mA : Nat := (legThreshold n s.brs[(7 : Fin 8)] s.clk.now + 1)
     let tj : Int := (175 : Int)
     let lim : Bool := true
     let k := legBridge n
     let x := s.brs[k]
     (domState 10 s).answer ≠ .off ∧ x.st ≠ .tripped ∧ (if n.val % 2 = 0 then (legModes x).1 else (legModes x).2) ≠ 0 ∧ legThreshold n x
         s.clk.now < mA ∧ 175 ≤ tj ∧ (lim = false ∨ ¬ ((if n.val % 2 = 0 then (legModes x).1 else (legModes x).2) ≠ 0) ∨ mA < legISCL n))
    ∧ (let n : Fin 16 := 14
     let s : State := br7 fun x => { x with st := .run, fwd := true }
     let mA : Nat := (legThreshold n s.brs[(7 : Fin 8)] s.clk.now)
     let tj : Int := (174 : Int)
     let lim : Bool := true
     let k := legBridge n
     let x := s.brs[k]
     (domState 10 s).answer ≠ .off ∧ x.st ≠ .tripped ∧ (mA ≤ legThreshold n x s.clk.now ∨ ¬ ((if n.val % 2 = 0 then (legModes x).1 else
         (legModes x).2) ≠ 0)) ∧ tj < 175 ∧ (lim = false ∨ ¬ ((if n.val % 2 = 0 then (legModes x).1 else (legModes x).2) ≠ 0) ∨ mA <
         legISCL n))
    ∧ (let n : Fin 16 := 14
     let s : State := br7 fun x => { x with st := .tripped }
     let k := legBridge n
     let x := s.brs[k]
     (x.st = .tripped ∨ (domState 10 s).answer = .off))
    ∧ (let n : Fin 16 := 14
     let s : State := br7 fun x => { x with st := .tripped, clear := true }
     let k := legBridge n
     let x := s.brs[k]
     x.st = .tripped ∧ x.clear = true ∧ legsCool k s = true)
    ∧ (let n : Fin 16 := 14
     let s : State := br7 fun x => { x with st := .run, fwd := true }
     let k := legBridge n
     let x := s.brs[k]
     (x.st ≠ .tripped ∨ x.clear = false ∨ legsCool k s = false)) := by
  refine ⟨?_, ?_, ?_, ?_, ?_⟩ <;> decide +kernel

end ForBridgeTrips

namespace ForValvePackets

def vl15 (f : VlSt → VlSt) (s : State := live) : State := modVl 15 f s
def paired (a b : Bool) : State := modVl 14 (fun x => { x with partner := some 15, mode := a }) (vl15 fun x => { x with partner := some 14, mode := b })

theorem witness_ValvePackets :
    (let p : Packet := pk (zw 4 [(0, 128)])
     let s : State := live
     let n : Fin 16 := 15
     let b := p.payload
     let v := s.vls[n]
     b.length = 4 ∧ zeroAt [3] b = true ∧ numAt b 0 2 = 2 ^ n.val ∧ AtHead 0x0600 (.vl n) [10] p s ∧ (byteAt b 2 = 0 ∨ byteAt b 2 = 1 ∧
         ¬ (v.st = .tripped ∨ v.marked = true ∨ s.vhs[vlGroup n].prot = .latched) ∧ ¬ (∃ j, v.partner = some j ∧ (s.vls[j].mode = true ∨
         (v.guard_ = true ∧ (s.vls[j].st = .clamp ∨ s.vls[j].st = .window)) ∨ j = n))) ∧ zeroAt [2, 3] b = true ∧ AtHead 0x0604 (.vl n)
         [10] p s ∧ v.st ≠ .tripped ∧ v.marked = false ∧ onlyBits 2 3 b = true ∧ (16 ≤ (byteAt b 0).toNat ∨ 16 ≤ (byteAt b 1).toNat) ∧
         AtHead 0x0605 .chip [10] p s)
    ∧ (let p : Packet := pk (zw 4 [(0, 128), (2, 1)])
     let s : State := vl15 fun x => { x with st := .tripped, tj := 149 }
     let n : Fin 16 := 15
     let b := p.payload
     let v := s.vls[n]
     b.length = 4 ∧ zeroAt [3] b = true ∧ numAt b 0 2 = 2 ^ n.val ∧ AtHead 0x0600 (.vl n) [10] p s ∧ byteAt b 2 = 1 ∧ (v.st = .tripped ∨
         v.marked = true ∨ s.vhs[vlGroup n].prot = .latched))
    ∧ (let p : Packet := pk (zw 4 [(0, 128), (2, 1)])
     let s : State := paired true false
     let n : Fin 16 := 15
     let b := p.payload
     let v := s.vls[n]
     b.length = 4 ∧ zeroAt [3] b = true ∧ numAt b 0 2 = 2 ^ n.val ∧ AtHead 0x0600 (.vl n) [10] p s ∧ byteAt b 2 = 1 ∧ (¬ (v.st =
         .tripped ∨ v.marked = true ∨ s.vhs[vlGroup n].prot = .latched)) ∧ (∃ j, v.partner = some j ∧ (s.vls[j].mode = true ∨ (v.guard_ =
         true ∧ (s.vls[j].st = .clamp ∨ s.vls[j].st = .window)) ∨ j = n)))
    ∧ (let p : Packet := pk (zw 4 [(0, 128), (2, 2)])
     let s : State := live
     let n : Fin 16 := 15
     let b := p.payload
     b.length = 4 ∧ zeroAt [3] b = true ∧ numAt b 0 2 = 2 ^ n.val ∧ AtHead 0x0600 (.vl n) [10] p s ∧ 2 ≤ (byteAt b 2).toNat)
    ∧ (let p : Packet := pk (zw 8 [(0, 128), (2, 0), (4, 0)])
     let s : State := live
     let n : Fin 16 := 15
     let b := p.payload
     let w := (byteAt b 2).toNat
     let c := wordAt b 4
     b.length = 8 ∧ opValveConfig.resOk b = true ∧ numAt b 0 2 = 2 ^ n.val ∧ AtHead 0x0601 (.vl n) [10] p s ∧ (¬ ((w.testBit 1 = true ∧
         fld c 25 6 = 0) ∨ (w.testBit 2 = true ∧ fld c 18 7 = 0))))
    ∧ (let p : Packet := pk (zw 8 [(0, 128), (2, 2)])
     let s : State := live
     let n : Fin 16 := 15
     let b := p.payload
     let w := (byteAt b 2).toNat
     let c := wordAt b 4
     b.length = 8 ∧ opValveConfig.resOk b = true ∧ numAt b 0 2 = 2 ^ n.val ∧ AtHead 0x0601 (.vl n) [10] p s ∧ ((w.testBit 1 = true ∧ fld
         c 25 6 = 0) ∨ (w.testBit 2 = true ∧ fld c 18 7 = 0)))
    ∧ (let p : Packet := pk (zw 8 [(0, 8), (1, 0)])
     let s : State := live
     let g : Fin 4 := 3
     let b := p.payload
     let w := (byteAt b 1).toNat
     b.length = 8 ∧ opHeaderConfig.resOk b = true ∧ (byteAt b 0).toNat = 2 ^ g.val ∧ AtHead 0x0602 (.vh g) [10] p s ∧ (¬ (w.testBit 0 =
         true ∧ fld (wordAt b 4) 28 4 = 15)))
    ∧ (let p : Packet := pk (zw 8 [(0, 8), (1, 1), (4, 240)])
     let s : State := live
     let g : Fin 4 := 3
     let b := p.payload
     let w := (byteAt b 1).toNat
     b.length = 8 ∧ opHeaderConfig.resOk b = true ∧ (byteAt b 0).toNat = 2 ^ g.val ∧ AtHead 0x0602 (.vh g) [10] p s ∧ (w.testBit 0 =
         true ∧ fld (wordAt b 4) 28 4 = 15))
    ∧ (let p : Packet := pk (zw 4 [(1, 15), (2, 1)])
     let s : State := live
     let n : Fin 16 := 15
     let b := p.payload
     b.length = 4 ∧ byteAt b 3 = 0 ∧ byteAt b 2 = 1 ∧ byteAt b 0 = 0 ∧ (byteAt b 1).toNat = n.val ∧ AtHead 0x0603 (.vl n) [10] p s)
    ∧ (let p : Packet := pk (zw 4 [(0, 1), (1, 3), (2, 1)])
     let s : State := live
     let g : Fin 4 := 3
     let b := p.payload
     b.length = 4 ∧ byteAt b 3 = 0 ∧ byteAt b 2 = 1 ∧ byteAt b 0 = 1 ∧ (byteAt b 1).toNat = g.val ∧ AtHead 0x0603 (.vh g) [10] p s)
    ∧ (let p : Packet := pk (zw 4 [(0, 128)])
     let s : State := vl15 fun x => { x with st := .tripped, tj := 149 }
     let n : Fin 16 := 15
     let b := p.payload
     let v := s.vls[n]
     b.length = 4 ∧ zeroAt [2, 3] b = true ∧ numAt b 0 2 = 2 ^ n.val ∧ AtHead 0x0604 (.vl n) [10] p s ∧ v.st = .tripped ∧ v.tj < 150)
    ∧ (let p : Packet := pk (zw 4 [(0, 128)])
     let s : State := vl15 fun x => { x with st := .tripped, tj := 150 }
     let n : Fin 16 := 15
     let b := p.payload
     let v := s.vls[n]
     b.length = 4 ∧ zeroAt [2, 3] b = true ∧ numAt b 0 2 = 2 ^ n.val ∧ AtHead 0x0604 (.vl n) [10] p s ∧ ((v.st = .tripped ∧ 150 ≤ v.tj)
         ∨ (v.st ≠ .tripped ∧ v.marked = true)))
    ∧ (let p : Packet := pk (zw 4 [(2, 8)])
     let s : State := live
     let g : Fin 4 := 3
     let b := p.payload
     let h := s.vhs[g]
     b.length = 4 ∧ zeroAt [0, 1, 3] b = true ∧ (byteAt b 2).toNat = 2 ^ g.val ∧ AtHead 0x0604 (.vh g) [10] p s ∧ h.prot = .none)
    ∧ (let p : Packet := pk (zw 4 [(2, 8)])
     let s : State := { live with vhs := live.vhs.set 3 { live.vhs[3] with prot := .offPending } }
     let g : Fin 4 := 3
     let b := p.payload
     let h := s.vhs[g]
     b.length = 4 ∧ zeroAt [0, 1, 3] b = true ∧ (byteAt b 2).toNat = 2 ^ g.val ∧ AtHead 0x0604 (.vh g) [10] p s ∧ h.prot ≠ .none ∧
         vhCool g s = true)
    ∧ (let p : Packet := pk (zw 4 [(2, 8)])
     let s : State :=
         { live with vhs := live.vhs.set 3 { live.vhs[3] with prot := .latched, coolFrom := 5000000000, cfg := 0x00700000 } }
     let g : Fin 4 := 3
     let b := p.payload
     let h := s.vhs[g]
     b.length = 4 ∧ zeroAt [0, 1, 3] b = true ∧ (byteAt b 2).toNat = 2 ^ g.val ∧ AtHead 0x0604 (.vh g) [10] p s ∧ h.prot ≠ .none ∧
         vhCool g s = false)
    ∧ (let p : Packet := pk (zw 4 [(0, 15), (1, 15), (2, 1)])
     let s : State := live
     let n : Fin 16 := 15
     let m : Fin 16 := 15
     let b := p.payload
     b.length = 4 ∧ zeroAt [3] b = true ∧ onlyBits 2 3 b = true ∧ (byteAt b 0).toNat = n.val ∧ (byteAt b 1).toNat = m.val ∧ AtHead
         0x0605 (.vl n) [10] p s ∧ AtHead 0x0605 (.vl m) [10] p s ∧ m = n)
    ∧ (let p : Packet := pk (zw 4 [(0, 14), (1, 15), (2, 1)])
     let s : State := live
     let n : Fin 16 := 14
     let m : Fin 16 := 15
     let b := p.payload
     let v := s.vls[n]
     let on : Bool := (byteAt b 2).getLsbD 0
     b.length = 4 ∧ zeroAt [3] b = true ∧ onlyBits 2 3 b = true ∧ (byteAt b 0).toNat = n.val ∧ (byteAt b 1).toNat = m.val ∧ AtHead
         0x0605 (.vl n) [10] p s ∧ AtHead 0x0605 (.vl m) [10] p s ∧ m ≠ n ∧ on = true ∧ v.partner = none ∧ s.vls[m].partner = none ∧
         (v.mode = false ∨ s.vls[m].mode = false))
    ∧ (let p : Packet := pk (zw 4 [(0, 14), (1, 15), (2, 1)])
     let s : State := paired true false
     let n : Fin 16 := 14
     let m : Fin 16 := 15
     let b := p.payload
     let v := s.vls[n]
     let on : Bool := (byteAt b 2).getLsbD 0
     b.length = 4 ∧ zeroAt [3] b = true ∧ onlyBits 2 3 b = true ∧ (byteAt b 0).toNat = n.val ∧ (byteAt b 1).toNat = m.val ∧ AtHead
         0x0605 (.vl n) [10] p s ∧ AtHead 0x0605 (.vl m) [10] p s ∧ m ≠ n ∧ on = true ∧ (v.partner ≠ none ∨ s.vls[m].partner ≠ none ∨
         (v.mode = true ∧ s.vls[m].mode = true)))
    ∧ (let p : Packet := pk (zw 4 [(0, 14), (1, 15)])
     let s : State := paired true false
     let n : Fin 16 := 14
     let m : Fin 16 := 15
     let b := p.payload
     let v := s.vls[n]
     let on : Bool := (byteAt b 2).getLsbD 0
     b.length = 4 ∧ zeroAt [3] b = true ∧ onlyBits 2 3 b = true ∧ (byteAt b 0).toNat = n.val ∧ (byteAt b 1).toNat = m.val ∧ AtHead
         0x0605 (.vl n) [10] p s ∧ AtHead 0x0605 (.vl m) [10] p s ∧ m ≠ n ∧ on = false ∧ v.partner = some m)
    ∧ (let p : Packet := pk (zw 4 [(0, 14), (1, 15)])
     let s : State := live
     let n : Fin 16 := 14
     let m : Fin 16 := 15
     let b := p.payload
     let v := s.vls[n]
     let on : Bool := (byteAt b 2).getLsbD 0
     b.length = 4 ∧ zeroAt [3] b = true ∧ onlyBits 2 3 b = true ∧ (byteAt b 0).toNat = n.val ∧ (byteAt b 1).toNat = m.val ∧ AtHead
         0x0605 (.vl n) [10] p s ∧ AtHead 0x0605 (.vl m) [10] p s ∧ m ≠ n ∧ on = false ∧ v.partner ≠ some m) := by
  unfold AtHead; refine ⟨?_, ?_, ?_, ?_, ?_, ?_, ?_, ?_, ?_, ?_, ?_, ?_, ?_, ?_, ?_, ?_, ?_, ?_, ?_, ?_⟩ <;>
    first | decide +kernel | (dsimp only; and_intros <;> decide +kernel)

end ForValvePackets

namespace ForValveRows

def vl15 (f : VlSt → VlSt) (s : State := live) : State := modVl 15 f s
def vh3 (x : HdState) : State := { live with vhs := live.vhs.set 3 { live.vhs[3] with st := x } }
/-- Valve 15 in its closure window, with 20 samples that fall and then stay level. -/
def window15 : State := vl15 fun x => { x with st := .window, act := 0xA8500000, cfg := 0xA8500000, ended := false, k0 := 0, offAt := 4980000000, samples := List.replicate 9 100 ++ (List.range 11).map fun i => 100 + 5 * i }
def clamp15 (f : VlSt → VlSt := id) : State := vl15 fun x => f { x with st := .clamp, ended := false, act := 0xA8500000, offAt := 4990000000 }

theorem witness_ValveRows :
    (let n : Fin 16 := 15
     let s : State := vh3 .rising
     let g := vlGroup n
     let v := s.vls[n]
     s.vhs[g].st = .rising ∧ s.vhs[g].st ≠ .falling ∧ (closeDet v.act = false ∨ s.clk.now < v.offAt + closeWinNs v.act ∨ (v.st ≠ .clamp
         ∧ v.st ≠ .window)) ∧ (v.st ≠ .on ∨ s.clk.now < v.onAt + 2000000))
    ∧ (let n : Fin 16 := 15
     let s : State := vh3 .falling
     let g := vlGroup n
     s.vhs[g].st ≠ .rising ∧ s.vhs[g].st = .falling)
    ∧ (let n : Fin 16 := 15
     let s : State := clamp15
     let drain : Int := (17999 : Int)
     let header : Int := (13000 : Int)
     let v := s.vls[n]
     drain < header + 5000 ∧ v.st = .clamp ∧ v.marked = false ∧ s.dom.dom[(10 : Fin 16)].st ≠ .toOff ∧ (v.ended = false ∧ closeDet v.act
         = true))
    ∧ (let n : Fin 16 := 15
     let s : State := clamp15 fun x => { x with act := 0 }
     let drain : Int := (17999 : Int)
     let header : Int := (13000 : Int)
     let v := s.vls[n]
     drain < header + 5000 ∧ v.st = .clamp ∧ v.marked = false ∧ s.dom.dom[(10 : Fin 16)].st ≠ .toOff ∧ (¬ (v.ended = false ∧ closeDet
         v.act = true)))
    ∧ (let n : Fin 16 := 15
     let s : State := dst [10] .toOff (clamp15 id)
     let drain : Int := (17999 : Int)
     let header : Int := (13000 : Int)
     let v := s.vls[n]
     drain < header + 5000 ∧ v.st = .clamp ∧ v.marked = false ∧ s.dom.dom[(10 : Fin 16)].st = .toOff)
    ∧ (let n : Fin 16 := 15
     let s : State := clamp15 fun x => { x with marked := true }
     let drain : Int := (17999 : Int)
     let header : Int := (13000 : Int)
     let v := s.vls[n]
     drain < header + 5000 ∧ v.st = .clamp ∧ v.marked = true)
    ∧ (let n : Fin 16 := 15
     let s : State := vl15 fun x => { x with st := .off, marked := true }
     let drain : Int := (17999 : Int)
     let header : Int := (13000 : Int)
     let v := s.vls[n]
     drain < header + 5000 ∧ v.st = .off ∧ v.marked = true)
    ∧ (let n : Fin 16 := 15
     let s : State := vh3 .rising
     let drain : Int := (17999 : Int)
     let header : Int := (13000 : Int)
     let v := s.vls[n]
     ((v.st ≠ .clamp ∧ ¬ (v.st = .off ∧ v.marked = true)) ∨ header + 5000 ≤ drain))
    ∧ (let n : Fin 16 := 15
     let s : State := clamp15
     let vd : Int := (18320 : Int)
     let v := s.vls[n]
     let l := drainCode vd :: v.samples
     let k := l.length
     domOn 10 s = true ∧ closeDet v.act = true ∧ v.st = .clamp ∧ (¬ (closeWinNs v.act ≤ k * 10000)) ∧ belowClamp (drainCode vd) = false)
    ∧ (let n : Fin 16 := 15
     let s : State := clamp15
     let vd : Int := (5000 : Int)
     let v := s.vls[n]
     let l := drainCode vd :: v.samples
     let k := l.length
     domOn 10 s = true ∧ closeDet v.act = true ∧ v.st = .clamp ∧ (¬ (closeWinNs v.act ≤ k * 10000)) ∧ belowClamp (drainCode vd) = true ∧
         v.marked = false ∧ v.ended = false)
    ∧ (let n : Fin 16 := 15
     let s : State := clamp15 fun x => { x with samples := List.replicate 3000 200 }
     let vd : Int := (18320 : Int)
     let v := s.vls[n]
     let l := drainCode vd :: v.samples
     let k := l.length
     domOn 10 s = true ∧ closeDet v.act = true ∧ v.st = .clamp ∧ closeWinNs v.act ≤ k * 10000 ∧ belowClamp (drainCode vd) = false)
    ∧ (let n : Fin 16 := 15
     let s : State := modVl 15 (fun x => { x with samples := List.replicate 16 100 ++ List.replicate 4 200 }) window15
     let vd : Int := (5000 : Int)
     let v := s.vls[n]
     let l := drainCode vd :: v.samples
     let k := l.length
     domOn 10 s = true ∧ closeDet v.act = true ∧ v.st = .window ∧ v.k0 + 20 ≤ k ∧ kinkAt l k v.act = true)
    ∧ (let n : Fin 16 := 15
     let s : State := window15
     let vd : Int := (5000 : Int)
     let v := s.vls[n]
     let l := drainCode vd :: v.samples
     let k := l.length
     domOn 10 s = true ∧ closeDet v.act = true ∧ v.st = .window ∧ (k < v.k0 + 20 ∨ kinkAt l k v.act = false) ∧ (¬ (closeWinNs v.act ≤ k
         * 10000)))
    ∧ (let n : Fin 16 := 15
     let s : State := modVl 15 (fun x => { x with samples := List.replicate 3000 200 }) window15
     let vd : Int := (5000 : Int)
     let v := s.vls[n]
     let l := drainCode vd :: v.samples
     let k := l.length
     domOn 10 s = true ∧ closeDet v.act = true ∧ v.st = .window ∧ (k < v.k0 + 20 ∨ kinkAt l k v.act = false) ∧ closeWinNs v.act ≤ k *
         10000)
    ∧ (let n : Fin 16 := 15
     let s : State := vh3 .rising
     let v := s.vls[n]
     (domOn 10 s = false ∨ closeDet v.act = false ∨ (v.st ≠ .clamp ∧ v.st ≠ .window)))
    ∧ (let n : Fin 16 := 15
     let s : State := window15
     let v := s.vls[n]
     closeDet v.act = true ∧ v.offAt + closeWinNs v.act ≤ s.clk.now ∧ v.st = .window)
    ∧ (let n : Fin 16 := 15
     let s : State := clamp15 fun x => { x with offAt := 0 }
     let v := s.vls[n]
     closeDet v.act = true ∧ v.offAt + closeWinNs v.act ≤ s.clk.now ∧ v.st = .clamp)
    ∧ (let n : Fin 16 := 15
     let s : State := vl15 fun x => { x with st := .on, onAt := 4998000000 }
     let v := s.vls[n]
     v.st = .on ∧ v.onAt + 2000000 ≤ s.clk.now) := by
  refine ⟨?_, ?_, ?_, ?_, ?_, ?_, ?_, ?_, ?_, ?_, ?_, ?_, ?_, ?_, ?_, ?_, ?_, ?_⟩ <;> decide +kernel

end ForValveRows

namespace ForValveProtection

def vl15 (f : VlSt → VlSt) (s : State := live) : State := modVl 15 f s
def vh3 (x : HdState) : State := { live with vhs := live.vhs.set 3 { live.vhs[3] with st := x } }
def header3 (f : VhSt → VhSt) : State := { live with vhs := live.vhs.set 3 (f live.vhs[3]) }

theorem witness_ValveProtection :
    (let n : Fin 16 := 15
     let s : State := vl15 fun x => { x with st := .on }
     let tj : Int := (175 : Int)
     let v := s.vls[n]
     (domState 10 s).answer ≠ .off ∧ 175 ≤ tj ∧ (v.st = .on ∨ v.st = .clamp) ∧ (v.st ≠ .tripped ∨ v.clear = false ∨ 150 ≤ tj))
    ∧ (let n : Fin 16 := 15
     let s : State := vl15 fun x => { x with st := .tripped, clear := true }
     let tj : Int := (149 : Int)
     let v := s.vls[n]
     (¬ ((domState 10 s).answer ≠ .off) ∨ tj < 175 ∨ (v.st ≠ .on ∧ v.st ≠ .clamp)) ∧ v.st = .tripped ∧ v.clear = true ∧ tj < 150)
    ∧ (let n : Fin 16 := 15
     let s : State := vh3 .on
     let mA : Nat := (hdrThreshold s.vhs[vlGroup n] + 1)
     let tj : Int := (175 : Int)
     let g := vlGroup n
     let h := s.vhs[g]
     (domState 10 s).answer ≠ .off ∧ (h.st = .rising ∨ h.st = .on) ∧ hdrThreshold h < mA ∧ 175 ≤ tj)
    ∧ (let n : Fin 16 := 15
     let s : State := vh3 .on
     let mA : Nat := (hdrThreshold s.vhs[vlGroup n])
     let tj : Int := (174 : Int)
     let g := vlGroup n
     let h := s.vhs[g]
     (domState 10 s).answer ≠ .off ∧ (h.st = .rising ∨ h.st = .on) ∧ mA ≤ hdrThreshold h ∧ tj < 175)
    ∧ (let n : Fin 16 := 15
     let s : State := vl15 fun x => { x with st := .on }
     let g := vlGroup n
     let h := s.vhs[g]
     (¬ ((domState 10 s).answer ≠ .off) ∨ (h.st ≠ .rising ∧ h.st ≠ .on)))
    ∧ (let n : Fin 16 := 15
     let s : State := header3 fun x => { x with prot := .latched, clear := true }
     let g := vlGroup n
     let h := s.vhs[g]
     domOn 10 s = true ∧ h.prot ≠ .none ∧ (h.clear = true ∧ vhCool g s = true))
    ∧ (let n : Fin 16 := 15
     let s : State := header3 fun x => { x with prot := .offPending, retry := 0 }
     let g := vlGroup n
     let h := s.vhs[g]
     domOn 10 s = true ∧ h.prot = .offPending ∧ (¬ (h.clear = true ∧ vhCool g s = true)) ∧ (hdrLatch h = true ∨ h.retry = 0))
    ∧ (let n : Fin 16 := 15
     let s : State := header3 fun x => { x with prot := .offPending, retry := 1, act := 0 }
     let g := vlGroup n
     let h := s.vhs[g]
     domOn 10 s = true ∧ h.prot = .offPending ∧ (¬ (h.clear = true ∧ vhCool g s = true)) ∧ hdrLatch h = false ∧ h.retry ≠ 0 ∧ vhCool g s
         = true)
    ∧ (let n : Fin 16 := 15
     let s : State := vl15 fun x => { x with st := .on }
     let g := vlGroup n
     let h := s.vhs[g]
     (domOn 10 s = false ∨ h.prot = .none ∨ (¬ (h.clear = true ∧ vhCool g s = true) ∧ (h.prot = .latched ∨ hdrLatch h = false ∧ h.retry
         ≠ 0 ∧ vhCool g s = false)))) := by
  refine ⟨?_, ?_, ?_, ?_, ?_, ?_, ?_, ?_, ?_⟩ <;> decide +kernel

end ForValveProtection

namespace ForInputPackets

theorem witness_InputPackets :
    (let p : Packet := pk (zw 16 [(0, 128)])
     let s : State := live
     let n : Fin 64 := 63
     let b := p.payload
     let x := s.io.sw[n]
     let w := numAt b 8 2
     let c := merge x.cfg (wordAt b 12) (maskOf w [(0, 31, 1), (1, 28, 3), (2, 25, 3), (3, 24, 1), (4, 16, 8), (5, 15, 1), (6, 14, 1),
         (7, 13, 1)])
     b.length = 16 ∧ opSwConfig.resOk b = true ∧ numAt b 0 8 = 2 ^ n.val ∧ AtHead 0x0700 (.sw n) [11] p s ∧ swOk n c = true)
    ∧ (let p : Packet := pk (zw 16 [(0, 128), (9, 16)])
     let s : State := live
     let n : Fin 64 := 63
     let b := p.payload
     let x := s.io.sw[n]
     let w := numAt b 8 2
     let c := merge x.cfg (wordAt b 12) (maskOf w [(0, 31, 1), (1, 28, 3), (2, 25, 3), (3, 24, 1), (4, 16, 8), (5, 15, 1), (6, 14, 1),
         (7, 13, 1)])
     b.length = 16 ∧ opSwConfig.resOk b = true ∧ numAt b 0 8 = 2 ^ n.val ∧ AtHead 0x0700 (.sw n) [11] p s ∧ swOk n c = false)
    ∧ (let p : Packet := pk []
     let s : State := live
     let b := p.payload
     b = [] ∧ AtHead 0x0701 .chip [11] p s ∧ AtHead 0x0802 .chip [12] p s)
    ∧ (let p : Packet := pk (zw 12 [(0, 8)])
     let s : State := live
     let m : Fin 12 := 11
     let b := p.payload
     let w := (byteAt b 2).toNat
     let c2 := merge s.io.an[m].cfg2 (wordAt b 4) (maskOf w [(0, 30, 2), (1, 28, 2), (2, 25, 3)])
     b.length = 12 ∧ opAnConfig.resOk b = true ∧ numAt b 0 2 = 2 ^ m.val ∧ AtHead 0x0702 (.sw (anSwitch m)) [11] p s ∧ (fld c2 30 2 ≠ 3
         ∧ fld c2 28 2 ≠ 3 ∧ fld c2 25 3 ≤ 4))
    ∧ (let p : Packet := pk (zw 12 [(0, 8), (2, 4), (4, 10)])
     let s : State := live
     let m : Fin 12 := 11
     let b := p.payload
     let w := (byteAt b 2).toNat
     let c2 := merge s.io.an[m].cfg2 (wordAt b 4) (maskOf w [(0, 30, 2), (1, 28, 2), (2, 25, 3)])
     b.length = 12 ∧ opAnConfig.resOk b = true ∧ numAt b 0 2 = 2 ^ m.val ∧ AtHead 0x0702 (.sw (anSwitch m)) [11] p s ∧ (¬ (fld c2 30 2 ≠
         3 ∧ fld c2 28 2 ≠ 3 ∧ fld c2 25 3 ≤ 4)))
    ∧ (let p : Packet := pk (zw 4 [(0, 11), (1, 1)])
     let s : State := live
     let m : Fin 12 := 11
     let b := p.payload
     b.length = 4 ∧ zeroAt [2, 3] b = true ∧ (byteAt b 0).toNat = m.val ∧ byteAt b 1 = 1 ∧ AtHead 0x0703 (.sw (anSwitch m)) [11] p s)
    ∧ (let p : Packet := pk (zw 4 [(0, 11), (1, 1)])
     let s : State := live
     let b := p.payload
     b.length = 4 ∧ byteAt b 2 = 0 ∧ onlyBits 3 1 b = true ∧ AtHead 0x0704 .chip [] p s ∧ (fld (wordAt b 0) 29 3 ≤ 6 ∧ fld (wordAt b 0)
         24 3 ≤ 5))
    ∧ (let p : Packet := pk (zw 4 [(0, 224)])
     let s : State := live
     let b := p.payload
     b.length = 4 ∧ byteAt b 2 = 0 ∧ onlyBits 3 1 b = true ∧ AtHead 0x0704 .chip [] p s ∧ (¬ (fld (wordAt b 0) 29 3 ≤ 6 ∧ fld (wordAt b
         0) 24 3 ≤ 5)))
    ∧ (let p : Packet := pk (zw 4 [(0, 128)])
     let s : State := live
     let n : Fin 16 := 15
     let b := p.payload
     b.length = 4 ∧ zeroAt [3] b = true ∧ numAt b 0 2 = 2 ^ n.val ∧ AtHead 0x0800 (.fq n) [12] p s ∧ (byteAt b 2).toNat ≤ 1)
    ∧ (let p : Packet := pk (zw 4 [(0, 128), (2, 2)])
     let s : State := live
     let n : Fin 16 := 15
     let b := p.payload
     b.length = 4 ∧ zeroAt [3] b = true ∧ numAt b 0 2 = 2 ^ n.val ∧ AtHead 0x0800 (.fq n) [12] p s ∧ 1 < (byteAt b 2).toNat)
    ∧ (let p : Packet := pk (zw 8 [(0, 128), (4, 1), (5, 8)])
     let s : State := live
     let n : Fin 16 := 15
     let b := p.payload
     let w := (byteAt b 4).toNat
     b.length = 8 ∧ opFieldConfig.resOk b = true ∧ numAt b 0 2 = 2 ^ n.val ∧ numAt b 2 2 = 0 ∧ AtHead 0x0801 (.fi n) [12] p s ∧
         w.testBit 0 = true ∧ (byteAt b 5).toNat ≤ 8)
    ∧ (let p : Packet := pk (zw 8 [(0, 128), (4, 1), (5, 9)])
     let s : State := live
     let n : Fin 16 := 15
     let b := p.payload
     let w := (byteAt b 4).toNat
     b.length = 8 ∧ opFieldConfig.resOk b = true ∧ numAt b 0 2 = 2 ^ n.val ∧ numAt b 2 2 = 0 ∧ AtHead 0x0801 (.fi n) [12] p s ∧
         w.testBit 0 = true ∧ 8 < (byteAt b 5).toNat)
    ∧ (let p : Packet := pk (zw 8 [(0, 128), (4, 2)])
     let s : State := live
     let n : Fin 16 := 15
     let b := p.payload
     let w := (byteAt b 4).toNat
     b.length = 8 ∧ opFieldConfig.resOk b = true ∧ numAt b 0 2 = 2 ^ n.val ∧ numAt b 2 2 = 0 ∧ AtHead 0x0801 (.fi n) [12] p s ∧
         w.testBit 0 = false)
    ∧ (let p : Packet := pk (zw 8 [(2, 128), (4, 2)])
     let s : State := live
     let n : Fin 16 := 15
     let b := p.payload
     b.length = 8 ∧ opFieldConfig.resOk b = true ∧ numAt b 0 2 = 0 ∧ numAt b 2 2 = 2 ^ n.val ∧ AtHead 0x0801 (.fq n) [12] p s) := by
  unfold AtHead; refine ⟨?_, ?_, ?_, ?_, ?_, ?_, ?_, ?_, ?_, ?_, ?_, ?_, ?_, ?_⟩ <;> decide +kernel

end ForInputPackets

namespace ForInputRows

theorem witness_InputRows :
    (let s : State := live
     domOn 11 s = true ∧ cyclicRuns s = false)
    ∧ (let s : State := dst [11] .ret
     domOn 11 s = false ∧ cyclicRuns s = true)
    ∧ (let s : State := modSw (anSwitch 11) (fun x => { x with cfg := 0x4000 }) live
     let m : Fin 12 := 11
     domOn 11 s = true ∧ inForce 17 1 s = false ∧ swAnalog s.io.sw[anSwitch m].cfg = true)
    ∧ (let s : State := live
     let m : Fin 12 := 11
     domOn 11 s = true ∧ swAnalog s.io.sw[anSwitch m].cfg = false)
    ∧ (let s : State := dst [11] .ret
     (domOn 11 s = false ∨ inForce 17 1 s = true))
    ∧ (let s : State := live
     domOn 12 s = true ∧ s.io.fld.supply ≠ .missing)
    ∧ (let s : State := dst [12] .off
     (domOn 12 s = false ∨ s.io.fld.supply = .missing)) := by
  refine ⟨?_, ?_, ?_, ?_, ?_, ?_, ?_⟩ <;> decide +kernel

end ForInputRows

namespace ForFieldRows

def field (f : FieldSt → FieldSt) : State := modFld f live
def fq15 (f : FqSt → FqSt) : State := modFq 15 f live

theorem witness_FieldRows :
    (let s : State := live
     (domState 12 s).answer ≠ .off)
    ∧ (let s : State := dst [12] .off
     (domState 12 s).answer = .off)
    ∧ (let s : State := field fun x => { x with okAt := some 4999000000 }
     let t0 := 4999000000
     let f := s.io.fld
     f.okAt = some t0 ∧ f.supply ≠ .missing ∧ f.redrive = none ∧ t0 + 1000000 ≤ s.clk.now ∧ (domState 12 s).answer = .on)
    ∧ (let s : State := field fun x => { x with okAt := some 4999000001 }
     let t0 := 4999000001
     let f := s.io.fld
     f.okAt = some t0 ∧ (f.supply = .missing ∨ f.redrive ≠ none ∨ s.clk.now < t0 + 1000000 ∨ (domState 12 s).answer ≠ .on))
    ∧ (let s : State := live
     let f := s.io.fld
     f.okAt = none ∧ f.redrive = none)
    ∧ (let s : State := field fun x => { x with redrive := some (3, 4999900000, 7) }
     let i := 3
     let t0 := 4999900000
     let mask := 7
     let f := s.io.fld
     f.redrive = some (i, t0, mask) ∧ f.supply ≠ .missing ∧ t0 + 100000 ≤ s.clk.now ∧ (domState 12 s).answer = .on)
    ∧ (let s : State := field fun x => { x with redrive := some (3, 4999900001, 7) }
     let i := 3
     let t0 := 4999900001
     let mask := 7
     let f := s.io.fld
     f.redrive = some (i, t0, mask) ∧ (f.supply = .missing ∨ s.clk.now < t0 + 100000 ∨ (domState 12 s).answer ≠ .on))
    ∧ (let s : State := fq15 fun x => { x with mode := true }
     let n : Fin 16 := 15
     let tj : Int := (175 : Int)
     let f := s.io.fld
     let q := s.io.fq[n]
     175 ≤ tj ∧ fqGate q f.supply = true ∧ (150 ≤ tj ∨ q.shut = false))
    ∧ (let s : State := fq15 fun x => { x with shut := true }
     let n : Fin 16 := 15
     let tj : Int := (149 : Int)
     let f := s.io.fld
     let q := s.io.fq[n]
     (tj < 175 ∨ fqGate q f.supply = false) ∧ tj < 150 ∧ q.shut = true)
    ∧ (let s : State := fq15 fun x => { x with mode := true }
     let n : Fin 16 := 15
     let f := s.io.fld
     let q := s.io.fq[n]
     fqGate q f.supply = true ∧ q.limiting = false ∧ q.stretch = none)
    ∧ (let s : State := fq15 fun x => { x with mode := true, limiting := true }
     let n : Fin 16 := 15
     let q := s.io.fq[n]
     let f := s.io.fld
     q.limiting = true ∧ (fqGate q f.supply = false ∨ q.limiting = true))
    ∧ (let s : State := live
     let n : Fin 16 := 15
     let mv : Nat := 9001
     let f := s.io.fld
     let q := s.io.fq[n]
     (domState 12 s).answer ≠ .off ∧ 9000 < mv ∧ q.mode = false ∧ f.supply ≠ .missing)
    ∧ (let s : State := fq15 fun x => { x with fed := true }
     let n : Fin 16 := 15
     let mv : Nat := 9000
     let q := s.io.fq[n]
     (domState 12 s).answer ≠ .off ∧ mv ≤ 9000 ∧ q.fed = true)
    ∧ (let s : State := live
     let n : Fin 16 := 15
     let mv : Nat := 9000
     let f := s.io.fld
     let q := s.io.fq[n]
     (¬ ((domState 12 s).answer ≠ .off) ∨ (mv ≤ 9000 ∧ q.fed = false) ∨ (9000 < mv ∧ (q.mode = true ∨ f.supply = .missing))))
    ∧ (let s : State := fq15 fun x => { x with stretch := some 5000000000 }
     let n : Fin 16 := 15
     let t0 := 5000000000
     let q := s.io.fq[n]
     q.stretch = some t0 ∧ t0 ≤ s.clk.now)
    ∧ (let s : State := fq15 fun x => { x with stretch := some 5000000001 }
     let n : Fin 16 := 15
     let t0 := 5000000001
     let q := s.io.fq[n]
     q.stretch = some t0 ∧ s.clk.now < t0) := by
  refine ⟨?_, ?_, ?_, ?_, ?_, ?_, ?_, ?_, ?_, ?_, ?_, ?_, ?_, ?_, ?_, ?_⟩ <;> decide +kernel

end ForFieldRows

namespace ForReflexTable

/-- An enabled reflex on event 1 that injects FQ_SET. -/
def reflexImg : List Byte := zw 64 [(0, 0x86), (1, 0x10), (4, 1), (16, 1), (20, 8), (23, 4), (26, 1)]
def reflexed (f : RfxEntry → RfxEntry := id) : State := { live with rfx := { live.rfx with occs := [⟨.event 1, 0, 0⟩], entries := live.rfx.entries.set 127 (f { live.rfx.entries[127] with image := reflexImg }) } }

theorem witness_ReflexTable :
    (let p : Packet := pka ([127, 0, 0, 0] ++ reflexImg)
     let s : State := live
     let b := p.payload
     let img := b.drop 4
     b.length = 68 ∧ opReflexWrite.resOk b = true ∧ AtHead 0x0900 .chip [0] p s ∧ rfxRange img = true ∧ ((rfxAct img = true →
         rfxPermitted (rfxOpcode img) = true) ∧ rfxPayLen img ≤ 40) ∧ (reflexRuns s = false ∨ s.rfx.occs = []))
    ∧ (let p : Packet := pka ([127, 0, 0, 0] ++ reflexImg.set 16 0)
     let s : State := live
     let b := p.payload
     let img := b.drop 4
     b.length = 68 ∧ opReflexWrite.resOk b = true ∧ AtHead 0x0900 .chip [0] p s ∧ rfxRange img = false)
    ∧ (let p : Packet := pka ([127, 0, 0, 0] ++ reflexImg.set 21 1)
     let s : State := live
     let b := p.payload
     let img := b.drop 4
     b.length = 68 ∧ opReflexWrite.resOk b = true ∧ AtHead 0x0900 .chip [0] p s ∧ rfxRange img = true ∧ (¬ ((rfxAct img = true →
         rfxPermitted (rfxOpcode img) = true) ∧ rfxPayLen img ≤ 40)))
    ∧ (let p : Packet := pka (zs 20)
     let s : State := live
     let b := p.payload
     b.length = 20 ∧ opReflexEnable.resOk b = true ∧ AtHead 0x0901 .chip [0] p s)
    ∧ (let p : Packet := pk [127, 0, 0, 0]
     let s : State := live
     let b := p.payload
     b.length = 4 ∧ opReflexRead.resOk b = true ∧ AtHead 0x0902 .chip [0] p s)
    ∧ (let s : State := reflexed
     let o : Occ := (⟨.event 1, 0, 0⟩ : Occ)
     let rest : List Occ := ([] : List Occ)
     let i : Fin 128 := 127
     let e := s.rfx.entries[i]
     reflexRuns s = true ∧ takeOcc s.rfx.occs = some (o, rest) ∧ (∀ j : Fin 128, (entryEnabled s.rfx.entries[j].image && trigMatches
         j.val s.rfx.entries[j].image o.kind) = decide (j = i)) ∧ (e.holdUntil ≤ s.clk.d00Clock ∧ e.waiting = none) ∧ qualMet e.image s =
         true ∧ (rfxProx e.image = false ∨ nearHeld o.kind (rfxWait e.image) s = true))
    ∧ (let s : State := reflexed fun e => { e with image := reflexImg.set 0 0xC6 }
     let o : Occ := (⟨.event 1, 0, 0⟩ : Occ)
     let rest : List Occ := ([] : List Occ)
     let i : Fin 128 := 127
     let e := s.rfx.entries[i]
     reflexRuns s = true ∧ takeOcc s.rfx.occs = some (o, rest) ∧ (∀ j : Fin 128, (entryEnabled s.rfx.entries[j].image && trigMatches
         j.val s.rfx.entries[j].image o.kind) = decide (j = i)) ∧ (e.holdUntil ≤ s.clk.d00Clock ∧ e.waiting = none) ∧ qualMet e.image s =
         true ∧ (¬ (rfxProx e.image = false ∨ nearHeld o.kind (rfxWait e.image) s = true)))
    ∧ (let s : State := reflexed fun e => { e with image := reflexImg.set 0 0x96 }
     let o : Occ := (⟨.event 1, 0, 0⟩ : Occ)
     let rest : List Occ := ([] : List Occ)
     let i : Fin 128 := 127
     let e := s.rfx.entries[i]
     reflexRuns s = true ∧ takeOcc s.rfx.occs = some (o, rest) ∧ (∀ j : Fin 128, (entryEnabled s.rfx.entries[j].image && trigMatches
         j.val s.rfx.entries[j].image o.kind) = decide (j = i)) ∧ (e.holdUntil ≤ s.clk.d00Clock ∧ e.waiting = none) ∧ qualMet e.image s =
         false)
    ∧ (let s : State := reflexed fun e => { e with holdUntil := 5000000001 }
     let o : Occ := (⟨.event 1, 0, 0⟩ : Occ)
     let rest : List Occ := ([] : List Occ)
     let i : Fin 128 := 127
     let e := s.rfx.entries[i]
     reflexRuns s = true ∧ takeOcc s.rfx.occs = some (o, rest) ∧ (∀ j : Fin 128, (entryEnabled s.rfx.entries[j].image && trigMatches
         j.val s.rfx.entries[j].image o.kind) = decide (j = i)) ∧ (¬ (e.holdUntil ≤ s.clk.d00Clock ∧ e.waiting = none)))
    ∧ (let s : State := reflexed fun e => { e with image := reflexImg.set 0 0x84 }
     let image : List Byte := reflexImg.set 18 0xFF
     let next : Fin 128 := Fin.ofNat 128 (byteAt image 18).toNat
     (byteAt image 18).getLsbD 7 = true ∧ entryEnabled s.rfx.entries[next].image = true ∧ trigType s.rfx.entries[next].image = 4)
    ∧ (let s : State := reflexed fun e => { e with timerAt := some 5000000000, waiting := some (⟨.event 1, 0, 0⟩, 0, 5000000000) }
     let i : Fin 128 := 127
     let t0 := 5000000000
     let e := s.rfx.entries[i]
     e.timerAt = some t0 ∧ reflexRuns s = true ∧ t0 ≤ s.clk.d00Clock)
    ∧ (let s : State := reflexed fun e => { e with timerAt := some 5000000001, waiting := some (⟨.event 1, 0, 0⟩, 0, 5000000001) }
     let i : Fin 128 := 127
     let t0 := 5000000001
     let e := s.rfx.entries[i]
     e.timerAt = some t0 ∧ (reflexRuns s = false ∨ s.clk.d00Clock < t0))
    ∧ (let s : State := live
     let i : Fin 128 := 127
     let e := s.rfx.entries[i]
     e.timerAt = none ∧ e.waiting = none)
    ∧ (let s : State := reflexed fun e => { e with timerAt := some 5000000000, waiting := some (⟨.event 1, 0, 0⟩, 0, 5000000000) }
     let i : Fin 128 := 127
     let o := (⟨.event 1, 0, 0⟩ : Occ)
     let t1 := 0
     let t2 := 5000000000
     let e := s.rfx.entries[i]
     e.waiting = some (o, t1, t2) ∧ reflexRuns s = true ∧ t2 ≤ s.clk.d00Clock)
    ∧ (let s : State := reflexed fun e => { e with timerAt := some 5000000001, waiting := some (⟨.event 1, 0, 0⟩, 0, 5000000001) }
     let i : Fin 128 := 127
     let o := (⟨.event 1, 0, 0⟩ : Occ)
     let t1 := 0
     let t2 := 5000000001
     let e := s.rfx.entries[i]
     e.waiting = some (o, t1, t2) ∧ (reflexRuns s = false ∨ s.clk.d00Clock < t2)) := by
  unfold AtHead; refine ⟨?_, ?_, ?_, ?_, ?_, ?_, ?_, ?_, ?_, ?_, ?_, ?_, ?_, ?_, ?_⟩ <;> decide +kernel

end ForReflexTable

namespace ForNetPackets

def can5 (f : CanPort → CanPort) (s : State := live) : State := modCan 5 (fun x => f { x with cfg := x.cfg ||| 0x40000000 }) s
/-- A transmit channel of CAN channel 5 and identifier 1, under a loaded key of slot 3. -/
def chan5 (counter : Word) : State := modChan 31 (fun x => { x with valid := true, tx := true, port := 5, slot := 3, id := 1, window := 1, counter := counter })
  (can5 id { live with ks := { live.ks with slots := live.ks.slots.set 3 { live.ks.slots[3] with st := .loaded, attr := 2, key := zs 16 } } })
def lin7 (f : LinPort → LinPort) : State := modLin 7 f live
def sleeping5 (cfg : Word) : State := modNets 5 (fun x => { x with st := .asleep, cfg1 := cfg }) (can5 id)
def waitingSend (t : Nat) : Fin 6 × QPkt × Nat := (5, qp (pk []) (.can 5), t)
def frame1 : CanFrame := ⟨false, 1, false, false, false, false, [9]⟩
def chanSlot (st : SlotState) (attr : Half) : State := modSlot 3 (fun x => { x with st := st, attr := attr }) (chan5 0)
def linSleeping (cfg : Word) : State := modNets (linNet 7) (fun x => { x with st := .asleep, cfg1 := cfg }) live

theorem witness_NetPackets :
    (let p : Packet := pk (zw 8 [(1, 2)])
     let s : State := live
     let n : Fin 2 := 1
     let b := p.payload
     let kind := (byteAt b 0).toNat
     b.length = 8 ∧ opPortConfig.resOk b = true ∧ kind = 0 ∧ (byteAt b 1).toNat = 2 ^ n.val ∧ AtHead 0x0A00 (.eth n) [Fin.ofNat 16 (1 +
         n.val)] p s)
    ∧ (let p : Packet := pk (zw 8 [(0, 1), (1, 32)])
     let s : State := live
     let c : Fin 6 := 5
     let b := p.payload
     let kind := (byteAt b 0).toNat
     let wr := numAt b 2 2
     let img (old : Word) : Word := writeFields (wordAt b 4) wr 0 (portFields kind) old
     let old := s.net.cans[c]
     let new := img old.cfg
     b.length = 8 ∧ opPortConfig.resOk b = true ∧ kind = 1 ∧ (byteAt b 1).toNat = 2 ^ c.val ∧ AtHead 0x0A00 (.can c) [canDomain c] p s ∧
         portOk 1 new = true ∧ (∀ w ∈ s.net.txWait, w.1 ≠ c) ∧ (∀ w, s.net.txWait.find? (·.1 = c) = some w → s.clk.now < w.2.2 + 10000000))
    ∧ (let p : Packet := pk (zw 8 [(0, 1), (1, 32)])
     let s : State := { live with net := { live.net with txWait := [waitingSend 4990000000] } }
     let c : Fin 6 := 5
     let w := waitingSend 4990000000
     let b := p.payload
     let kind := (byteAt b 0).toNat
     let wr := numAt b 2 2
     let img (old : Word) : Word := writeFields (wordAt b 4) wr 0 (portFields kind) old
     let old := s.net.cans[c]
     let new := img old.cfg
     b.length = 8 ∧ opPortConfig.resOk b = true ∧ kind = 1 ∧ (byteAt b 1).toNat = 2 ^ c.val ∧ AtHead 0x0A00 (.can c) [canDomain c] p s ∧
         portOk 1 new = true ∧ s.net.txWait.find? (·.1 = c) = some w ∧ w.2.2 + 10000000 ≤ s.clk.now)
    ∧ (let p : Packet := pk (zw 8 [(0, 1), (1, 32), (3, 31), (4, 192)])
     let s : State := live
     let c : Fin 6 := 5
     let b := p.payload
     let kind := (byteAt b 0).toNat
     let wr := numAt b 2 2
     let img (old : Word) : Word := writeFields (wordAt b 4) wr 0 (portFields kind) old
     let old := s.net.cans[c]
     let new := img old.cfg
     b.length = 8 ∧ opPortConfig.resOk b = true ∧ kind = 1 ∧ (byteAt b 1).toNat = 2 ^ c.val ∧ AtHead 0x0A00 (.can c) [canDomain c] p s ∧
         portOk 1 new = false)
    ∧ (let p : Packet := pk (zw 8 [(0, 2), (1, 128)])
     let s : State := live
     let c : Fin 8 := 7
     let b := p.payload
     let kind := (byteAt b 0).toNat
     let wr := numAt b 2 2
     let img (old : Word) : Word := writeFields (wordAt b 4) wr 0 (portFields kind) old
     b.length = 8 ∧ opPortConfig.resOk b = true ∧ kind = 2 ∧ (byteAt b 1).toNat = 2 ^ c.val ∧ AtHead 0x0A00 (.lin c) [5] p s ∧ portOk 2
         (img s.net.lins[c].cfg) = true)
    ∧ (let p : Packet := pk (zw 8 [(0, 2), (1, 128), (3, 2)])
     let s : State := live
     let c : Fin 8 := 7
     let b := p.payload
     let kind := (byteAt b 0).toNat
     let wr := numAt b 2 2
     let img (old : Word) : Word := writeFields (wordAt b 4) wr 0 (portFields kind) old
     b.length = 8 ∧ opPortConfig.resOk b = true ∧ kind = 2 ∧ (byteAt b 1).toNat = 2 ^ c.val ∧ AtHead 0x0A00 (.lin c) [5] p s ∧ portOk 2
         (img s.net.lins[c].cfg) = false)
    ∧ (let p : Packet := pk (zw 8 [(0, 31)])
     let s : State := live
     let b := p.payload
     let kind := (byteAt b 0).toNat
     b.length = 8 ∧ opPortConfig.resOk b = true ∧ 2 < kind ∧ AtHead 0x0A00 .chip [] p s ∧ opVlanWrite.resOk b = true ∧ AtHead 0x0A01
         .chip [] p s ∧ (domOn 1 s = true ∨ domOn 2 s = true) ∧ kind < 32)
    ∧ (let p : Packet := pk (zw 8 [(0, 32)])
     let s : State := live
     let b := p.payload
     let kind := (byteAt b 0).toNat
     b.length = 8 ∧ opVlanWrite.resOk b = true ∧ AtHead 0x0A01 .chip [] p s ∧ (domOn 1 s = true ∨ domOn 2 s = true) ∧ 32 ≤ kind)
    ∧ (let p : Packet := pk (zw 16 [(0, 7), (1, 1), (5, 1), (6, 20)])
     let s : State := live
     let c : Fin 8 := 7
     let b := p.payload
     let kind := (byteAt b 0).toNat
     let tab := (List.range (byteAt b 1).toNat).map (linSlotAt b)
     let x := s.net.lins[c]
     b.length = 4 + 12 * (byteAt b 1).toNat ∧ opLinSchedule.resOk b = true ∧ kind = c.val ∧ AtHead 0x0A02 (.lin c) [5] p s ∧ tab.length
         ≤ 32 ∧ (∀ t ∈ tab, linSlotOk x t = true))
    ∧ (let p : Packet := pk (zw 16 [(0, 7), (1, 1)])
     let s : State := live
     let c : Fin 8 := 7
     let b := p.payload
     let kind := (byteAt b 0).toNat
     let tab := (List.range (byteAt b 1).toNat).map (linSlotAt b)
     let x := s.net.lins[c]
     b.length = 4 + 12 * (byteAt b 1).toNat ∧ opLinSchedule.resOk b = true ∧ kind = c.val ∧ AtHead 0x0A02 (.lin c) [5] p s ∧ (32 <
         tab.length ∨ ∃ t ∈ tab, linSlotOk x t = false))
    ∧ (let p : Packet := pk (zw 16 [(0, 8), (1, 1), (5, 1), (6, 20)])
     let s : State := live
     let b := p.payload
     let kind := (byteAt b 0).toNat
     b.length = 4 + 12 * (byteAt b 1).toNat ∧ opLinSchedule.resOk b = true ∧ 7 < kind ∧ AtHead 0x0A02 .chip [] p s)
    ∧ (let p : Packet := pk (zw 16 [(0, 63), (2, 15)])
     let s : State := live
     let b := p.payload
     let kind := (byteAt b 0).toNat
     let port := (byteAt b 2).toNat
     b.length = 16 ∧ opFilterWrite.resOk b = true ∧ AtHead 0x0A03 .chip [0] p s ∧ kind < 64 ∧ port ≤ 15 ∧ port ≠ 6 ∧ port ≠ 7)
    ∧ (let p : Packet := pk (zw 16 [(0, 63), (2, 6)])
     let s : State := live
     let b := p.payload
     let kind := (byteAt b 0).toNat
     let port := (byteAt b 2).toNat
     b.length = 16 ∧ opFilterWrite.resOk b = true ∧ AtHead 0x0A03 .chip [0] p s ∧ (64 ≤ kind ∨ port = 6 ∨ port = 7 ∨ 15 < port))
    ∧ (let p : Packet := pk (zw 12 [(0, 31), (2, 5), (3, 63), (9, 1)])
     let s : State := live
     let b := p.payload
     let kind := (byteAt b 0).toNat
     b.length = 12 ∧ opAuthChannel.resOk b = true ∧ AtHead 0x0A04 .chip [0] p s ∧ (kind < 32 ∧ (byteAt b 2).toNat < 6 ∧ (byteAt b
         3).toNat < 64 ∧ 1 ≤ numAt b 8 2))
    ∧ (let p : Packet := pk (zs 12)
     let s : State := live
     let b := p.payload
     let kind := (byteAt b 0).toNat
     b.length = 12 ∧ opAuthChannel.resOk b = true ∧ AtHead 0x0A04 .chip [0] p s ∧ (¬ (kind < 32 ∧ (byteAt b 2).toNat < 6 ∧ (byteAt b
         3).toNat < 64 ∧ 1 ≤ numAt b 8 2)))
    ∧ (let p : Packet := pk (zw 8 [(0, 31)])
     let s : State := live
     let u := UnitRef.chip
     let b := p.payload
     b.length = 8 + fsLen b ∧ opFrameSend.resOk b = true ∧ opFrameSend.units p s = [u] ∧ AtHead 0x0A05 u (rowDoms opFrameSend p u) p s ∧
         fsRange b = false ∧ (fsAuth b = true → fsPort b < 6 → cryptoReady s = true))
    ∧ (let p : Packet := pk (zw 9 [(0, 5), (1, 144), (2, 1), (7, 1)])
     let s : State := dst [14] .off (chan5 0)
     let c : Fin 6 := 5
     let b := p.payload
     b.length = 8 + fsLen b ∧ opFrameSend.resOk b = true ∧ fsPort b = c.val ∧ AtHead 0x0A05 (.can c) [canDomain c] p s ∧ fsAuth b = true
         ∧ cryptoReady s = false)
    ∧ (let p : Packet := pk (zw 9 [(0, 5), (1, 0), (2, 1), (7, 1)])
     let s : State := can5 id
     let c : Fin 6 := 5
     let b := p.payload
     let x := s.net.cans[c]
     let n := canNet c
     b.length = 8 + fsLen b ∧ opFrameSend.resOk b = true ∧ fsPort b = c.val ∧ AtHead 0x0A05 (.can c) [canDomain c] p s ∧ fsRange b =
         true ∧ ((s.net.nets[n].st = .asleep ∨ s.net.nets[n].st = .transition) → txWake s.net.nets[n] = true) ∧ (canMode x = 1 ∧ x.busOff
         = false ∧ (fsFd b = true → fdEn x = true)) ∧ fsAuth b = false ∧ x.bufs.length < 8)
    ∧ (let p : Packet := pk (zw 9 [(0, 5), (1, 0), (2, 1), (7, 1)])
     let s : State := can5 fun x => { x with bufs := List.replicate 8 frame1 }
     let c : Fin 6 := 5
     let b := p.payload
     let x := s.net.cans[c]
     let n := canNet c
     b.length = 8 + fsLen b ∧ opFrameSend.resOk b = true ∧ fsPort b = c.val ∧ AtHead 0x0A05 (.can c) [canDomain c] p s ∧ fsRange b =
         true ∧ ((s.net.nets[n].st = .asleep ∨ s.net.nets[n].st = .transition) → txWake s.net.nets[n] = true) ∧ (canMode x = 1 ∧ x.busOff
         = false ∧ (fsFd b = true → fdEn x = true)) ∧ fsAuth b = false ∧ 8 ≤ x.bufs.length)
    ∧ (let p : Packet := pk (zw 8 [(0, 1), (1, 32)])
     let s : State := live
     let c : Fin 6 := 7
     let b := p.payload
     let x := s.net.cans[c]
     let n := canNet c
     b.length = 8 + fsLen b ∧ opFrameSend.resOk b = true ∧ fsPort b = c.val ∧ AtHead 0x0A05 (.can c) [canDomain c] p s ∧ fsRange b =
         true ∧ ((s.net.nets[n].st = .asleep ∨ s.net.nets[n].st = .transition) → txWake s.net.nets[n] = true) ∧ (¬ (canMode x = 1 ∧
         x.busOff = false ∧ (fsFd b = true → fdEn x = true))) ∧ (fsAuth b = true → cryptoReady s = true))
    ∧ (let p : Packet := pk (zw 12 [(0, 5), (1, 144), (2, 4), (7, 1)])
     let s : State := can5 id
     let c : Fin 6 := 5
     let b := p.payload
     let x := s.net.cans[c]
     let n := canNet c
     b.length = 8 + fsLen b ∧ opFrameSend.resOk b = true ∧ fsPort b = c.val ∧ AtHead 0x0A05 (.can c) [canDomain c] p s ∧ fsRange b =
         true ∧ ((s.net.nets[n].st = .asleep ∨ s.net.nets[n].st = .transition) → txWake s.net.nets[n] = true) ∧ (canMode x = 1 ∧ x.busOff
         = false ∧ (fsFd b = true → fdEn x = true)) ∧ fsAuth b = true ∧ cryptoReady s = true ∧ chanFor true c.val (fsExt b) (fsId b) s =
         none)
    ∧ (let p : Packet := pk (zw 12 [(0, 5), (1, 144), (2, 4), (7, 1)])
     let s : State := chan5 0
     let c : Fin 6 := 5
     let i := (31 : Fin 32)
     let b := p.payload
     let x := s.net.cans[c]
     let n := canNet c
     let y := s.net.chans[i]
     let k := s.ks.slots[y.slot]
     b.length = 8 + fsLen b ∧ opFrameSend.resOk b = true ∧ fsPort b = c.val ∧ AtHead 0x0A05 (.can c) [canDomain c] p s ∧ fsRange b =
         true ∧ ((s.net.nets[n].st = .asleep ∨ s.net.nets[n].st = .transition) → txWake s.net.nets[n] = true) ∧ (canMode x = 1 ∧ x.busOff
         = false ∧ (fsFd b = true → fdEn x = true)) ∧ fsAuth b = true ∧ cryptoReady s = true ∧ chanFor true c.val (fsExt b) (fsId b) s =
         some i ∧ k.st = .loaded ∧ k.attr.getLsbD 1 = true ∧ y.counter ≠ 0xFFFFFFFF)
    ∧ (let p : Packet := pk (zw 12 [(0, 5), (1, 144), (2, 4), (7, 1)])
     let s : State := chan5 0xFFFFFFFF
     let c : Fin 6 := 5
     let i := (31 : Fin 32)
     let b := p.payload
     let x := s.net.cans[c]
     let n := canNet c
     let y := s.net.chans[i]
     let k := s.ks.slots[y.slot]
     b.length = 8 + fsLen b ∧ opFrameSend.resOk b = true ∧ fsPort b = c.val ∧ AtHead 0x0A05 (.can c) [canDomain c] p s ∧ fsRange b =
         true ∧ ((s.net.nets[n].st = .asleep ∨ s.net.nets[n].st = .transition) → txWake s.net.nets[n] = true) ∧ (canMode x = 1 ∧ x.busOff
         = false ∧ (fsFd b = true → fdEn x = true)) ∧ fsAuth b = true ∧ cryptoReady s = true ∧ chanFor true c.val (fsExt b) (fsId b) s =
         some i ∧ k.st = .loaded ∧ k.attr.getLsbD 1 = true ∧ y.counter = 0xFFFFFFFF)
    ∧ (let p : Packet := pk (zw 12 [(0, 5), (1, 144), (2, 4), (7, 1)])
     let s : State := chanSlot .loaded 0
     let c : Fin 6 := 5
     let i := (31 : Fin 32)
     let b := p.payload
     let x := s.net.cans[c]
     let n := canNet c
     let y := s.net.chans[i]
     let k := s.ks.slots[y.slot]
     b.length = 8 + fsLen b ∧ opFrameSend.resOk b = true ∧ fsPort b = c.val ∧ AtHead 0x0A05 (.can c) [canDomain c] p s ∧ fsRange b =
         true ∧ ((s.net.nets[n].st = .asleep ∨ s.net.nets[n].st = .transition) → txWake s.net.nets[n] = true) ∧ (canMode x = 1 ∧ x.busOff
         = false ∧ (fsFd b = true → fdEn x = true)) ∧ fsAuth b = true ∧ cryptoReady s = true ∧ chanFor true c.val (fsExt b) (fsId b) s =
         some i ∧ k.st ≠ .orphaned ∧ (k.st ≠ .loaded ∨ k.attr.getLsbD 1 = false))
    ∧ (let p : Packet := pk (zw 12 [(0, 5), (1, 144), (2, 4), (7, 1)])
     let s : State := chanSlot .orphaned 2
     let c : Fin 6 := 5
     let i := (31 : Fin 32)
     let b := p.payload
     let x := s.net.cans[c]
     let n := canNet c
     let y := s.net.chans[i]
     let k := s.ks.slots[y.slot]
     b.length = 8 + fsLen b ∧ opFrameSend.resOk b = true ∧ fsPort b = c.val ∧ AtHead 0x0A05 (.can c) [canDomain c] p s ∧ fsRange b =
         true ∧ ((s.net.nets[n].st = .asleep ∨ s.net.nets[n].st = .transition) → txWake s.net.nets[n] = true) ∧ (canMode x = 1 ∧ x.busOff
         = false ∧ (fsFd b = true → fdEn x = true)) ∧ fsAuth b = true ∧ cryptoReady s = true ∧ chanFor true c.val (fsExt b) (fsId b) s =
         some i ∧ k.st = .orphaned)
    ∧ (let p : Packet := pk (zw 9 [(0, 5), (1, 0), (2, 1), (7, 1)])
     let s : State := sleeping5 0
     let c : Fin 6 := 5
     let b := p.payload
     let n := canNet c
     b.length = 8 + fsLen b ∧ opFrameSend.resOk b = true ∧ fsPort b = c.val ∧ AtHead 0x0A05 (.can c) [canDomain c] p s ∧ fsRange b =
         true ∧ (¬ ((s.net.nets[n].st = .asleep ∨ s.net.nets[n].st = .transition) → txWake s.net.nets[n] = true)) ∧ (fsAuth b = true →
         cryptoReady s = true))
    ∧ (let p : Packet := pk (zw 9 [(0, 15), (2, 1), (7, 1)])
     let s : State := lin7 fun x => { x with table := [⟨1, true, false, 1, 20, [0]⟩] }
     let c : Fin 8 := 7
     let b := p.payload
     let x := s.net.lins[c]
     let n := linNet c
     b.length = 8 + fsLen b ∧ opFrameSend.resOk b = true ∧ fsPort b = 8 + c.val ∧ AtHead 0x0A05 (.lin c) [5] p s ∧ fsRange b = true ∧
         ((s.net.nets[n].st = .asleep ∨ s.net.nets[n].st = .transition) → txWake s.net.nets[n] = true) ∧ fsFd b = false ∧ fsAuth b = false
         ∧ (∃ t ∈ x.table, (t.publish && decide (t.id.toNat = fsId b)) = true))
    ∧ (let p : Packet := pk (zw 9 [(0, 15), (2, 1), (7, 1)])
     let s : State := live
     let c : Fin 8 := 7
     let b := p.payload
     let x := s.net.lins[c]
     let n := linNet c
     b.length = 8 + fsLen b ∧ opFrameSend.resOk b = true ∧ fsPort b = 8 + c.val ∧ AtHead 0x0A05 (.lin c) [5] p s ∧ fsRange b = true ∧
         ((s.net.nets[n].st = .asleep ∨ s.net.nets[n].st = .transition) → txWake s.net.nets[n] = true) ∧ fsFd b = false ∧ fsAuth b = false
         ∧ (∀ t ∈ x.table, (t.publish && decide (t.id.toNat = fsId b)) = false))
    ∧ (let p : Packet := pk (zw 9 [(0, 15), (1, 128), (2, 1), (7, 1)])
     let s : State := live
     let c : Fin 8 := 7
     let b := p.payload
     let n := linNet c
     b.length = 8 + fsLen b ∧ opFrameSend.resOk b = true ∧ fsPort b = 8 + c.val ∧ AtHead 0x0A05 (.lin c) [5] p s ∧ fsRange b = true ∧
         ((s.net.nets[n].st = .asleep ∨ s.net.nets[n].st = .transition) → txWake s.net.nets[n] = true) ∧ fsFd b = true)
    ∧ (let p : Packet := pk (zw 9 [(0, 15), (1, 16), (2, 1), (7, 1)])
     let s : State := live
     let c : Fin 8 := 7
     let b := p.payload
     let n := linNet c
     b.length = 8 + fsLen b ∧ opFrameSend.resOk b = true ∧ fsPort b = 8 + c.val ∧ AtHead 0x0A05 (.lin c) [5] p s ∧ fsRange b = true ∧
         ((s.net.nets[n].st = .asleep ∨ s.net.nets[n].st = .transition) → txWake s.net.nets[n] = true) ∧ fsFd b = false ∧ fsAuth b = true)
    ∧ (let p : Packet := pk (zw 9 [(0, 15), (2, 1), (7, 1)])
     let s : State := linSleeping 0
     let c : Fin 8 := 7
     let b := p.payload
     let n := linNet c
     b.length = 8 + fsLen b ∧ opFrameSend.resOk b = true ∧ fsPort b = 8 + c.val ∧ AtHead 0x0A05 (.lin c) [5] p s ∧ fsRange b = true ∧ (¬
         ((s.net.nets[n].st = .asleep ∨ s.net.nets[n].st = .transition) → txWake s.net.nets[n] = true))) := by
  unfold AtHead; refine ⟨?_, ?_, ?_, ?_, ?_, ?_, ?_, ?_, ?_, ?_, ?_, ?_, ?_, ?_, ?_, ?_, ?_, ?_, ?_, ?_, ?_, ?_, ?_, ?_, ?_, ?_, ?_, ?_, ?_, ?_, ?_⟩ <;> decide +kernel

end ForNetPackets

namespace ForNetRows

def can5 (f : CanPort → CanPort) (s : State := live) : State := modCan 5 (fun x => f { x with cfg := x.cfg ||| 0x40000000 }) s
/-- A receive channel of CAN channel 5 and identifier 1, under a loaded key of slot 3. -/
def chan5 (s : State := live) : State := modChan 31 (fun x => { x with valid := true, tx := false, port := 5, slot := 3, id := 1, window := 1, counter := 7 })
  (can5 id { s with ks := { s.ks with slots := s.ks.slots.set 3 { s.ks.slots[3] with st := .loaded, attr := 2, key := zs 16 } } })
def frame1 (n : Nat) : CanFrame := ⟨false, 1, false, false, false, false, zs n⟩
def frameFd : CanFrame := ⟨false, 1, true, false, false, false, zs 8⟩
def frameAuth : CanFrame := ⟨false, 1, true, false, false, false, zs 4 ++ be 2 8 ++ frameMac (zs 16) false 1 8 (zs 4)⟩
def slot7 : LinSlot := ⟨1, false, false, 1, 20, [0]⟩
def lin7 (f : LinPort → LinPort) (s : State := live) : State := modLin 7 f s
/-- LIN channel 7 in slot 0, which awaits its response since `t`. -/
def awaits7 (t : Nat) (s : State := live) : State := lin7 (fun x => { x with table := [slot7], slotAt := some t, awaiting := true }) s
def linked (l : BitVec 2) : State := { live with net := { live.net with eth := live.net.eth.set 1 { live.net.eth[1] with link := l } } }
def eth0 (f : EthPort → EthPort) (s : State := live) : State := { s with net := { s.net with eth := s.net.eth.set 0 (f s.net.eth[0]) } }
def ethFrame (dst : BitVec 48) : EthFrame := ⟨dst, 0x020000000001, none, 0x0800, zs 46⟩
def known : State := { live with net := { live.net with fdb := [⟨0x020000000002, 0, 1, 4000000000⟩] } }
def forwards (t : Nat) : State := { live with net := { live.net with fwd := live.net.fwd.set 0 ⟨[⟨5, 0, zs 20⟩], some t⟩ } }

theorem witness_NetRows :
    (let s : State := live
     let n : Fin 2 := 1
     let l : BitVec 2 := (2 : BitVec 2)
     let x := s.net.eth[n]
     (domOn (Fin.ofNat 16 (1 + n.val)) s = true ∧ s.net.nets[ethNet n].st ≠ .asleep ∧ l ≠ 3 ∧ (s.boot.condition = 1 → l = 0)) ∧ l ≠
         x.link)
    ∧ (let s : State := live
     let n : Fin 2 := 1
     let l : BitVec 2 := (3 : BitVec 2)
     let x := s.net.eth[n]
     (¬ (domOn (Fin.ofNat 16 (1 + n.val)) s = true ∧ s.net.nets[ethNet n].st ≠ .asleep ∧ l ≠ 3 ∧ (s.boot.condition = 1 → l = 0)) ∨ l =
         x.link))
    ∧ (let s : State := linked 2
     let n : Fin 2 := 1
     let x := s.net.eth[n]
     x.link = 2)
    ∧ (let s : State := live
     let n : Fin 2 := 1
     let x := s.net.eth[n]
     x.link ≠ 2)
    ∧ (let s : State := dst [1, 2] .off
     let port : Fin 3 := 0
     let p : Fin 2 := Fin.ofNat 2 port.val
     (¬ (switchOn s = true ∧ ((port.val < 2) → portPasses p s = true))))
    ∧ (let s : State := live
     let port : Fin 3 := 0
     let fcs : Bool := false
     let p : Fin 2 := Fin.ofNat 2 port.val
     (switchOn s = true ∧ ((port.val < 2) → portPasses p s = true)) ∧ port.val < 2 ∧ fcs = false)
    ∧ (let s : State := live
     let port : Fin 3 := 0
     let len : Nat := 63
     let fcs : Bool := true
     let p : Fin 2 := Fin.ofNat 2 port.val
     (switchOn s = true ∧ ((port.val < 2) → portPasses p s = true)) ∧ port.val < 2 ∧ fcs = true ∧ (len < 64 ∨ 1522 < len))
    ∧ (let s : State := live
     let port : Fin 3 := 0
     let f : EthFrame := ethFrame timeMac
     let len : Nat := 64
     let fcs : Bool := true
     let p : Fin 2 := Fin.ofNat 2 port.val
     (switchOn s = true ∧ ((port.val < 2) → portPasses p s = true)) ∧ ((¬ (port.val < 2) ∧ ¬ (fcs = true ∧ 64 ≤ len ∧ len ≤ 1522)) ∨
         ((fcs = true ∧ 64 ≤ len ∧ len ≤ 1522) ∧ (f.dst = timeMac ∨ reservedMac f.dst = true))))
    ∧ (let s : State := eth0 fun x => { x with cfg := x.cfg ||| 0x20000000 }
     let port : Fin 3 := 0
     let f : EthFrame := ethFrame 0x010000000001
     let len : Nat := 64
     let fcs : Bool := true
     let p : Fin 2 := Fin.ofNat 2 port.val
     let cfg := s.net.eth[p].cfg
     let filter : Bool := decide (port.val < 2) && cfg.getLsbD 29
     let vid : BitVec 12 := f.tag.elim (if filter then BitVec.ofNat 12 (fld cfg 14 12) else 0) (·.2)
     let entry := vlanOf vid s
     (switchOn s = true ∧ ((port.val < 2) → portPasses p s = true)) ∧ (fcs = true ∧ 64 ≤ len ∧ len ≤ 1522) ∧ (¬ (f.dst = timeMac ∨
         reservedMac f.dst = true)) ∧ port.val < 2 ∧ (¬ (filter = true → (entry.any fun v => v.members.getLsbD port.val) = true)))
    ∧ (let s : State := live
     let port : Fin 3 := 0
     let f : EthFrame := ethFrame 0x010000000001
     let len : Nat := 64
     let fcs : Bool := true
     let p : Fin 2 := Fin.ofNat 2 port.val
     let cfg := s.net.eth[p].cfg
     let filter : Bool := decide (port.val < 2) && cfg.getLsbD 29
     let vid : BitVec 12 := f.tag.elim (if filter then BitVec.ofNat 12 (fld cfg 14 12) else 0) (·.2)
     let entry := vlanOf vid s
     (switchOn s = true ∧ ((port.val < 2) → portPasses p s = true)) ∧ (fcs = true ∧ 64 ≤ len ∧ len ≤ 1522) ∧ (¬ (f.dst = timeMac ∨
         reservedMac f.dst = true)) ∧ (filter = true → (entry.any fun v => v.members.getLsbD port.val) = true))
    ∧ (let s : State := modNets (canNet 5) (fun x => { x with st := .asleep })
         { (can5 id) with net := { (can5 id).net with wufs := (can5 id).net.wufs.set 5 ⟨false, 8, 1, 0x7FF, List.replicate 8 0⟩ } }
     let c : Fin 6 := 5
     let f : CanFrame := frame1 8
     (wakeMatches s.net.wufs[c] f = true ∧ netListens (canNet c) s = true))
    ∧ (let s : State := live
     let c : Fin 6 := 5
     let f : CanFrame := frame1 8
     let live := canLive c s
     (¬ (wakeMatches s.net.wufs[c] f = true ∧ netListens (canNet c) s = true)) ∧ live = false)
    ∧ (let s : State := can5 fun x => { x with cfg := x.cfg &&& 0xDFFFFFFF }
     let c : Fin 6 := 5
     let f : CanFrame := frameFd
     let x := s.net.cans[c]
     let live := canLive c s
     live = true ∧ f.fd = true ∧ fdEn x = false)
    ∧ (let s : State := dst [0] .off (can5 id)
     let c : Fin 6 := 5
     let f : CanFrame := frame1 8
     let x := s.net.cans[c]
     let live := canLive c s
     (¬ (wakeMatches s.net.wufs[c] f = true ∧ netListens (canNet c) s = true) ∧ live = true ∧ (f.fd = true → fdEn x = true)) ∧ domOn 0 s
         = false)
    ∧ (let s : State := can5 id
     let c : Fin 6 := 5
     let f : CanFrame := frame1 8
     let x := s.net.cans[c]
     let live := canLive c s
     let ch := chanFor false c.val f.ext f.id.toNat s
     (¬ (wakeMatches s.net.wufs[c] f = true ∧ netListens (canNet c) s = true) ∧ live = true ∧ (f.fd = true → fdEn x = true)) ∧ domOn 0 s
         = true ∧ ch = none)
    ∧ (let s : State := chan5 (dst [14] .off)
     let c : Fin 6 := 5
     let f : CanFrame := frame1 8
     let i := (31 : Fin 32)
     let x := s.net.cans[c]
     let live := canLive c s
     let ch := chanFor false c.val f.ext f.id.toNat s
     (¬ (wakeMatches s.net.wufs[c] f = true ∧ netListens (canNet c) s = true) ∧ live = true ∧ (f.fd = true → fdEn x = true)) ∧ domOn 0 s
         = true ∧ ch = some i ∧ cryptoReady s = false ∧ f.data.length < 9)
    ∧ (let s : State := chan5
     let c : Fin 6 := 5
     let f : CanFrame := frame1 8
     let i := (31 : Fin 32)
     let x := s.net.cans[c]
     let live := canLive c s
     let ch := chanFor false c.val f.ext f.id.toNat s
     (¬ (wakeMatches s.net.wufs[c] f = true ∧ netListens (canNet c) s = true) ∧ live = true ∧ (f.fd = true → fdEn x = true)) ∧ domOn 0 s
         = true ∧ ch = some i ∧ cryptoReady s = true ∧ (receiveCheck i f s).1 = false)
    ∧ (let s : State := chan5
     let c : Fin 6 := 5
     let f : CanFrame := frameAuth
     let i := (31 : Fin 32)
     let d : List Byte := zs 4
     let x := s.net.cans[c]
     let live := canLive c s
     let ch := chanFor false c.val f.ext f.id.toNat s
     let a := s.net.chans[i]
     let k := s.ks.slots[a.slot]
     (¬ (wakeMatches s.net.wufs[c] f = true ∧ netListens (canNet c) s = true) ∧ live = true ∧ (f.fd = true → fdEn x = true)) ∧ domOn 0 s
         = true ∧ ch = some i ∧ cryptoReady s = true ∧ k.st = .loaded ∧ k.attr.getLsbD 1 = true ∧ 1 ≤ a.window ∧ a.counter ≠ 0xFFFFFFFF ∧
         d ≠ [] ∧ k.key.length = 16 ∧ f.data = d ++ be 2 ((a.counter + 1).toNat % 65536) ++ frameMac k.key f.ext f.id.toNat (a.counter +
         1) d)
    ∧ (let s : State := can5 fun x => { x with bufs := [frame1 1] }
     let c : Fin 6 := 5
     let x := s.net.cans[c]
     let live := canLive c s
     live = true ∧ canMode x = 1 ∧ s.net.vs5Low = false ∧ busesDriven s = true ∧ x.bufs ≠ [] ∧ (canState c s ≠ 3 ∨ x.cfg.getLsbD 11 =
         false))
    ∧ (let s : State := can5 fun x => { x with busOff := true }
     let c : Fin 6 := 5
     let x := s.net.cans[c]
     let live := canLive c s
     (live = false ∨ canMode x ≠ 1 ∨ s.net.vs5Low = true ∨ busesDriven s = false ∨ x.bufs = []) ∧ (live = false ∨ canMode x ≠ 1) ∧
         canState c s = 3 ∧ x.cfg.getLsbD 11 = true)
    ∧ (let s : State := can5 id
     let c : Fin 6 := 5
     let live := canLive c s
     live = true)
    ∧ (let s : State := live
     let c : Fin 6 := 5
     let live := canLive c s
     live = false)
    ∧ (let s : State := awaits7 4999990000
     let c : Fin 8 := 7
     linSlotOver c s = false)
    ∧ (let s : State := live
     let c : Fin 8 := 7
     let x := s.net.lins[c]
     linSlotOver c s = true ∧ x.next = none ∧ linRuns c s = false ∧ (x.slotAt = none ∨ x.table[x.slot]? = none))
    ∧ (let s : State := lin7 fun x => { x with cfg := x.cfg ||| 0x80000000, table := [slot7] }
     let c : Fin 8 := 7
     let e := slot7
     let x := s.net.lins[c]
     let j := if x.slotAt.isSome then (if x.slot + 1 < x.table.length then x.slot + 1 else 0) else x.slot
     linSlotOver c s = true ∧ x.next = none ∧ linRuns c s = true ∧ x.table[j]? = some e)
    ∧ (let s : State := lin7 fun x => { x with next := some [slot7] }
     let c : Fin 8 := 7
     let tab := [slot7]
     let x := s.net.lins[c]
     linSlotOver c s = true ∧ x.next = some tab)
    ∧ (let s : State := dst [5] .off (awaits7 4999990000)
     let c : Fin 8 := 7
     let at_ := 4999990000
     let e := slot7
     let x := s.net.lins[c]
     x.slotAt = some at_ ∧ x.table[x.slot]? = some e ∧ domOn 5 s = false)
    ∧ (let s : State := awaits7 4999990000
     let c : Fin 8 := 7
     let at_ := 4999990000
     let e := slot7
     let framing : Bool := false
     let x := s.net.lins[c]
     x.slotAt = some at_ ∧ x.table[x.slot]? = some e ∧ domOn 5 s = true ∧ framing = false)
    ∧ (let s : State := lin7 fun x => { x with table := [slot7], slotAt := some 4999990000 }
     let c : Fin 8 := 7
     let at_ := 4999990000
     let e := slot7
     let framing : Bool := true
     let x := s.net.lins[c]
     x.slotAt = some at_ ∧ x.table[x.slot]? = some e ∧ domOn 5 s = true ∧ framing = true ∧ x.awaiting = false)
    ∧ (let s : State := awaits7 4999990000
     let c : Fin 8 := 7
     let at_ := 4999990000
     let e := slot7
     let data : List Byte := [(1 : Byte)]
     let framing : Bool := true
     let sum : Bool := false
     let x := s.net.lins[c]
     x.slotAt = some at_ ∧ x.table[x.slot]? = some e ∧ domOn 5 s = true ∧ framing = true ∧ x.awaiting = true ∧ data.length = e.len ∧ sum
         = false)
    ∧ (let s : State := awaits7 4999990000
     let c : Fin 8 := 7
     let at_ := 4999990000
     let e := slot7
     let data : List Byte := zs 2
     let framing : Bool := true
     let x := s.net.lins[c]
     x.slotAt = some at_ ∧ x.table[x.slot]? = some e ∧ domOn 5 s = true ∧ framing = true ∧ x.awaiting = true ∧ data.length ≠ e.len)
    ∧ (let s : State := dst [0] .off (awaits7 4999990000)
     let c : Fin 8 := 7
     let at_ := 4999990000
     let e := slot7
     let data : List Byte := [(1 : Byte)]
     let framing : Bool := true
     let sum : Bool := true
     let x := s.net.lins[c]
     x.slotAt = some at_ ∧ x.table[x.slot]? = some e ∧ domOn 5 s = true ∧ domOn 0 s = false ∧ framing = true ∧ x.awaiting = true ∧
         data.length = e.len ∧ sum = true)
    ∧ (let s : State := awaits7 4999990000
     let c : Fin 8 := 7
     let at_ := 4999990000
     let e := slot7
     let data : List Byte := [(1 : Byte)]
     let framing : Bool := true
     let sum : Bool := true
     let x := s.net.lins[c]
     x.slotAt = some at_ ∧ x.table[x.slot]? = some e ∧ domOn 5 s = true ∧ domOn 0 s = true ∧ framing = true ∧ x.awaiting = true ∧
         data.length = e.len ∧ sum = true)
    ∧ (let s : State := awaits7 0
     let c : Fin 8 := 7
     let at_ := 0
     let e := slot7
     let x := s.net.lins[c]
     x.slotAt = some at_ ∧ x.table[x.slot]? = some e ∧ x.awaiting = true ∧ at_ + linBitTenths x (340 + 140 * (e.len + 1)) ≤ s.clk.now)
    ∧ (let s : State := awaits7 4999990000
     let c : Fin 8 := 7
     let at_ := 4999990000
     let e := slot7
     let x := s.net.lins[c]
     x.slotAt = some at_ ∧ x.table[x.slot]? = some e ∧ (x.awaiting = false ∨ s.clk.now < at_ + linBitTenths x (340 + 140 * (e.len + 1))))
    ∧ (let s : State := forwards 4999950000
     let h : Fin 10 := 0
     let q := s.net.fwd[h]
     (domOn 0 s = true ∧ ∃ t0, q.at_ = some t0 ∧ t0 + 50000 ≤ s.clk.now))
    ∧ (let s : State := live
     let h : Fin 10 := 0
     let q := s.net.fwd[h]
     (¬ (domOn 0 s = true ∧ ∃ t0, q.at_ = some t0 ∧ t0 + 50000 ≤ s.clk.now))) := by
  refine ⟨?_, ?_, ?_, ?_, ?_, ?_, ?_, ?_, ?_, ?_, ?_, ?_, ?_, ?_, ?_, ?_, ?_, ?_, ?_, ?_, ?_, ?_, ?_, ?_, ?_, ?_, ?_, ?_, ?_, ?_, ?_, ?_, ?_, ?_, ?_, ?_, ?_⟩ <;> decide +kernel

theorem witness_NetRows_destinations :
    (∃ d ∈ [(0x010000000001 : BitVec 48), 0x010000000002], d ≠ Config.endpointMac ∧ groupMac d = true)
    ∧ ∃ d ∈ [(0x020000000002 : BitVec 48), 0x020000000003], d ≠ Config.endpointMac ∧ groupMac d = false := by
  constructor
  · by_cases h : Config.endpointMac = 0x010000000001
    · exact ⟨0x010000000002, by simp, by rw [h]; decide, by decide⟩
    · exact ⟨0x010000000001, by simp, fun e => h e.symm, by decide⟩
  · by_cases h : Config.endpointMac = 0x020000000002
    · exact ⟨0x020000000003, by simp, by rw [h]; decide, by decide⟩
    · exact ⟨0x020000000002, by simp, fun e => h e.symm, by decide⟩

/-- A frame for the endpoint, whose address is an individual one, at a port that passes frames. -/
theorem witness_NetRows_endpoint :
    let s := live
    let port : Fin 3 := 1
    let p : Fin 2 := Fin.ofNat 2 port.val
    let f := ethFrame Config.endpointMac
    let cfg := s.net.eth[p].cfg
    (switchOn s = true ∧ (port.val < 2 → portPasses p s = true)) ∧ (64 ≤ 64 ∧ 64 ≤ 1522) ∧ ¬ (f.dst = timeMac ∨ reservedMac f.dst = true)
      ∧ (decide (port.val < 2) && cfg.getLsbD 29) = false ∧ port.val < 2 ∧ f.dst = Config.endpointMac ∧ (0 : BitVec 3).getLsbD 2 = false := by
  have h : Config.endpointMac.getLsbD 40 = false := by simp [Config.endpointMac]
  refine ⟨by decide +kernel, by decide, ?_, by decide +kernel, by decide, rfl, by decide⟩
  show ¬ (Config.endpointMac = timeMac ∨ reservedMac Config.endpointMac = true)
  rintro (e | e)
  · rw [e] at h; revert h; decide
  · have : (Config.endpointMac >>> 4).getLsbD 36 = true := by rw [eq_of_beq e]; decide
    rw [BitVec.getLsbD_ushiftRight, h] at this; cases this

end ForNetRows

namespace ForZoneAndWallTime

def up0 (f : EthPort → EthPort := id) (s : State := live) : State := { s with net := { s.net with eth := s.net.eth.set 0 (f { s.net.eth[0] with link := 2 }) } }
def up1 (s : State := live) : State := { s with net := { s.net with eth := s.net.eth.set 1 { s.net.eth[1] with link := 2 } } }
def zoned (st : SyncState) (t : Nat) (s : State := live) : State := { s with zone := { s.zone with state := st, time := t, lastSync := some 4999000000 } }
def follower : State := { live with boot := { live.boot with member := 1 }, trl := { live.trl with present := 1 } }

theorem witness_ZoneAndWallTime :
    (let p : Packet := pk []
     let s : State := { live with zone := { live.zone with cfg := 0 } }
     let b := p.payload
     let cfg := s.zone.cfg
     b = [] ∧ AtHead 0x0B00 .chip [0] p s ∧ upstreamPort cfg = none)
    ∧ (let p : Packet := pk (zw 4 [(0, 72), (1, 2), (2, 2), (3, 64)])
     let s : State := live
     let b := p.payload
     let w := wordAt b 0
     b.length = 4 ∧ onlyBits 3 0xE0 b = true ∧ AtHead 0x0B01 .chip [0] p s ∧ timeConfigOk w = true)
    ∧ (let p : Packet := pk (zw 4 [(0, 40)])
     let s : State := live
     let b := p.payload
     let w := wordAt b 0
     b.length = 4 ∧ onlyBits 3 0xE0 b = true ∧ AtHead 0x0B01 .chip [0] p s ∧ (timeConfigOk w = false ∨ (portRole 0 w = 1 ∧ portRole 1 w
         = 1)))
    ∧ (let p : Packet := pka (zw 12 [(8, 2)])
     let s : State := live
     let b := p.payload
     b.length = 12 ∧ zeroAt [9, 10, 11] b = true ∧ AtHead 0x0B02 .chip [0] p s ∧ 1 < (byteAt b 8).toNat)
    ∧ (let p : Packet := pka (zs 12)
     let s : State := zoned .locked 0
     let b := p.payload
     b.length = 12 ∧ zeroAt [9, 10, 11] b = true ∧ AtHead 0x0B02 .chip [0] p s ∧ (byteAt b 8).toNat ≤ 1 ∧ ((s.zone.state = .locking ∨
         s.zone.state = .locked) ∨ followsLead s = true))
    ∧ (let p : Packet := pka (zs 12)
     let s : State := live
     let b := p.payload
     b.length = 12 ∧ zeroAt [9, 10, 11] b = true ∧ AtHead 0x0B02 .chip [0] p s ∧ (byteAt b 8).toNat ≤ 1 ∧ (¬ (s.zone.state = .locking ∨
         s.zone.state = .locked)) ∧ followsLead s = false)
    ∧ (let p : Packet := pka (zs 8)
     let s : State := follower
     let b := p.payload
     b.length = 8 ∧ zeroAt [4, 5, 6, 7] b = true ∧ AtHead 0x0B03 .chip [0] p s ∧ followsLead s = true)
    ∧ (let p : Packet := pka (zs 8)
     let s : State := live
     let b := p.payload
     b.length = 8 ∧ zeroAt [4, 5, 6, 7] b = true ∧ AtHead 0x0B03 .chip [0] p s ∧ followsLead s = false)
    ∧ (let s : State := up0
     let n : Fin 2 := 0
     let cfg := s.zone.cfg
     let runs := portTimeRuns n s
     runs = true ∧ portRole n cfg ≠ 0)
    ∧ (let s : State := live
     let n : Fin 2 := 0
     let cfg := s.zone.cfg
     let runs := portTimeRuns n s
     (runs = false ∨ portRole n cfg = 0))
    ∧ (let s : State := up0
     let n : Fin 2 := 0
     let one : Bool := true
     let cfg := s.zone.cfg
     let runs := portTimeRuns n s
     runs = true ∧ portRole n cfg = 1 ∧ one = true)
    ∧ (let s : State := up0 (fun x => { x with asCap := true }) (zoned .free 0)
     let n : Fin 2 := 0
     let o : Nat := 0
     let corr : Int := (0 : Int)
     let one : Bool := false
     let cfg := s.zone.cfg
     let x := s.net.eth[n]
     let runs := portTimeRuns n s
     let off : Int := s.zone.time - (o + corr + x.delay)
     runs = true ∧ portRole n cfg = 1 ∧ one = false ∧ x.asCap = true ∧ (s.zone.state = .free ∨ fld cfg 17 8 * 10000 < off.natAbs))
    ∧ (let s : State := up0 (fun x => { x with asCap := true }) (zoned .locked 1000000)
     let n : Fin 2 := 0
     let o : Nat := 0
     let corr : Int := (0 : Int)
     let one : Bool := false
     let cfg := s.zone.cfg
     let x := s.net.eth[n]
     let runs := portTimeRuns n s
     let off : Int := s.zone.time - (o + corr + x.delay)
     runs = true ∧ portRole n cfg = 1 ∧ one = false ∧ x.asCap = true ∧ (¬ (s.zone.state = .free ∨ fld cfg 17 8 * 10000 < off.natAbs)))
    ∧ (let s : State := live
     let n : Fin 2 := 0
     let one : Bool := true
     let cfg := s.zone.cfg
     let x := s.net.eth[n]
     let runs := portTimeRuns n s
     (runs = false ∨ portRole n cfg ≠ 1 ∨ (one = false ∧ x.asCap = false)))
    ∧ (let s : State := up1
     let n : Fin 2 := 1
     let cfg := s.zone.cfg
     let runs := portTimeRuns n s
     runs = true ∧ portRole n cfg = 2)
    ∧ (let s : State := live
     let n : Fin 2 := 0
     let cfg := s.zone.cfg
     let runs := portTimeRuns n s
     let due := s.zone.lastSync.getD 0 + fld cfg 5 4 * syncInterval cfg
     (runs = false ∨ portRole n cfg ≠ 2) ∧ upstreamPort cfg = some n ∧ (¬ (s.zone.state = .locking ∨ s.zone.state = .locked) ∨ s.clk.now
         < due))
    ∧ (let s : State := { zoned .locked 0 with clk := { live.clk with now := 5374000000 } }
     let n : Fin 2 := 0
     let cfg := s.zone.cfg
     let due := s.zone.lastSync.getD 0 + fld cfg 5 4 * syncInterval cfg
     upstreamPort cfg = some n ∧ (s.zone.state = .locking ∨ s.zone.state = .locked) ∧ due ≤ s.clk.now) := by
  unfold AtHead; refine ⟨?_, ?_, ?_, ?_, ?_, ?_, ?_, ?_, ?_, ?_, ?_, ?_, ?_, ?_, ?_, ?_, ?_⟩ <;> decide +kernel

end ForZoneAndWallTime

namespace ForDormancyPackets

theorem witness_DormancyPackets :
    (let p : Packet := pk (zw 16 [(0, 128), (3, 1), (4, 128)])
     let s : State := live
     let n : Fin 16 := 15
     let b := p.payload
     let x := s.net.nets[n]
     let w := dormWords n (numAt b 2 2) b x
     let ok := dormOk { x with cfg1 := w.1, cfg2 := w.2.1, cfg3 := w.2.2 }
     b.length = 16 ∧ opDormConfig.resOk b = true ∧ numAt b 0 2 = 2 ^ n.val ∧ AtHead 0x0C00 .chip [] p s ∧ ok = true)
    ∧ (let p : Packet := pk (zw 16 [(0, 128), (3, 4), (4, 0)])
     let s : State := live
     let n : Fin 16 := 15
     let b := p.payload
     let x := s.net.nets[n]
     let w := dormWords n (numAt b 2 2) b x
     let ok := dormOk { x with cfg1 := w.1, cfg2 := w.2.1, cfg3 := w.2.2 }
     b.length = 16 ∧ opDormConfig.resOk b = true ∧ numAt b 0 2 = 2 ^ n.val ∧ AtHead 0x0C00 .chip [] p s ∧ ok = false)
    ∧ (let p : Packet := pk (zw 4 [(0, 128), (2, 2)])
     let s : State := live
     let n : Fin 16 := 15
     let b := p.payload
     b.length = 4 ∧ numAt b 0 2 = 2 ^ n.val ∧ AtHead 0x0C01 (netUnit n) [netDomain n] p s ∧ 1 < (byteAt b 2).toNat)
    ∧ (let p : Packet := { pk (zw 4 [(0, 0x80), (2, 1)]) with host := 13 }
     let s : State := live
     let n : Fin 16 := 15
     let b := p.payload
     b.length = 4 ∧ numAt b 0 2 = 2 ^ n.val ∧ AtHead 0x0C01 (netUnit n) [netDomain n] p s ∧ (byteAt b 2).toNat ≤ 1 ∧ 13 ≤ p.host.val)
    ∧ (let p : Packet := pk (zw 4 [(0, 128), (2, 1), (3, 5)])
     let s : State := live
     let n : Fin 16 := 15
     let h : Fin 13 := 0
     let b := p.payload
     b.length = 4 ∧ numAt b 0 2 = 2 ^ n.val ∧ AtHead 0x0C01 (netUnit n) [netDomain n] p s ∧ p.host.val = h.val ∧ byteAt b 2 = 1)
    ∧ (let p : Packet := pk (zw 4 [(0, 128)])
     let s : State := live
     let n : Fin 16 := 15
     let h : Fin 13 := 0
     let b := p.payload
     b.length = 4 ∧ numAt b 0 2 = 2 ^ n.val ∧ AtHead 0x0C01 (netUnit n) [netDomain n] p s ∧ p.host.val = h.val ∧ byteAt b 2 = 0)
    ∧ (let p : Packet := pk (zs 4)
     let s : State := live
     let b := p.payload
     b.length = 4 ∧ opDormKeep.resOk b = true ∧ AtHead 0x0C02 .chip [] p s)
    ∧ (let p : Packet := pk (zw 20 [(0, 5), (1, 136)])
     let s : State := live
     let b := p.payload
     let b1 := (byteAt b 1).toNat
     b.length = 20 ∧ opDormWuf.resOk b = true ∧ AtHead 0x0C03 .chip [] p s ∧ (byteAt b 0).toNat < 6 ∧ b1 % 16 ≤ 8 ∧ (byteAt b 1).getLsbD
         7 = true)
    ∧ (let p : Packet := pk (zw 20 [(0, 5), (1, 8)])
     let s : State := live
     let b := p.payload
     let b1 := (byteAt b 1).toNat
     b.length = 20 ∧ opDormWuf.resOk b = true ∧ AtHead 0x0C03 .chip [] p s ∧ (byteAt b 0).toNat < 6 ∧ b1 % 16 ≤ 8 ∧ (byteAt b 1).getLsbD
         7 = false)
    ∧ (let p : Packet := pk (zw 20 [(0, 6)])
     let s : State := live
     let b := p.payload
     let b1 := (byteAt b 1).toNat
     b.length = 20 ∧ opDormWuf.resOk b = true ∧ AtHead 0x0C03 .chip [] p s ∧ (6 ≤ (byteAt b 0).toNat ∨ 8 < b1 % 16)) := by
  unfold AtHead; refine ⟨?_, ?_, ?_, ?_, ?_, ?_, ?_, ?_, ?_, ?_⟩ <;> decide +kernel

end ForDormancyPackets

namespace ForDormancyRows

def net (n : Fin 16) (f : NetSt → NetSt) (s : State := live) : State := modNets n f s
def can5 (s : State := live) : State := modCan 5 (fun x => { x with cfg := x.cfg ||| 0x40000000 }) s
def up1 (s : State) : State := { s with net := { s.net with eth := s.net.eth.set 1 { s.net.eth[1] with link := 2 } } }
def leased (t : Nat) : State := { live with net := { live.net with leases := live.net.leases.set 12 (some t) } }

theorem witness_DormancyRows :
    (let n : Fin 16 := 5
     let s : State := net 5 (fun x => { x with st := .need, kaSentAt := 4900000000 }) can5
     let x := s.net.nets[n]
     let now := s.clk.now
     (x.st = .need ∧ x.kaSentAt + kaPeriod x ≤ now) ∧ (¬ (x.st = .idle ∧ x.idleAt + idleTime x ≤ now ∧ x.holdUntil ≤ now)) ∧ (¬ (x.st =
         .prepare ∧ x.stateAt + prepTime x ≤ now ∧ txNeed n s = false)) ∧ (x.st ≠ .transition ∨ now < x.stateAt + 1000000))
    ∧ (let n : Fin 16 := 5
     let s : State := net 5 fun x => { x with st := .idle, idleAt := 3000000000, holdUntil := 5000000000 }
     let x := s.net.nets[n]
     let now := s.clk.now
     (¬ (x.st = .need ∧ x.kaSentAt + kaPeriod x ≤ now)) ∧ (x.st = .idle ∧ x.idleAt + idleTime x ≤ now ∧ x.holdUntil ≤ now))
    ∧ (let n : Fin 16 := 5
     let s : State := net 5 fun x => { x with st := .prepare, stateAt := 4900000000 }
     let x := s.net.nets[n]
     let now := s.clk.now
     (x.st = .prepare ∧ x.stateAt + prepTime x ≤ now ∧ txNeed n s = false) ∧ n.val < 6)
    ∧ (let n : Fin 16 := 13
     let s : State := net 13 fun x => { x with st := .prepare, stateAt := 4900000000 }
     let c : Fin 8 := 7
     let x := s.net.nets[n]
     let now := s.clk.now
     n = linNet c ∧ (x.st = .prepare ∧ x.stateAt + prepTime x ≤ now ∧ txNeed n s = false) ∧ linSlotOver c s = true ∧ (∀ t0, x.linWait =
         some t0 → now < t0))
    ∧ (let n : Fin 16 := 15
     let s : State := up1 (net 15 fun x => { x with st := .prepare, stateAt := 4900000000 })
     let q : Fin 2 := 1
     let x := s.net.nets[n]
     let now := s.clk.now
     n = ethNet q ∧ (x.st = .prepare ∧ x.stateAt + prepTime x ≤ now ∧ txNeed n s = false) ∧ x.tc10 = none ∧ netUp n s = true ∧ (x.st ≠
         .prepare ∨ x.tc10 = none) ∧ s.net.eth[q].link = 2 ∧ (x.st = .idle ∧ x.holdUntil ≤ now ∨ x.st = .prepare))
    ∧ (let n : Fin 16 := 15
     let s : State := net 15 fun x => { x with st := .prepare, tc10 := some 4900000000 }
     let q : Fin 2 := 1
     let x := s.net.nets[n]
     let now := s.clk.now
     n = ethNet q ∧ (x.st = .prepare ∧ x.stateAt + prepTime x ≤ now ∧ txNeed n s = false) ∧ (x.tc10 ≠ none ∨ netUp n s = false) ∧ x.st =
         .prepare ∧ x.tc10 ≠ none ∧ (netUp n s = false ∨ s.net.eth[q].link ≠ 2 ∨ x.st = .asleep))
    ∧ (let n : Fin 16 := 15
     let s : State := net 15 fun x => { x with st := .transition, stateAt := 4999000000 }
     let x := s.net.nets[n]
     let now := s.clk.now
     x.st = .transition ∧ x.stateAt + 1000000 ≤ now ∧ (localNeed n s = false ∨ netUp n s = false))
    ∧ (let n : Fin 16 := 15
     let s : State := net 15 fun x => { x with st := .transition, stateAt := 4999000000, needHosts := 1 }
     let x := s.net.nets[n]
     let now := s.clk.now
     x.st = .transition ∧ x.stateAt + 1000000 ≤ now ∧ localNeed n s = true ∧ netUp n s = true)
    ∧ (let n : Fin 16 := 15
     let s : State := net 15 fun x => { x with st := .prepare, tc10 := some 4900000000 }
     let q : Fin 2 := 1
     let t0 := 4900000000
     let x := s.net.nets[n]
     let now := s.clk.now
     n = ethNet q ∧ x.st = .prepare ∧ x.tc10 = some t0 ∧ t0 + 100000000 ≤ now)
    ∧ (let n : Fin 16 := 15
     let s : State := net 15 fun x => { x with st := .prepare, tc10 := some 4900000001 }
     let q : Fin 2 := 1
     let t0 := 4900000001
     let x := s.net.nets[n]
     let now := s.clk.now
     n = ethNet q ∧ x.st = .prepare ∧ x.tc10 = some t0 ∧ now < t0 + 100000000)
    ∧ (let n : Fin 16 := 15
     let s : State := up1 (net 15 fun x => { x with st := .need })
     let q : Fin 2 := 1
     let x := s.net.nets[n]
     let now := s.clk.now
     n = ethNet q ∧ netUp n s = true ∧ s.net.eth[q].link = 2 ∧ (x.st = .need ∨ x.st = .disabled ∨ (x.st = .idle ∧ now < x.holdUntil) ∨
         x.st = .transition))
    ∧ (let n : Fin 16 := 5
     let s : State := net 5 (fun x => { x with st := .asleep })
         { live with dom := { live.dom with wake := (live.dom.wake.set (wakeSlot 1 5) ⟨true, 1⟩).set (wakeSlot 2 5) ⟨true, 1⟩ } }
     let sel : Bool := false
     (sel = false ∧ ∃ c : Fin 6, n = canNet c ∧ wakeEnabled 1 c.val s = true ∧ wakeEnabled 2 c.val s = true))
    ∧ (let n : Fin 16 := 5
     let s : State := net 5 (fun x => { x with st := .need, kaSentAt := 4900000000 }) can5
     let x := s.net.nets[n]
     netUp n s = true ∧ x.st ≠ .asleep ∧ x.st ≠ .transition)
    ∧ (let n : Fin 16 := 5
     let s : State := net 5 (fun x => { x with st := .asleep })
         { live with dom := { live.dom with wake := (live.dom.wake.set (wakeSlot 1 5) ⟨true, 1⟩).set (wakeSlot 2 5) ⟨true, 1⟩ } }
     let sel : Bool := true
     let x := s.net.nets[n]
     (¬ (sel = false ∧ ∃ c : Fin 6, n = canNet c ∧ wakeEnabled 1 c.val s = true ∧ wakeEnabled 2 c.val s = true)) ∧ netUp n s = true ∧
         (x.st = .asleep ∨ x.st = .transition))
    ∧ (let n : Fin 16 := 15
     let s : State := dst [2] .off (net 15 fun x => { x with st := .disabled })
     let sel : Bool := true
     let x := s.net.nets[n]
     (¬ (sel = false ∧ ∃ c : Fin 6, n = canNet c ∧ wakeEnabled 1 c.val s = true ∧ wakeEnabled 2 c.val s = true)) ∧ netUp n s = false ∧
         x.st = .disabled)
    ∧ (let n : Fin 16 := 15
     let s : State := dst [2] .off (net 15 fun x => { x with st := .need })
     let sel : Bool := true
     let x := s.net.nets[n]
     (¬ (sel = false ∧ ∃ c : Fin 6, n = canNet c ∧ wakeEnabled 1 c.val s = true ∧ wakeEnabled 2 c.val s = true)) ∧ netUp n s = false ∧
         x.st ≠ .disabled)
    ∧ (let n : Fin 16 := 13
     let s : State := net 13 fun x => { x with st := .need, linWait := some 5000000000 }
     let c : Fin 8 := 7
     let t0 := 5000000000
     let x := s.net.nets[n]
     let now := s.clk.now
     n = linNet c ∧ x.linWait = some t0 ∧ t0 ≤ now ∧ ((x.st ≠ .asleep ∧ x.st ≠ .transition) ∨ (x.needHosts = 0 ∧ txNeed n s = false)))
    ∧ (let s : State := leased 5000000000
     let h : Fin 13 := 12
     let t0 := 5000000000
     let now := s.clk.now
     s.net.leases[h] = some t0 ∧ t0 ≤ now)
    ∧ (let s : State := net 5 (fun x => { x with st := .need, kaSentAt := 4900000000 }) can5
     let h : Fin 13 := 12
     let now := s.clk.now
     s.net.leases[h].all (fun t0 => decide (now < t0)) = true) := by
  refine ⟨?_, ?_, ?_, ?_, ?_, ?_, ?_, ?_, ?_, ?_, ?_, ?_, ?_, ?_, ?_, ?_, ?_, ?_, ?_⟩ <;> decide +kernel

end ForDormancyRows

namespace ForAccessPackets

/-- A key of slot 3 that may sign, and D14 ready. -/
def acc (f : AccSt → AccSt) : State := { live with acc := f live.acc }

theorem witness_AccessPackets :
    (let p : Packet := pka (zw 12 [(0, 0x20)])
     let s : State := live
     let b := p.payload
     let l := lfList (BitVec.ofNat 6 (byteAt b 0).toNat)
     b.length = 12 ∧ opChallenge.resOk b = true ∧ l ≠ [] ∧ l.length ≤ 2 ∧ (∀ n ∈ l, AtHead 0x0D00 (.lf n) [13] p s) ∧ numAt b 2 3 < 2 ^
         20 ∧ (exchFree s = true ∧ s.acc.waits = []) ∧ (needRandom s).1 = true)
    ∧ (let p : Packet := pka (zw 12 [(0, 0x20)])
     let s : State :=
         { live with flt := { live.flt with inject := some { checker := 0x18, block := 22, cont := false, target := 0, endAt := 0, armWait := false, armAt := none, fired := 0 } } }
     let b := p.payload
     let l := lfList (BitVec.ofNat 6 (byteAt b 0).toNat)
     b.length = 12 ∧ opChallenge.resOk b = true ∧ l ≠ [] ∧ l.length ≤ 2 ∧ (∀ n ∈ l, AtHead 0x0D00 (.lf n) [13] p s) ∧ numAt b 2 3 < 2 ^
         20 ∧ (exchFree s = true ∧ s.acc.waits = []) ∧ (¬ ((needRandom s).1 = true)))
    ∧ (let p : Packet := pka (zw 12 [(0, 0x20)])
     let s : State := acc fun x => { x with waits := [qp (pk []) .tp] }
     let b := p.payload
     let l := lfList (BitVec.ofNat 6 (byteAt b 0).toNat)
     b.length = 12 ∧ opChallenge.resOk b = true ∧ l ≠ [] ∧ l.length ≤ 2 ∧ (∀ n ∈ l, AtHead 0x0D00 (.lf n) [13] p s) ∧ numAt b 2 3 < 2 ^
         20 ∧ (¬ (exchFree s = true ∧ s.acc.waits = [])))
    ∧ (let p : Packet := pka (zw 12 [(0, 0x20), (2, 0x10)])
     let s : State := live
     let b := p.payload
     let l := lfList (BitVec.ofNat 6 (byteAt b 0).toNat)
     b.length = 12 ∧ opChallenge.resOk b = true ∧ l ≠ [] ∧ l.length ≤ 2 ∧ (∀ n ∈ l, AtHead 0x0D00 (.lf n) [13] p s) ∧ 2 ^ 20 ≤ numAt b 2
         3)
    ∧ (let p : Packet := pka (zs 12)
     let s : State := live
     let b := p.payload
     let l := lfList (BitVec.ofNat 6 (byteAt b 0).toNat)
     b.length = 12 ∧ opChallenge.resOk b = true ∧ (l = [] ∨ 2 < l.length) ∧ AtHead 0x0D00 .chip [13] p s)
    ∧ (let p : Packet := pka (zs 4)
     let s : State := live
     let b := p.payload
     let serial := numAt b 0 3
     b.length = 4 ∧ allZero b = true ∧ AtHead 0x0D01 .tp [13] p s ∧ (needRandom s).1 = true ∧ zeroAt [3] b = true ∧ AtHead 0x0D05 .chip
         [14] p s ∧ cryptoReady s = true ∧ domOn 15 s = true ∧ serial < 2 ^ 20 ∧ AtHead 0x0D06 .chip [14] p s ∧ zeroAt [1, 2, 3] b = true
         ∧ AtHead 0x0D08 .chip [13] p s ∧ byteAt b 0 = 0)
    ∧ (let p : Packet := pka (zs 4)
     let s : State :=
         { live with flt := { live.flt with inject := some { checker := 0x18, block := 22, cont := false, target := 0, endAt := 0, armWait := false, armAt := none, fired := 0 } } }
     let b := p.payload
     b.length = 4 ∧ allZero b = true ∧ AtHead 0x0D01 .tp [13] p s ∧ (¬ ((needRandom s).1 = true)))
    ∧ (let p : Packet := pka (zw 12 [(0, 0x20)])
     let s : State := live
     let n : Fin 6 := 5
     let b := p.payload
     let w := (byteAt b 1).toNat
     let c1 := merge s.acc.lf[n].cfg (wordAt b 4) (maskOf w [(0, 28, 4), (1, 27, 1)])
     let c3 := merge s.acc.cfg (wordAt b 8) (maskOf w [(2, 16, 16), (3, 11, 5), (4, 5, 6), (5, 3, 2), (6, 2, 1)])
     b.length = 12 ∧ opAccessConfig.resOk b = true ∧ (byteAt b 0).toNat = 2 ^ n.val ∧ AtHead 0x0D02 (.lf n) [13] p s ∧ (1 ≤ fld c1 28 4
         ∧ 1 ≤ fld c3 11 5 ∧ fld c3 11 5 ≤ 20 ∧ 1 ≤ fld c3 5 6))
    ∧ (let p : Packet := pka (zw 12 [(0, 0x20), (1, 1)])
     let s : State := live
     let n : Fin 6 := 5
     let b := p.payload
     let w := (byteAt b 1).toNat
     let c1 := merge s.acc.lf[n].cfg (wordAt b 4) (maskOf w [(0, 28, 4), (1, 27, 1)])
     let c3 := merge s.acc.cfg (wordAt b 8) (maskOf w [(2, 16, 16), (3, 11, 5), (4, 5, 6), (5, 3, 2), (6, 2, 1)])
     b.length = 12 ∧ opAccessConfig.resOk b = true ∧ (byteAt b 0).toNat = 2 ^ n.val ∧ AtHead 0x0D02 (.lf n) [13] p s ∧ (¬ (1 ≤ fld c1 28
         4 ∧ 1 ≤ fld c3 11 5 ∧ fld c3 11 5 ≤ 20 ∧ 1 ≤ fld c3 5 6)))
    ∧ (let p : Packet := pka (zw 72 [(0, 0x10)])
     let s : State := live
     let b := p.payload
     let serial := numAt b 0 3
     b.length = 72 ∧ opTokenEnrol.resOk b = true ∧ AtHead 0x0D03 .chip [14] p s ∧ cryptoReady s = true ∧ domOn 15 s = true ∧ 2 ^ 20 ≤
         serial)
    ∧ (let p : Packet := pka (zs 72)
     let s : State := live
     let c := (0x0D43 : Half)
     let b := p.payload
     let serial := numAt b 0 3
     b.length = 72 ∧ opTokenEnrol.resOk b = true ∧ AtHead 0x0D03 .chip [14] p s ∧ cryptoReady s = true ∧ domOn 15 s = true ∧ serial < 2
         ^ 20 ∧ enrolCheck serial (b.drop 8) s = .inl c)
    ∧ (let p : Packet := pka (zw 68 [(0, 0x10)])
     let s : State := live
     let b := p.payload
     let serial := numAt b 0 3
     b.length = 68 ∧ zeroAt [3] b = true ∧ AtHead 0x0D04 .chip [14] p s ∧ cryptoReady s = true ∧ 2 ^ 20 ≤ serial)
    ∧ (let p : Packet := pka (zs 68)
     let s : State := live
     let c := (0x0D43 : Half)
     let b := p.payload
     let serial := numAt b 0 3
     b.length = 68 ∧ zeroAt [3] b = true ∧ AtHead 0x0D04 .chip [14] p s ∧ cryptoReady s = true ∧ serial < 2 ^ 20 ∧ enrolCheck serial
         (b.drop 4) s = .inl c)
    ∧ (let p : Packet := pka [0x10, 0, 0, 0]
     let s : State := live
     let b := p.payload
     let serial := numAt b 0 3
     b.length = 4 ∧ zeroAt [3] b = true ∧ AtHead 0x0D05 .chip [14] p s ∧ cryptoReady s = true ∧ domOn 15 s = true ∧ 2 ^ 20 ≤ serial ∧
         AtHead 0x0D06 .chip [14] p s ∧ zeroAt [1, 2, 3] b = true ∧ AtHead 0x0D08 .chip [13] p s ∧ 1 < (byteAt b 0).toNat)
    ∧ (let p : Packet := pka (zw 16 [(3, 1), (11, 0)])
     let s : State := live
     let b := p.payload
     let serial := numAt b 0 3
     let v := (byteAt b 3).toNat
     let m := numAt b 4 8
     b.length = 16 ∧ zeroAt [14, 15] b = true ∧ AtHead 0x0D07 .chip [14] p s ∧ (serial < 2 ^ 20 ∧ (v = 1 ∨ v = 2)) ∧ (m ≤ s.zone.time +
         1000000 ∧ s.zone.time ≤ m + 10000000000))
    ∧ (let p : Packet := pka (zw 16 [(3, 1), (7, 1)])
     let s : State := live
     let b := p.payload
     let serial := numAt b 0 3
     let v := (byteAt b 3).toNat
     let m := numAt b 4 8
     b.length = 16 ∧ zeroAt [14, 15] b = true ∧ AtHead 0x0D07 .chip [14] p s ∧ (serial < 2 ^ 20 ∧ (v = 1 ∨ v = 2)) ∧ (¬ (m ≤ s.zone.time
         + 1000000 ∧ s.zone.time ≤ m + 10000000000)))
    ∧ (let p : Packet := pka (zw 16 [(3, 3)])
     let s : State := live
     let b := p.payload
     let serial := numAt b 0 3
     let v := (byteAt b 3).toNat
     b.length = 16 ∧ zeroAt [14, 15] b = true ∧ AtHead 0x0D07 .chip [14] p s ∧ (¬ (serial < 2 ^ 20 ∧ (v = 1 ∨ v = 2))))
    ∧ (let p : Packet := pka [1, 0, 0, 0]
     let s : State := live
     let b := p.payload
     b.length = 4 ∧ zeroAt [1, 2, 3] b = true ∧ AtHead 0x0D08 .chip [13] p s ∧ byteAt b 0 = 1) := by
  unfold AtHead; refine ⟨?_, ?_, ?_, ?_, ?_, ?_, ?_, ?_, ?_, ?_, ?_, ?_, ?_, ?_, ?_, ?_, ?_, ?_⟩ <;>
    first | decide +kernel | (dsimp only; and_intros <;> decide +kernel)

end ForAccessPackets

namespace ForAccessRows

def acc (f : AccSt → AccSt) (s : State := live) : State := { s with acc := f s.acc }
def pollsOn (f : AccSt → AccSt := id) : State := acc fun x => f { x with cfg := x.cfg ||| 4 }
/-- An exchange for serial 5 in its response window. -/
def exch (f : Exch → Exch := id) : Exch := f { q := qp (pka []) (.lf 0), drivers := 1, serial := 5, mask := 0xFFFFF, phase := 1, attempt := 1, rd := zs 8, seed := 1, seeds := [], firstAt := 4970000000, frameAt := 4970000000, frameZone := 0, garbled := 0, garbledAll := 0, responses := 0, released := none, confAt := 0, held := [], dead := false }
def rel : Release := ⟨5, 7, zs 16, zs 8⟩
def confirming (t : Nat) : Exch := exch fun e => { e with released := some rel, phase := 3, confAt := t }
def exchanging (e : Exch) (s : State := live) : State := acc (fun x => { x with exch := some e, cache := [⟨5, zs 16, 0⟩] }) s
/-- A response in slot 7 of serial 5 with CRC; with its right MAC, and with a wrong one. -/
def response (ser : Nat) : List Byte :=
  let head := be 3 (7 * 2 ^ 21 + ser) ++ zs 8
  let mac := (Crypto.cmac (zs 16) ([0x10] ++ be 2 (vehicleId live) ++ zs 8 ++ be 3 ser ++ be 1 7 ++ zs 8)).take 4
  head ++ mac ++ be 2 (crc16 (head ++ mac)).toNat
def tpEx (t : Nat) : TpEx := ⟨qp (pka []) .tp, zs 8, t, none, false⟩
def tpOn (t : Nat) : State := acc fun x => { x with tp := some (tpEx t), cache := [⟨5, zs 16, 0⟩] }
def uplink : List Byte :=
  let mac := (Crypto.cmac (zs 16) ([0x30] ++ be 2 (vehicleId live) ++ zs 8 ++ be 3 5)).take 6
  let head := be 3 (3 * 2 ^ 20 + 5) ++ mac
  head ++ be 2 (crc16 head).toNat
def badMac (n m : Nat) (b : List Byte) : List Byte := let h := (b.take n).set m (~~~ byteAt b m); h ++ be 2 (crc16 h).toNat
/-- An injected entropy fault (R513). -/
def noRandom (s : State) : State := { s with flt := { s.flt with inject := some { checker := 0x18, block := 22, cont := false, target := 0, endAt := 0, armWait := false, armAt := none, fired := 0 } } }
def forgot (s : State) : State := { s with acc := { s.acc with cache := [] } }

theorem witness_AccessRows :
    (let s : State := pollsOn
     (pollEn s = true ∧ s.acc.stopped = false ∧ s.acc.exch = none ∧ polling s = false ∧ ∀ t0, s.acc.lastPoll = some t0 → t0 + pollPeriod
         s ≤ s.clk.ao) ∧ domOn 13 s = true ∧ (s.acc.stopped = true ∨ s.acc.park < pollDays s * 86400000000000) ∧ s.acc.exch = none)
    ∧ (let s : State := dst [13] .off pollsOn
     (pollEn s = true ∧ s.acc.stopped = false ∧ s.acc.exch = none ∧ polling s = false ∧ ∀ t0, s.acc.lastPoll = some t0 → t0 + pollPeriod
         s ≤ s.clk.ao) ∧ domOn 13 s = false)
    ∧ (let s : State := acc fun x => { x with park := 1209600000000000 }
     (¬ (pollEn s = true ∧ s.acc.stopped = false ∧ s.acc.exch = none ∧ polling s = false ∧ ∀ t0, s.acc.lastPoll = some t0 → t0 +
         pollPeriod s ≤ s.clk.ao)) ∧ s.acc.stopped = false ∧ pollDays s * 86400000000000 ≤ s.acc.park)
    ∧ (let s : State := pollsOn fun x => { x with pollAt := some (5000000000 - tPair) }
     let m : BitVec 6 := (3 : BitVec 6)
     let i := ((lfList m).headD 0)
     let rest := ((lfList m).drop 1)
     lfList m = i :: rest ∧ pollWindow m s = true)
    ∧ (let s : State := live
     let m : BitVec 6 := (0 : BitVec 6)
     (lfList m = [] ∨ pollWindow m s = false))
    ∧ (let s : State := live
     s.acc.exch = none)
    ∧ (let s : State := exchanging (exch fun e => { e with frameAt := 4999000000 })
     let e := (exch fun e => { e with frameAt := 4999000000 })
     let now := s.clk.now
     let open_ := e.frameAt + 19300000
     let end_ := open_ + 16000000
     s.acc.exch = some e ∧ (¬ (e.phase = 1 ∧ open_ ≤ now ∧ now ≤ end_)))
    ∧ (let s : State := dst [14] .off (exchanging exch)
     let e := exch
     let b : List Byte := response 5
     let now := s.clk.now
     let open_ := e.frameAt + 19300000
     let end_ := open_ + 16000000
     let ser : BitVec 20 := BitVec.ofNat 20 (numAt b 0 3)
     s.acc.exch = some e ∧ (e.phase = 1 ∧ open_ ≤ now ∧ now ≤ end_) ∧ checkReady ser s = false ∧ e.held = [])
    ∧ (let s : State := exchanging exch
     let e := exch
     let slot : Fin 8 := 7
     let b : List Byte := zs 17
     let now := s.clk.now
     let open_ := e.frameAt + 19300000
     let end_ := open_ + 16000000
     let ser : BitVec 20 := BitVec.ofNat 20 (numAt b 0 3)
     s.acc.exch = some e ∧ (e.phase = 1 ∧ open_ ≤ now ∧ now ≤ end_) ∧ (checkReady ser s = true ∧ e.held = []) ∧ responseOk slot.val b =
         false ∧ e.garbled.getLsbD slot.val = false)
    ∧ (let s : State := exchanging (exch fun e => { e with garbled := 0x80 })
     let e := (exch fun e => { e with garbled := 0x80 })
     let slot : Fin 8 := 7
     let b : List Byte := zs 17
     let now := s.clk.now
     let open_ := e.frameAt + 19300000
     let end_ := open_ + 16000000
     let ser : BitVec 20 := BitVec.ofNat 20 (numAt b 0 3)
     s.acc.exch = some e ∧ (e.phase = 1 ∧ open_ ≤ now ∧ now ≤ end_) ∧ (checkReady ser s = true ∧ e.held = []) ∧ responseOk slot.val b =
         false ∧ e.garbled.getLsbD slot.val = true)
    ∧ (let s : State := exchanging exch
     let e := exch
     let slot : Fin 8 := 7
     let b : List Byte := response 6
     let now := s.clk.now
     let open_ := e.frameAt + 19300000
     let end_ := open_ + 16000000
     let ser : BitVec 20 := BitVec.ofNat 20 (numAt b 0 3)
     s.acc.exch = some e ∧ (e.phase = 1 ∧ open_ ≤ now ∧ now ≤ end_) ∧ (checkReady ser s = true ∧ e.held = []) ∧ responseOk slot.val b =
         true ∧ (¬ ((ser &&& e.mask) = (e.serial &&& e.mask))))
    ∧ (let s : State := { exchanging exch with ks := { live.ks with revoked := [5] } }
     let e := exch
     let slot : Fin 8 := 7
     let b : List Byte := response 5
     let now := s.clk.now
     let open_ := e.frameAt + 19300000
     let end_ := open_ + 16000000
     let ser : BitVec 20 := BitVec.ofNat 20 (numAt b 0 3)
     s.acc.exch = some e ∧ (e.phase = 1 ∧ open_ ≤ now ∧ now ≤ end_) ∧ (checkReady ser s = true ∧ e.held = []) ∧ responseOk slot.val b =
         true ∧ (ser &&& e.mask) = (e.serial &&& e.mask) ∧ isRevoked ser.toNat s = true)
    ∧ (let s : State := forgot (exchanging exch)
     let e := exch
     let slot : Fin 8 := 7
     let b : List Byte := response 5
     let now := s.clk.now
     let open_ := e.frameAt + 19300000
     let end_ := open_ + 16000000
     let ser : BitVec 20 := BitVec.ofNat 20 (numAt b 0 3)
     s.acc.exch = some e ∧ (e.phase = 1 ∧ open_ ≤ now ∧ now ≤ end_) ∧ (checkReady ser s = true ∧ e.held = []) ∧ responseOk slot.val b =
         true ∧ (ser &&& e.mask) = (e.serial &&& e.mask) ∧ isRevoked ser.toNat s = false ∧ (findKey ser s = .unknown ∨ findKey ser s =
         .orphaned))
    ∧ (let s : State := exchanging exch
     let e := exch
     let slot : Fin 8 := 7
     let b : List Byte := badMac 15 11 (response 5)
     let key := zs 16
     let shelf := false
     let now := s.clk.now
     let open_ := e.frameAt + 19300000
     let end_ := open_ + 16000000
     let ser : BitVec 20 := BitVec.ofNat 20 (numAt b 0 3)
     let message := [0x10] ++ be 2 (vehicleId s) ++ e.rd ++ be 3 ser.toNat ++ be 1 slot.val ++ slice b 3 8
     s.acc.exch = some e ∧ (e.phase = 1 ∧ open_ ≤ now ∧ now ≤ end_) ∧ (checkReady ser s = true ∧ e.held = []) ∧ responseOk slot.val b =
         true ∧ (ser &&& e.mask) = (e.serial &&& e.mask) ∧ isRevoked ser.toNat s = false ∧ findKey ser s = .key key shelf ∧ (Crypto.cmac
         key message).take 4 ≠ slice b 11 4)
    ∧ (let s : State := exchanging (exch fun e => { e with frameAt := 4964700000, released := some rel })
     let e := (exch fun e => { e with frameAt := 4964700000, released := some rel })
     let slot : Fin 8 := 7
     let b : List Byte := response 5
     let key := zs 16
     let shelf := false
     let now := s.clk.now
     let open_ := e.frameAt + 19300000
     let end_ := open_ + 16000000
     let ser : BitVec 20 := BitVec.ofNat 20 (numAt b 0 3)
     let message := [0x10] ++ be 2 (vehicleId s) ++ e.rd ++ be 3 ser.toNat ++ be 1 slot.val ++ slice b 3 8
     s.acc.exch = some e ∧ (e.phase = 1 ∧ open_ ≤ now ∧ now ≤ end_) ∧ (checkReady ser s = true ∧ e.held = []) ∧ responseOk slot.val b =
         true ∧ (ser &&& e.mask) = (e.serial &&& e.mask) ∧ isRevoked ser.toNat s = false ∧ findKey ser s = .key key shelf ∧ (Crypto.cmac
         key message).take 4 = slice b 11 4 ∧ e.released ≠ none)
    ∧ (let s : State := exchanging exch
     let e := exch
     let slot : Fin 8 := 7
     let b : List Byte := response 5
     let key := zs 16
     let shelf := false
     let now := s.clk.now
     let open_ := e.frameAt + 19300000
     let end_ := open_ + 16000000
     let ser : BitVec 20 := BitVec.ofNat 20 (numAt b 0 3)
     let message := [0x10] ++ be 2 (vehicleId s) ++ e.rd ++ be 3 ser.toNat ++ be 1 slot.val ++ slice b 3 8
     s.acc.exch = some e ∧ (e.phase = 1 ∧ open_ ≤ now ∧ now ≤ end_) ∧ (checkReady ser s = true ∧ e.held = []) ∧ responseOk slot.val b =
         true ∧ (ser &&& e.mask) = (e.serial &&& e.mask) ∧ isRevoked ser.toNat s = false ∧ findKey ser s = .key key shelf ∧ (Crypto.cmac
         key message).take 4 = slice b 11 4 ∧ e.released = none)
    ∧ (let s : State := exchanging exch
     let e := exch
     let slot : Fin 8 := 7
     let b : List Byte := response 5
     let key : List Byte := zs 16
     let rt : List Byte := zs 8
     let now := s.clk.now
     let open_ := e.frameAt + 19300000
     let end_ := open_ + 16000000
     let ser : BitVec 20 := BitVec.ofNat 20 (numAt b 0 3)
     let head := be 3 (slot.val * 2 ^ 21 + ser.toNat) ++ rt
     let mac := (Crypto.cmac key ([0x10] ++ be 2 (vehicleId s) ++ e.rd ++ be 3 ser.toNat ++ be 1 slot.val ++ rt)).take 4
     s.acc.exch = some e ∧ (e.phase = 1 ∧ open_ ≤ now ∧ now ≤ end_) ∧ (checkReady ser s = true ∧ e.held = []) ∧ cached ser s = some key
         ∧ isRevoked ser.toNat s = false ∧ (ser &&& e.mask) = (e.serial &&& e.mask) ∧ e.released = none ∧ rt.length = 8 ∧ key.length = 16
         ∧ b = head ++ mac ++ be 2 (crc16 (head ++ mac)).toNat)
    ∧ (let s : State := exchanging (exch fun e => { e with frameAt := 4964700000, released := some rel })
     let e := (exch fun e => { e with frameAt := 4964700000, released := some rel })
     let r := rel
     let now := s.clk.now
     let open_ := e.frameAt + 19300000
     let end_ := open_ + 16000000
     s.acc.exch = some e ∧ e.released = some r ∧ e.phase = 1 ∧ end_ ≤ now ∧ e.held = [])
    ∧ (let s : State := exchanging (exch fun e => { e with frameAt := 4964700000 })
     let e := (exch fun e => { e with frameAt := 4964700000 })
     let now := s.clk.now
     let open_ := e.frameAt + 19300000
     let end_ := open_ + 16000000
     s.acc.exch = some e ∧ e.released = none ∧ e.phase = 1 ∧ end_ ≤ now ∧ e.held = [] ∧ (e.garbled = 0 ∨ pollRetries s ≤ e.attempt) ∧
         (e.released = none ∨ e.phase ≠ 3 ∨ now < e.confAt + 15000000))
    ∧ (let s : State := exchanging (exch fun e => { e with frameAt := 4964700000, garbled := 1 })
     let e := (exch fun e => { e with frameAt := 4964700000, garbled := 1 })
     let now := s.clk.now
     let open_ := e.frameAt + 19300000
     let end_ := open_ + 16000000
     s.acc.exch = some e ∧ e.released = none ∧ e.phase = 1 ∧ end_ ≤ now ∧ e.held = [] ∧ e.garbled ≠ 0 ∧ e.attempt < pollRetries s ∧
         (needRandom s).1 = true ∧ e.seeds.length < 16)
    ∧ (let s : State := noRandom (exchanging (exch fun e => { e with frameAt := 4964700000, garbled := 1 }))
     let e := (exch fun e => { e with frameAt := 4964700000, garbled := 1 })
     let now := s.clk.now
     let open_ := e.frameAt + 19300000
     let end_ := open_ + 16000000
     s.acc.exch = some e ∧ e.released = none ∧ e.phase = 1 ∧ end_ ≤ now ∧ e.held = [] ∧ e.garbled ≠ 0 ∧ e.attempt < pollRetries s ∧ (¬
         ((needRandom s).1 = true)))
    ∧ (let s : State := exchanging exch
     let e := exch
     let now := s.clk.now
     let open_ := e.frameAt + 19300000
     let end_ := open_ + 16000000
     s.acc.exch = some e ∧ (e.phase ≠ 1 ∨ now < end_ ∨ e.held ≠ []))
    ∧ (let s : State := exchanging (confirming 4985000000)
     let e := confirming 4985000000
     let r := rel
     let now := s.clk.now
     s.acc.exch = some e ∧ e.released = some r ∧ e.phase = 3 ∧ e.confAt + 15000000 ≤ now)
    ∧ (let s : State := exchanging (exch fun e => { e with frameAt := 4999000000 })
     let n : Fin 6 := 0
     let short : Bool := true
     let mA : Nat := (lfCur s.acc.lf[n] * 100 + 500)
     let set := lfCur s.acc.lf[n] * 100
     (lfSending n s = true ∧ (if short then set + 500 ≤ mA else 2 * mA < set)))
    ∧ (let s : State := live
     let n : Fin 6 := 0
     let short : Bool := true
     let mA : Nat := (lfCur s.acc.lf[n] * 100 + 500)
     let set := lfCur s.acc.lf[n] * 100
     (¬ (lfSending n s = true ∧ (if short then set + 500 ≤ mA else 2 * mA < set))))
    ∧ (let s : State := live
     s.acc.tp = none)
    ∧ (let s : State := tpOn 4940000001
     let x := tpEx 4940000001
     let now := s.clk.now
     s.acc.tp = some x ∧ (x.answer ≠ none ∨ now < x.startAt + 60000000))
    ∧ (let s : State := tpOn 4940000000
     let ans : Option (List Byte) := (none : Option (List Byte))
     let x := tpEx 4940000000
     let now := s.clk.now
     s.acc.tp = some x ∧ x.answer = none ∧ x.startAt + 60000000 ≤ now ∧ ans = none)
    ∧ (let s : State := tpOn 4940000000
     let ans : Option (List Byte) := some (zs 11)
     let x := tpEx 4940000000
     let b := zs 11
     let now := s.clk.now
     s.acc.tp = some x ∧ x.answer = none ∧ x.startAt + 60000000 ≤ now ∧ ans = some b ∧ uplinkOk b = false)
    ∧ (let s : State := dst [14] .off (tpOn 4940000000)
     let ans : Option (List Byte) := some uplink
     let x := tpEx 4940000000
     let b := uplink
     let now := s.clk.now
     let ser : BitVec 20 := BitVec.ofNat 20 (numAt b 0 3)
     s.acc.tp = some x ∧ x.answer = none ∧ x.startAt + 60000000 ≤ now ∧ ans = some b ∧ uplinkOk b = true ∧ checkReady ser s = false)
    ∧ (let s : State := { tpOn 4940000000 with ks := { live.ks with revoked := [5] } }
     let ans : Option (List Byte) := some uplink
     let x := tpEx 4940000000
     let b := uplink
     let now := s.clk.now
     let ser : BitVec 20 := BitVec.ofNat 20 (numAt b 0 3)
     s.acc.tp = some x ∧ x.answer = none ∧ x.startAt + 60000000 ≤ now ∧ ans = some b ∧ uplinkOk b = true ∧ checkReady ser s = true ∧
         isRevoked ser.toNat s = true)
    ∧ (let s : State := forgot (tpOn 4940000000)
     let ans : Option (List Byte) := some uplink
     let x := tpEx 4940000000
     let b := uplink
     let now := s.clk.now
     let ser : BitVec 20 := BitVec.ofNat 20 (numAt b 0 3)
     s.acc.tp = some x ∧ x.answer = none ∧ x.startAt + 60000000 ≤ now ∧ ans = some b ∧ uplinkOk b = true ∧ checkReady ser s = true ∧
         isRevoked ser.toNat s = false ∧ (findKey ser s = .unknown ∨ findKey ser s = .orphaned))
    ∧ (let s : State := tpOn 4940000000
     let ans : Option (List Byte) := some uplink
     let x := tpEx 4940000000
     let b := uplink
     let key := zs 16
     let shelf := false
     let now := s.clk.now
     let ser : BitVec 20 := BitVec.ofNat 20 (numAt b 0 3)
     let mac (key : List Byte) := (Crypto.cmac key ([0x30] ++ be 2 (vehicleId s) ++ x.rd ++ be 3 ser.toNat)).take 6
     s.acc.tp = some x ∧ x.answer = none ∧ x.startAt + 60000000 ≤ now ∧ ans = some b ∧ uplinkOk b = true ∧ checkReady ser s = true ∧
         isRevoked ser.toNat s = false ∧ findKey ser s = .key key shelf ∧ mac key = slice b 3 6)
    ∧ (let s : State := tpOn 4940000000
     let ans : Option (List Byte) := some (badMac 9 3 uplink)
     let x := tpEx 4940000000
     let b := badMac 9 3 uplink
     let key := zs 16
     let shelf := false
     let now := s.clk.now
     let ser : BitVec 20 := BitVec.ofNat 20 (numAt b 0 3)
     let mac (key : List Byte) := (Crypto.cmac key ([0x30] ++ be 2 (vehicleId s) ++ x.rd ++ be 3 ser.toNat)).take 6
     s.acc.tp = some x ∧ x.answer = none ∧ x.startAt + 60000000 ≤ now ∧ ans = some b ∧ uplinkOk b = true ∧ checkReady ser s = true ∧
         isRevoked ser.toNat s = false ∧ findKey ser s = .key key shelf ∧ mac key ≠ slice b 3 6) := by
  refine ⟨?_, ?_, ?_, ?_, ?_, ?_, ?_, ?_, ?_, ?_, ?_, ?_, ?_, ?_, ?_, ?_, ?_, ?_, ?_, ?_, ?_, ?_, ?_, ?_, ?_, ?_, ?_, ?_, ?_, ?_, ?_, ?_, ?_, ?_⟩ <;> decide +kernel

end ForAccessRows

namespace ForKeyStore

def root3 (f : Rootstock → Rootstock) (s : State := live) : State := modRoot 3 f s
def slot63 (f : KeySlot → KeySlot) (s : State := live) : State := { s with ks := { s.ks with slots := s.ks.slots.set 63 (f s.ks.slots[63]) } }
def committing (c : KeyChange) (s : State := live) : State := { s with ks := { s.ks with updates := [(c, qp (pka []) .chip)] } }
def dirtyChan (t : Nat) : State := modChan 31 (fun x => { x with dirty := true, wroteAt := some t }) live

theorem witness_KeyStore :
    (let p : Packet := pka (zw 32 [(0, 32)])
     let s : State :=
         { live with flt := { live.flt with inject := some { checker := 0x18, block := 22, cont := false, target := 0, endAt := 0, armWait := false, armAt := none, fired := 0 } } }
     let b := p.payload
     cryptoReady s = true ∧ b.length = 32 ∧ opRootstockEstablish.resOk b = true ∧ AtHead 0x0E00 .chip [14] p s ∧ (¬ ((needRandom s).1 =
         true)))
    ∧ (let p : Packet := pka (zw 32 [(0, 32)])
     let s : State := live
     let b := p.payload
     let idx := (byteAt b 0).toNat
     let gen := wordAt b 4
     cryptoReady s = true ∧ b.length = 32 ∧ opRootstockEstablish.resOk b = true ∧ AtHead 0x0E00 .chip [14] p s ∧ (needRandom s).1 = true
         ∧ (¬ (idx ≤ 31 ∧ gen ≠ 0 ∧ gen ≠ 0xFFFFFFFF)))
    ∧ (let p : Packet := { pka (zw 32 [(7, 5)]) with host := 12 }
     let s : State := live
     let b := p.payload
     let idx := (byteAt b 0).toNat
     let nonce := be 4 (needRandom s).2.ks.nonce.toNat
     let gen := wordAt b 4
     cryptoReady s = true ∧ b.length = 32 ∧ opRootstockEstablish.resOk b = true ∧ AtHead 0x0E00 .chip [14] p s ∧ (needRandom s).1 = true
         ∧ (idx ≤ 31 ∧ gen ≠ 0 ∧ gen ≠ 0xFFFFFFFF) ∧ (¬ (p.host ≠ 12 ∧ slice b 24 8 = (Crypto.cmac keyKP ([0x50] ++ nonce ++ b.take
         24)).take 8)))
    ∧ (let p : Packet := pka (zw 16 [(0, 3), (7, 5)])
     let s : State :=
         { live with flt := { live.flt with inject := some { checker := 0x18, block := 22, cont := false, target := 0, endAt := 0, armWait := false, armAt := none, fired := 0 } } }
     let b := p.payload
     cryptoReady s = true ∧ b.length = 16 ∧ zeroAt [2, 3] b = true ∧ AtHead 0x0E01 .chip [14] p s ∧ (¬ ((needRandom s).1 = true)))
    ∧ (let p : Packet := pka (zw 16 [(0, 3), (1, 2)])
     let s : State := live
     let b := p.payload
     let idx := (byteAt b 0).toNat
     let pk := (byteAt b 1).toNat
     cryptoReady s = true ∧ b.length = 16 ∧ zeroAt [2, 3] b = true ∧ AtHead 0x0E01 .chip [14] p s ∧ (needRandom s).1 = true ∧ (¬ (idx ≤
         31 ∧ pk ≤ 1)))
    ∧ (let p : Packet := pka (zw 16 [(0, 3), (7, 5)])
     let s : State := live
     let b := p.payload
     let idx := (byteAt b 0).toNat
     let i : Fin 32 := Fin.ofNat 32 idx
     let r := s.ks.roots[i]
     let nonce := be 4 (needRandom s).2.ks.nonce.toNat
     let pk := (byteAt b 1).toNat
     let key := if pk = 1 then keyKP else rootValue i s
     cryptoReady s = true ∧ b.length = 16 ∧ zeroAt [2, 3] b = true ∧ AtHead 0x0E01 .chip [14] p s ∧ (needRandom s).1 = true ∧ (idx ≤ 31
         ∧ pk ≤ 1) ∧ (¬ (p.host ≠ 12 ∧ (pk = 0 → r.st = .established) ∧ slice b 8 8 = (Crypto.cmac key ([0x51] ++ nonce ++ b.take 8)).take
         8)))
    ∧ (let p : Packet := pka (zw 68 [(0, 64)])
     let s : State := live
     let b := p.payload
     let idx := (byteAt b 0).toNat
     cryptoReady s = true ∧ b.length = 68 ∧ zeroAt [1, 2, 3] b = true ∧ AtHead 0x0E02 .chip [14] p s ∧ 63 < idx)
    ∧ (let p : Packet := pka (zw 68 [(0, 63)])
     let s : State := live
     let c := (0x0E41 : Half)
     let b := p.payload
     let idx := (byteAt b 0).toNat
     let k : Fin 64 := Fin.ofNat 64 idx
     cryptoReady s = true ∧ b.length = 68 ∧ zeroAt [1, 2, 3] b = true ∧ AtHead 0x0E02 .chip [14] p s ∧ idx ≤ 63 ∧ slotBlob k (b.drop 4)
         s = .inl c)
    ∧ (let p : Packet := pka (zw 12 [(0, 64)])
     let s : State := live
     let b := p.payload
     let idx := (byteAt b 0).toNat
     cryptoReady s = true ∧ b.length = 12 ∧ zeroAt [1, 2, 3] b = true ∧ AtHead 0x0E03 .chip [14] p s ∧ 63 < idx)
    ∧ (let p : Packet := pka (zw 12 [(0, 63)])
     let s : State := live
     let b := p.payload
     let idx := (byteAt b 0).toNat
     let k : Fin 64 := Fin.ofNat 64 idx
     let x := s.ks.slots[k]
     cryptoReady s = true ∧ b.length = 12 ∧ zeroAt [1, 2, 3] b = true ∧ AtHead 0x0E03 .chip [14] p s ∧ idx ≤ 63 ∧ x.st = .empty)
    ∧ (let p : Packet := pka (zw 12 [(0, 63)])
     let s : State := slot63 fun x => { x with st := .orphaned, parent := 9 }
     let b := p.payload
     let idx := (byteAt b 0).toNat
     let k : Fin 64 := Fin.ofNat 64 idx
     let x := s.ks.slots[k]
     let j : Fin 32 := Fin.ofNat 32 x.parent
     cryptoReady s = true ∧ b.length = 12 ∧ zeroAt [1, 2, 3] b = true ∧ AtHead 0x0E03 .chip [14] p s ∧ idx ≤ 63 ∧ x.st ≠ .empty ∧ (¬
         (s.ks.roots[j].st = .established ∧ slice b 4 8 = (Crypto.cmac (rootValue j s) ([0x52] ++ be 1 k.val ++ be 4
         x.version.toNat)).take 8)))
    ∧ (let p : Packet := pka (zw 20 [(0, 64)])
     let s : State := live
     let b := p.payload
     let idx := (byteAt b 0).toNat
     cryptoReady s = true ∧ b.length = 20 ∧ zeroAt [1, 2, 3] b = true ∧ AtHead 0x0E04 .chip [14] p s ∧ 63 < idx)
    ∧ (let p : Packet := pka (zw 20 [(0, 63)])
     let s : State := slot63 fun x => { x with st := .orphaned, parent := 9 }
     let b := p.payload
     let idx := (byteAt b 0).toNat
     let x := s.ks.slots[(Fin.ofNat 64 idx : Fin 64)]
     cryptoReady s = true ∧ b.length = 20 ∧ zeroAt [1, 2, 3] b = true ∧ AtHead 0x0E04 .chip [14] p s ∧ idx ≤ 63 ∧ x.st = .orphaned)
    ∧ (let p : Packet := pka (zw 20 [(0, 63)])
     let s : State := live
     let b := p.payload
     let idx := (byteAt b 0).toNat
     let x := s.ks.slots[(Fin.ofNat 64 idx : Fin 64)]
     cryptoReady s = true ∧ b.length = 20 ∧ zeroAt [1, 2, 3] b = true ∧ AtHead 0x0E04 .chip [14] p s ∧ idx ≤ 63 ∧ (x.st = .empty ∨ x.st
         = .loaded ∧ x.attr.getLsbD 2 = false))
    ∧ (let p : Packet := pka (zw 20 [(0, 63)])
     let s : State := slot63 fun x => { x with st := .loaded, attr := 4 }
     let b := p.payload
     let idx := (byteAt b 0).toNat
     let x := s.ks.slots[(Fin.ofNat 64 idx : Fin 64)]
     cryptoReady s = true ∧ b.length = 20 ∧ zeroAt [1, 2, 3] b = true ∧ AtHead 0x0E04 .chip [14] p s ∧ idx ≤ 63 ∧ x.st = .loaded ∧
         x.attr.getLsbD 2 = true)
    ∧ (let s : State := live
     s.ks.updates = [])
    ∧ (let s : State := dst [15] .off (committing (.clear 63))
     let c := (KeyChange.clear 63)
     let q := qp (pka []) .chip
     let rest := ([] : List (KeyChange × QPkt))
     s.ks.updates = (c, q) :: rest ∧ domOn 15 s = false)
    ∧ (let s : State := committing (.clear 63)
     let c := (KeyChange.clear 63)
     let q := qp (pka []) .chip
     let rest := ([] : List (KeyChange × QPkt))
     s.ks.updates = (c, q) :: rest ∧ domOn 15 s = true ∧ (s.ks.written = false ∨ s.alm.flush.any (·.powerFail) = true))
    ∧ (let s : State := { committing (.clear 63) with ks := { (committing (.clear 63)).ks with written := true } }
     let c := (KeyChange.clear 63)
     let q := qp (pka []) .chip
     let rest := ([] : List (KeyChange × QPkt))
     s.ks.updates = (c, q) :: rest ∧ domOn 15 s = true ∧ (¬ (s.ks.written = false ∨ s.alm.flush.any (·.powerFail) = true)))
    ∧ (let s : State := { live with ks := { live.ks with reload := true } }
     (s.ks.reload = true ∧ domOn 14 s = true ∧ domOn 15 s = true))
    ∧ (let s : State := live
     (¬ (s.ks.reload = true ∧ domOn 14 s = true ∧ domOn 15 s = true)))
    ∧ (let s : State := dirtyChan 4999000000
     let i : Fin 32 := 31
     let a := s.net.chans[i]
     (a.dirty = true ∧ a.wroteAt.all (fun t0 => decide (t0 + 1000000 ≤ s.clk.now)) = true))
    ∧ (let s : State := live
     let i : Fin 32 := 31
     let a := s.net.chans[i]
     (¬ (a.dirty = true ∧ a.wroteAt.all (fun t0 => decide (t0 + 1000000 ≤ s.clk.now)) = true))) := by
  unfold AtHead; refine ⟨?_, ?_, ?_, ?_, ?_, ?_, ?_, ?_, ?_, ?_, ?_, ?_, ?_, ?_, ?_, ?_, ?_, ?_, ?_, ?_, ?_, ?_, ?_⟩ <;> decide +kernel

end ForKeyStore

namespace ForAlmanac

def alm (f : AlmSt → AlmSt) (s : State := live) : State := modAlm f s
def rec1 : Rec := ⟨1, 0, 0, 0x0201, 0, 1, 0, 0, 0, 0, 0, 0, 0, 0⟩
def flushing : Flush := ⟨false, 1, 0, []⟩
def vault (st : RootState) : State := modRoot 3 (fun x => { x with st := st, role := 2 }) live
def vaultClearing : QPkt := { qp (pka []) .chip with pkt := { pka [] with opcode := 0x0F05 } }

theorem witness_Almanac :
    (let p : Packet := pk (zw 12 [(1, 159), (2, 31)])
     let s : State := live
     let b := p.payload
     let view := (byteAt b 0).toNat
     let idx := (byteAt b 1).toNat
     let count := (byteAt b 2).toNat
     b.length = 12 ∧ zeroAt [3, 8, 9, 10, 11] b = true ∧ AtHead 0x0F00 .chip [15] p s ∧ viewOk view idx count = true)
    ∧ (let p : Packet := pk (zw 12 [(1, 160), (2, 31)])
     let s : State := live
     let b := p.payload
     let view := (byteAt b 0).toNat
     let idx := (byteAt b 1).toNat
     let count := (byteAt b 2).toNat
     b.length = 12 ∧ zeroAt [3, 8, 9, 10, 11] b = true ∧ AtHead 0x0F00 .chip [15] p s ∧ viewOk view idx count = false)
    ∧ (let p : Packet := pk []
     let s : State := live
     let b := p.payload
     b = [] ∧ AtHead 0x0F01 .chip [15] p s)
    ∧ (let p : Packet := pka (zs 4)
     let s : State := live
     let b := p.payload
     b.length = 4 ∧ onlyBits 0 0xE0 b = true ∧ zeroAt [1, 2, 3] b = true ∧ AtHead 0x0F02 .chip [15] p s)
    ∧ (let p : Packet := pka (zw 8 [(0, 2), (1, 1), (3, 255)])
     let s : State := live
     let b := p.payload
     let code := halfAt b 0
     let fam := code.toNat / 256
     let op := (byteAt b 2).toNat
     let burst := (byteAt b 3).toNat
     b.length = 8 ∧ zeroAt [6, 7] b = true ∧ AtHead 0x0F03 .chip [15] p s ∧ (fam ≠ 0x0F ∧ fam ≤ 0x12 ∧ op ≤ 1 ∧ (op = 0 → 1 ≤ burst)) ∧
         op = 0)
    ∧ (let p : Packet := pka (zw 8 [(0, 2), (1, 1), (2, 1)])
     let s : State := live
     let b := p.payload
     let code := halfAt b 0
     let fam := code.toNat / 256
     let op := (byteAt b 2).toNat
     let burst := (byteAt b 3).toNat
     b.length = 8 ∧ zeroAt [6, 7] b = true ∧ AtHead 0x0F03 .chip [15] p s ∧ (fam ≠ 0x0F ∧ fam ≤ 0x12 ∧ op ≤ 1 ∧ (op = 0 → 1 ≤ burst)) ∧
         op = 1)
    ∧ (let p : Packet := pka (zs 8)
     let s : State := live
     let b := p.payload
     let code := halfAt b 0
     let fam := code.toNat / 256
     let op := (byteAt b 2).toNat
     let burst := (byteAt b 3).toNat
     b.length = 8 ∧ zeroAt [6, 7] b = true ∧ AtHead 0x0F03 .chip [15] p s ∧ (¬ (fam ≠ 0x0F ∧ fam ≤ 0x12 ∧ op ≤ 1 ∧ (op = 0 → 1 ≤
         burst))))
    ∧ (let p : Packet := pka (zw 240 [(0, 15)])
     let s : State := live
     let w : Fin 16 := 15
     let b := p.payload
     let list := (List.range 56).map fun i => (halfAt b (16 + 4 * i), halfAt b (18 + 4 * i))
     b.length = 240 ∧ opWatchConfig.resOk b = true ∧ AtHead 0x0F04 .chip [15] p s ∧ (byteAt b 0).toNat = w.val ∧ (∀ e ∈ list, listOk e =
         true))
    ∧ (let p : Packet := pka (zw 240 [(0, 16)])
     let s : State := live
     let b := p.payload
     let list := (List.range 56).map fun i => (halfAt b (16 + 4 * i), halfAt b (18 + 4 * i))
     b.length = 240 ∧ opWatchConfig.resOk b = true ∧ AtHead 0x0F04 .chip [15] p s ∧ (16 ≤ (byteAt b 0).toNat ∨ ∃ e ∈ list, listOk e =
         false))
    ∧ (let p : Packet := pka (zs 16)
     let s : State :=
         { live with flt := { live.flt with inject := some { checker := 0x18, block := 22, cont := false, target := 0, endAt := 0, armWait := false, armAt := none, fired := 0 } } }
     let b := p.payload
     b.length = 16 ∧ zeroAt [4, 5, 6, 7] b = true ∧ AtHead 0x0F05 .chip [15] p s ∧ cryptoReady s = true ∧ (¬ ((needRandom s).1 = true)))
    ∧ (let p : Packet := pka (zs 16)
     let s : State := live
     let b := p.payload
     b.length = 16 ∧ zeroAt [4, 5, 6, 7] b = true ∧ AtHead 0x0F05 .chip [15] p s ∧ cryptoReady s = true ∧ (needRandom s).1 = true ∧
         roleHolder 2 s = none)
    ∧ (let p : Packet := pka (zs 16)
     let s : State := vault .retired
     let i := (3 : Fin 32)
     let b := p.payload
     b.length = 16 ∧ zeroAt [4, 5, 6, 7] b = true ∧ AtHead 0x0F05 .chip [15] p s ∧ cryptoReady s = true ∧ (needRandom s).1 = true ∧
         roleHolder 2 s = some i ∧ (rootstock i s).st ≠ .established)
    ∧ (let s : State := alm fun x => { x with rates := [⟨0x0201, 32, 100, 3, 0, 4900000000⟩] }
     let code : Half := (0x0201 : Half)
     let now := s.clk.now
     let r := rateOf code s
     r.refill ≠ 0 ∧ r.lastAt + r.refill * 1000000 ≤ now)
    ∧ (let s : State := live
     let code : Half := (0x0201 : Half)
     let now := s.clk.now
     let r := rateOf code s
     (r.refill = 0 ∨ now < r.lastAt + r.refill * 1000000))
    ∧ (let s : State := alm fun x => { x with staging := [.record rec1], lastEnd := 4000000000 }
     let now := s.clk.now
     (s.alm.flush = none ∧ s.alm.staging ≠ [] ∧ s.alm.lastEnd + 1000000000 ≤ now) ∧ (s.alm.again = false ∨ (domOn 15 s = true ∧
         s.alm.flush ≠ none)) ∧ s.alm.flush = none ∧ s.alm.brown = none ∧ ((domState 15 s).answer ≠ .on ∨ s.alm.flush ≠ none ∨
         s.alm.writes = []))
    ∧ (let s : State := alm fun x => { x with again := true }
     let now := s.clk.now
     (¬ (s.alm.flush = none ∧ s.alm.staging ≠ [] ∧ s.alm.lastEnd + 1000000000 ≤ now)) ∧ s.alm.again = true ∧ s.alm.flush = none ∧ domOn
         15 s = true)
    ∧ (let s : State := dst [15] .off (alm fun x => { x with again := true })
     s.alm.again = true ∧ domOn 15 s = false)
    ∧ (let s : State := alm fun x => { x with brown := some 2999 }
     s.alm.flush = none ∧ s.alm.brown ≠ none)
    ∧ (let s : State := alm fun x => { x with flush := some flushing, staging := [.record rec1] }
     let f := flushing
     s.alm.flush = some f ∧ s.alm.dropInfo + s.alm.dropWarn + s.alm.dropErr = 0 ∧ f.waits = [] ∧ s.alm.brown = none)
    ∧ (let s : State := alm fun x => { x with brown := some 2999, flush := some flushing, staging := [.record rec1] }
     let f := flushing
     s.alm.flush = some f ∧ s.alm.dropInfo + s.alm.dropWarn + s.alm.dropErr = 0 ∧ f.waits = [] ∧ s.alm.brown ≠ none)
    ∧ (let s : State := alm fun x =>
         { x with flush := some { flushing with waits := [qp (pk [] 0x0F01) .chip] }, staging := [.record rec1] }
     let f := { flushing with waits := [qp (pk [] 0x0F01) .chip] }
     let q := qp (pk [] 0x0F01) .chip
     s.alm.flush = some f ∧ s.alm.dropInfo + s.alm.dropWarn + s.alm.dropErr = 0 ∧ f.waits = [q] ∧ q.pkt.opcode = 0x0F01 ∧ s.alm.brown =
         none)
    ∧ (let s : State := alm fun x => { x with flush := some { flushing with waits := [vaultClearing] }, staging := [.record rec1] }
     let f := { flushing with waits := [vaultClearing] }
     let q := vaultClearing
     s.alm.flush = some f ∧ s.alm.dropInfo + s.alm.dropWarn + s.alm.dropErr = 0 ∧ f.waits = [q] ∧ q.pkt.opcode = 0x0F05 ∧ s.alm.brown =
         none)
    ∧ (let s : State := live
     let mV : Nat := 4999
     mV < 5000 ∧ s.alm.onHold = false ∧ 3 ≤ s.boot.phase ∧ (mV ≤ 5500 ∨ s.alm.onHold = false ∨ s.alm.brown ≠ none))
    ∧ (let s : State := alm fun x => { x with onHold := true }
     let mV : Nat := 5501
     (5000 ≤ mV ∨ s.alm.onHold = true ∨ s.boot.phase < 3) ∧ 5500 < mV ∧ s.alm.onHold = true ∧ s.alm.brown = none)
    ∧ (let s : State := alm fun x => { x with writes := [⟨4, 0, [1], 0, none⟩] }
     (domState 15 s).answer = .on ∧ s.alm.flush = none ∧ s.alm.writes ≠ []) := by
  unfold AtHead; refine ⟨?_, ?_, ?_, ?_, ?_, ?_, ?_, ?_, ?_, ?_, ?_, ?_, ?_, ?_, ?_, ?_, ?_, ?_, ?_, ?_, ?_, ?_, ?_, ?_, ?_⟩ <;>
    first | decide +kernel | (dsimp only; and_intros <;> first | decide +kernel | exact List.all_eq_true.mp (by decide +kernel))

end ForAlmanac

namespace ForTrellis

def member (m : BitVec 2) (s : State := live) : State := { s with boot := { s.boot with member := BitVec.ofNat 2 m.toNat } }
/-- Side `k` up, sequence numbers 4 sent and 7 heard. -/
def up (k : Fin 2) (s : State := live) : State := modSide k (fun x => { x with st := 2, good := 16, txSeq := 4, rxSeq := 7, lastAt := 4999999000, sentAt := 4999999000 }) s
def down (k : Fin 2) (s : State := live) : State := modSide k (fun x => { x with st := 0, good := 0, unack := [], lastAt := 4999999000 }) s
def waitingFrame (t : Nat) (r : Nat) : TrlTx := ⟨3, trlBytes 1 2 0 3 7 false 0 [1], t, r⟩
def paths (l : BitVec 4) (s : State) : State := modTrl (fun x => { x with present := l }) s
def frameTo (type dest src : Nat) (seq : Byte) (host : Nat) (body : List Byte) : List Byte := trlBytes type dest src seq 4 false host body
def request : Packet := { pk (zs 4) 0x0200 with member := 2 }
def tracked (due wake : Option Nat) : TrlReq := ⟨2, 3, request, 0, due, wake, false, false, []⟩
def asking (r : TrlReq) (s : State) : State := modTrl (fun x => { x with reqs := [r] }) s
def replyBytes : List Byte := packetBytes (replyPacket request 0x0001 0 [] 2 none)
def working (t : Nat) (a : Bool) : TrlWork := ⟨0x77, 0x0200, 1, 3, false, a, t⟩
def nap (en : Bool) (s : State) : State := { s with dom := { s.dom with lastWake := { s.dom.lastWake with source := 0 }, wake := s.dom.wake.set (wakeSlot 7 0) { s.dom.wake[wakeSlot 7 0] with enable := en } } }
def timeBody : List Byte := be 8 5000000000 ++ be 4 1234 ++ [3]
def timed (t : Nat) (s : State) : State := modTrl (fun x => { x with timeAt := some t }) s

theorem witness_Trellis :
    (let p : Packet := pk (zw 4 [(0, 4), (1, 0x28)])
     let s : State := member 2
     let b := p.payload
     b.length = 4 ∧ onlyBits 1 0xFC b = true ∧ zeroAt [2, 3] b = true ∧ AtHead 0x1100 .chip [] p s ∧ isLead s = false)
    ∧ (let p : Packet := pk (zw 4 [(1, 0x28)])
     let s : State := live
     let b := p.payload
     let w := wordAt b 0
     b.length = 4 ∧ onlyBits 1 0xFC b = true ∧ zeroAt [2, 3] b = true ∧ AtHead 0x1100 .chip [] p s ∧ isLead s = true ∧ (¬ (fld w 30 2 ≤
         1 ∧ w.getLsbD 26 = true ∧ fld w 18 8 ≠ 0)))
    ∧ (let p : Packet := pk (zw 4 [(0, 4), (1, 0x28)])
     let s : State := live
     let b := p.payload
     let w := wordAt b 0
     b.length = 4 ∧ onlyBits 1 0xFC b = true ∧ zeroAt [2, 3] b = true ∧ AtHead 0x1100 .chip [] p s ∧ isLead s = true ∧ (fld w 30 2 ≤ 1 ∧
         w.getLsbD 26 = true ∧ fld w 18 8 ≠ 0))
    ∧ (let s : State := live
     let k : Fin 2 := 0
     let now := s.clk.now
     let on := trlOn s
     let x := s.trl.sides[k]
     on = true ∧ x.sentAt + 100000 ≤ now ∧ x.unack = [] ∧ (on = false ∨ x.st = 0 ∨ now < x.lastAt + 1000000) ∧ 2 ≤ s.boot.phase ∧
         s.dom.wake[wakeSlot 7 0].enable = false)
    ∧ (let s : State := modSide 0 (fun x => { x with lastAt := 4999000000 }) (up 0)
     let k : Fin 2 := 0
     let now := s.clk.now
     let on := trlOn s
     let x := s.trl.sides[k]
     (on = false ∨ now < x.sentAt + 100000) ∧ on = true ∧ x.st = 2 ∧ x.lastAt + 1000000 ≤ now)
    ∧ (let s : State := modSide 0 (fun x => { x with unack := [waitingFrame 4999980000 0] }) (up 0)
     let k : Fin 2 := 0
     let w := waitingFrame 4999980000 0
     let rest := ([] : List TrlTx)
     let now := s.clk.now
     let on := trlOn s
     let x := s.trl.sides[k]
     x.unack = w :: rest ∧ on = true ∧ w.at_ + 20000 ≤ now ∧ w.resends < 3)
    ∧ (let s : State := modSide 0 (fun x => { x with unack := [waitingFrame 4999980000 3] }) (up 0)
     let k : Fin 2 := 0
     let w := waitingFrame 4999980000 3
     let rest := ([] : List TrlTx)
     let now := s.clk.now
     let on := trlOn s
     let x := s.trl.sides[k]
     x.unack = w :: rest ∧ on = true ∧ w.at_ + 20000 ≤ now ∧ 3 ≤ w.resends)
    ∧ (let s : State := modSide 0 (fun x => { x with unack := [waitingFrame 4999980001 0] }) (up 0)
     let k : Fin 2 := 0
     let w := waitingFrame 4999980001 0
     let rest := ([] : List TrlTx)
     let now := s.clk.now
     let on := trlOn s
     let x := s.trl.sides[k]
     x.unack = w :: rest ∧ (on = false ∨ now < w.at_ + 20000))
    ∧ (let s : State := modSide 0 (fun x => { x with lastAt := 4999000000, st := 1 }) (up 0)
     let k : Fin 2 := 0
     let now := s.clk.now
     let on := trlOn s
     let x := s.trl.sides[k]
     on = true ∧ x.st ≠ 0 ∧ x.st ≠ 2 ∧ x.lastAt + 1000000 ≤ now)
    ∧ (let s : State := booted 1 0
     s.boot.phase < 2)
    ∧ (let s : State := nap true (dst [0] .off)
     s.boot.phase = 7 ∧ s.boot.condition = 0 ∧ s.boot.resetLow = none ∧ s.dom.lastWake.source = 0 ∧ s.dom.dom[(0 : Fin 16)].st = .off ∧
         s.dom.dom[(0 : Fin 16)].upAfter = false ∧ s.dom.wake[wakeSlot 7 0].enable = true)
    ∧ (let s : State := dst [0] .off
     let on := trlOn s
     on = false)
    ∧ (let s : State := live
     let bytes : List Byte := []
     let on := trlOn s
     on = true ∧ s.flt.inject = none ∧ readFrame bytes = none)
    ∧ (let s : State := up 0
     let k : Fin 2 := 0
     let bytes : List Byte := frameTo 2 0 2 0 0 []
     let f := (⟨2, 0, 2, 0, 4, false, 0, []⟩ : TrlFrame)
     let on := trlOn s
     let x := s.trl.sides[k]
     readFrame bytes = some f ∧ on = true ∧ s.flt.inject = none ∧ f.type = 2 ∧ x.st = 2)
    ∧ (let s : State := live
     let k : Fin 2 := 0
     let bytes : List Byte := frameTo 2 0 2 0 0 []
     let f := (⟨2, 0, 2, 0, 4, false, 0, []⟩ : TrlFrame)
     let on := trlOn s
     let x := s.trl.sides[k]
     readFrame bytes = some f ∧ on = true ∧ s.flt.inject = none ∧ f.type = 2 ∧ (x.st = 0 ∨ x.st = 1))
    ∧ (let s : State := up 0
     let k : Fin 2 := 0
     let bytes : List Byte := frameTo 3 15 2 0 0 []
     let f := (⟨3, 15, 2, 0, 4, false, 0, []⟩ : TrlFrame)
     let on := trlOn s
     let x := s.trl.sides[k]
     readFrame bytes = some f ∧ on = true ∧ s.flt.inject = none ∧ f.type = 3 ∧ x.st = 2 ∧ f.src ≤ 3)
    ∧ (let s : State := up 0
     let k : Fin 2 := 0
     let bytes : List Byte := frameTo 1 2 3 9 1 [1]
     let f := (⟨1, 2, 3, 9, 4, false, 1, [1]⟩ : TrlFrame)
     let on := trlOn s
     let x := s.trl.sides[k]
     readFrame bytes = some f ∧ on = true ∧ s.flt.inject = none ∧ x.st = 2 ∧ (f.type ≠ 2 ∧ f.type ≠ 3) ∧ f.seq ≠ x.rxSeq + 1)
    ∧ (let s : State := up 0
     let k : Fin 2 := 0
     let bytes : List Byte := frameTo 1 2 3 8 1 [1, 2]
     let f := (⟨1, 2, 3, 8, 4, false, 1, [1, 2]⟩ : TrlFrame)
     let on := trlOn s
     let me := (self s).val
     let x := s.trl.sides[k]
     readFrame bytes = some f ∧ on = true ∧ s.flt.inject = none ∧ (x.st = 2 ∧ (f.type ≠ 2 ∧ f.type ≠ 3) ∧ f.seq = x.rxSeq + 1) ∧ f.type
         = 1 ∧ f.dest ≠ 15 ∧ f.dest ≠ me ∧ s.trl.dup = false)
    ∧ (let s : State := up 0
     let k : Fin 2 := 0
     let bytes : List Byte := frameTo 5 0 2 8 0 [0, 0x77, 3]
     let f := (⟨5, 0, 2, 8, 4, false, 0, [0, 0x77, 3]⟩ : TrlFrame)
     let on := trlOn s
     let me := (self s).val
     let x := s.trl.sides[k]
     readFrame bytes = some f ∧ on = true ∧ s.flt.inject = none ∧ (x.st = 2 ∧ (f.type ≠ 2 ∧ f.type ≠ 3) ∧ f.seq = x.rxSeq + 1) ∧ f.type
         = 5 ∧ f.dest = me ∧ isLead s = true)
    ∧ (let s : State := up 0
     let k : Fin 2 := 0
     let bytes : List Byte := frameTo 1 0 2 8 3 replyBytes
     let f := (⟨1, 0, 2, 8, 4, false, 3, replyBytes⟩ : TrlFrame)
     let on := trlOn s
     let me := (self s).val
     let x := s.trl.sides[k]
     readFrame bytes = some f ∧ on = true ∧ s.flt.inject = none ∧ (x.st = 2 ∧ (f.type ≠ 2 ∧ f.type ≠ 3) ∧ f.seq = x.rxSeq + 1) ∧ f.type
         = 1 ∧ f.dest = me ∧ isLead s = true ∧ (halfAt f.body 2).getLsbD 15 = true ∧ reqOf f.host f.body s = none)
    ∧ (let s : State := asking (tracked (some 5000000000) none) (up 0)
     let k : Fin 2 := 0
     let bytes : List Byte := frameTo 1 0 2 8 3 replyBytes
     let f := (⟨1, 0, 2, 8, 4, false, 3, replyBytes⟩ : TrlFrame)
     let r := tracked (some 5000000000) none
     let on := trlOn s
     let me := (self s).val
     let x := s.trl.sides[k]
     readFrame bytes = some f ∧ on = true ∧ s.flt.inject = none ∧ (x.st = 2 ∧ (f.type ≠ 2 ∧ f.type ≠ 3) ∧ f.seq = x.rxSeq + 1) ∧ f.type
         = 1 ∧ f.dest = me ∧ isLead s = true ∧ (halfAt f.body 2).getLsbD 15 = true ∧ reqOf f.host f.body s = some r ∧ r.bcast = false ∧
         r.pkt.time = none)
    ∧ (let s : State := up 0
     let k : Fin 2 := 0
     let bytes : List Byte := frameTo 6 15 2 8 0 [5]
     let f := (⟨6, 15, 2, 8, 4, false, 0, [5]⟩ : TrlFrame)
     let on := trlOn s
     let x := s.trl.sides[k]
     readFrame bytes = some f ∧ on = true ∧ s.flt.inject = none ∧ (x.st = 2 ∧ (f.type ≠ 2 ∧ f.type ≠ 3) ∧ f.seq = x.rxSeq + 1) ∧ f.type
         = 6)
    ∧ (let s : State := member 2 (up 0)
     let k : Fin 2 := 0
     let bytes : List Byte := frameTo 4 15 0 8 0 timeBody
     let f := (⟨4, 15, 0, 8, 4, false, 0, timeBody⟩ : TrlFrame)
     let on := trlOn s
     let x := s.trl.sides[k]
     readFrame bytes = some f ∧ on = true ∧ s.flt.inject = none ∧ (x.st = 2 ∧ (f.type ≠ 2 ∧ f.type ≠ 3) ∧ f.seq = x.rxSeq + 1) ∧ f.type
         = 4 ∧ isLead s = false ∧ (pathTo 0 s = none ∨ pathTo 0 s = some k))
    ∧ (let s : State := member 2 (up 0)
     let k : Fin 2 := 0
     let bytes : List Byte := frameTo 1 2 3 8 1 [1, 2]
     let f := (⟨1, 2, 3, 8, 4, false, 1, [1, 2]⟩ : TrlFrame)
     let on := trlOn s
     let me := (self s).val
     let x := s.trl.sides[k]
     readFrame bytes = some f ∧ on = true ∧ s.flt.inject = none ∧ (x.st = 2 ∧ (f.type ≠ 2 ∧ f.type ≠ 3) ∧ f.seq = x.rxSeq + 1) ∧ f.type
         = 1 ∧ f.dest = me ∧ isLead s = false ∧ ready s = true ∧ s.boot.condition = 0 ∧ s.trl.dup = false ∧ s.cmd.restart = none)
    ∧ (let s : State := member 2 (paths 1 (up 0 { live with cmd := { live.cmd with ready := false } }))
     let k : Fin 2 := 0
     let bytes : List Byte := frameTo 1 2 0 8 3 (packetBytes request)
     let f := (⟨1, 2, 0, 8, 4, false, 3, packetBytes request⟩ : TrlFrame)
     let k' : Fin 2 := 0
     let on := trlOn s
     let me := (self s).val
     let x := s.trl.sides[k]
     readFrame bytes = some f ∧ on = true ∧ s.flt.inject = none ∧ (x.st = 2 ∧ (f.type ≠ 2 ∧ f.type ≠ 3) ∧ f.seq = x.rxSeq + 1) ∧ f.type
         = 1 ∧ f.dest = me ∧ isLead s = false ∧ ready s = false ∧ s.trl.dup = false ∧ (parsePacket 10 f.body).replyWanted = true ∧ pathTo
         0 s = some k' ∧ s.trl.sides[k'].st = 2)
    ∧ (let s : State := live
     let m : Fin 4 := 2
     let tag : Half := (0x77 : Half)
     let now := s.clk.now
     let hit := s.trl.reqs.find? fun r => r.member = m && r.pkt.tag == tag && r.due.any (fun t => decide (t ≤ now))
     hit = none)
    ∧ (let s : State := asking (tracked (some 5000000000) none) (up 0)
     let m : Fin 4 := 2
     let tag : Half := (0x77 : Half)
     let r := tracked (some 5000000000) none
     let now := s.clk.now
     let hit := s.trl.reqs.find? fun r => r.member = m && r.pkt.tag == tag && r.due.any (fun t => decide (t ≤ now))
     hit = some r)
    ∧ (let s : State := live
     let m : Fin 4 := 2
     let now := s.clk.now
     (¬ s.trl.reqs.any (fun r => r.member = m && r.wakeAt.any (fun t0 => decide (t0 + 3000000 ≤ now))) = true))
    ∧ (let s : State := asking (tracked none (some 4997000000)) (up 0)
     let m : Fin 4 := 2
     let now := s.clk.now
     s.trl.reqs.any (fun r => r.member = m && r.wakeAt.any (fun t0 => decide (t0 + 3000000 ≤ now))) = true)
    ∧ (let s : State := live
     let now := s.clk.now
     let on := trlOn s
     (isLead s = true ∨ engineRuns s = false) ∧ (isLead s = true ∧ on = true ∧ s.trl.timeSent + 1000000 ≤ now) ∧ (¬ (isLead s = false ∧
         s.trl.timeAt.any (fun t0 => decide (t0 + 3000000 ≤ now)) = true)))
    ∧ (let s : State := member 2 (timed 4997000000 live)
     let now := s.clk.now
     let on := trlOn s
     isLead s = false ∧ engineRuns s = true ∧ (¬ (isLead s = true ∧ on = true ∧ s.trl.timeSent + 1000000 ≤ now)) ∧ (isLead s = false ∧
         s.trl.timeAt.any (fun t0 => decide (t0 + 3000000 ≤ now)) = true)) := by
  unfold AtHead; refine ⟨?_, ?_, ?_, ?_, ?_, ?_, ?_, ?_, ?_, ?_, ?_, ?_, ?_, ?_, ?_, ?_, ?_, ?_, ?_, ?_, ?_, ?_, ?_, ?_, ?_, ?_, ?_, ?_, ?_, ?_, ?_⟩ <;> decide +kernel

end ForTrellis

namespace ForEveryUnitHasItsPart

/-- OUT_SET of outputs 0 and 1, a part per unit; OUT_READ of the same, one effect for all. -/
theorem witness_EveryUnitHasItsPart :
    (let op : Half := 0x0200
     let p : Packet := { pk (zw 28 [(11, 3)]) with opcode := op }
     let s : State := live
     let us : List UnitRef := [.out 0, .out 1]
     (engineRuns s = true ∧ (alwaysAuth op p.host = true → p.auth = true) ∧ opOutSet.lenOk p.payload = true ∧ opOutSet.resOk p.payload = true
       ∧ opOutSet.parOk p.payload = true ∧ opOutSet.units p s = us ∧ us ≠ [] ∧ us.Nodup ∧ UnitRef.chip ∉ us
       ∧ ∀ u ∈ us, (∀ w ∈ s.cmd.waiting, u ∈ w.todo → w.busy = false) ∧ ∀ d ∈ (unitDomain u).toList, domOn d s = true))
    ∧ (let p : Packet := { pk (zw 4 [(2, 2)]) with opcode := 0x0202 }
     let s : State := live
     let us : List UnitRef := [.out 0, .out 1]
     (engineRuns s = true ∧ (alwaysAuth 0x0202 p.host = true → p.auth = true) ∧ opOutRead.lenOk p.payload = true ∧ opOutRead.resOk p.payload = true
       ∧ opOutRead.parOk p.payload = true ∧ opOutRead.units p s = us ∧ us ≠ [] ∧ us.Nodup ∧ UnitRef.chip ∉ us
       ∧ ∀ u ∈ us, (∀ w ∈ s.cmd.waiting, u ∈ w.todo → w.busy = false) ∧ ∀ d ∈ (unitDomain u).toList, domOn d s = true))
    ∧ (∀ t, opOutRead.inner (pk (zw 4 [(2, 2)])) t = []) ∧ (∃ f, opOutRead.act = .whole f)
    ∧ (∀ t, opOutSet.inner (pk (zw 28 [(11, 3)])) t = [])
    ∧ (∃ f comb, opOutSet.act = .perUnit f comb) := by
  refine ⟨?_, ?_, fun _ => rfl, ⟨_, rfl⟩, fun _ => rfl, _, _, rfl⟩ <;> decide +kernel

end ForEveryUnitHasItsPart

namespace ForKeys

/-! ### Proofs and blobs under keys that no test knows -/

theorem keyRS_length (i : Nat) (div : BitVec 64) (g : Word) : (keyRS i div g).length = 16 := Crypto.cmac_length _ _ (be_length 16 _)
theorem keyKP_length : keyKP.length = 16 := Crypto.cmac_length _ _ (be_length 16 _)
theorem keyKEK_length (k : List Byte) (h : k.length = 16) : (keyKEK k).length = 16 := Crypto.cmac_length _ _ h

/-- Bytes that end in their own 8-byte proof, and bytes that end in a wrong one. -/
theorem signed_bytes (key m a : List Byte) (n : Nat) (hk : key.length = 16) (ha : a.length = n) : ∃ x y : List Byte,
    x.length = 8 ∧ y.length = 8 ∧ (a ++ x).length = n + 8 ∧ (a ++ y).length = n + 8 ∧ (a ++ x).take n = a ∧ (a ++ y).take n = a
      ∧ slice (a ++ x) n 8 = Crypto.cmac8 key m ∧ slice (a ++ y) n 8 ≠ Crypto.cmac8 key m := by
  have hx := Crypto.cmac8_length key m hk
  have hs : ∀ z : List Byte, z.length = 8 → slice (a ++ z) n 8 = z := fun z hz => by
    rw [slice, ← ha, List.drop_left, List.take_of_length_le (by omega)]
  refine ⟨Crypto.cmac8 key m, (Crypto.cmac8 key m).map (~~~ ·), hx, by simp [hx], by simp [ha, hx], by simp [ha, hx], by simp [← ha],
    by simp [← ha], hs _ hx, ?_⟩
  rw [hs _ (by simp [hx])]
  match h : Crypto.cmac8 key m, hx with
  | z :: l, _ =>
    intro e
    have : ~~~z = z := by simpa using congrArg (·.headD 0) e
    revert this
    exact (by decide +kernel : ∀ z : Byte, ~~~z ≠ z) z

theorem openBlob_made (i : Fin 32) (g : Word) (plain : List Byte) (s : State) (hp : plain.length = 48) (h1 : byteAt plain 17 = BitVec.ofNat 8 i.val)
    (h2 : slice plain 18 4 = be 4 g.toNat) (h3 : allZero (slice plain 32 16) = true) :
    openBlob (makeBlob i.val (rootstock i s).div g plain) s = some plain
      ∧ ∃ w, w.length = 56 ∧ makeBlob i.val (rootstock i s).div g plain = [0xB5, BitVec.ofNat 8 i.val, 0, 0] ++ be 4 g.toNat ++ w := by
  obtain ⟨u, l⟩ := Crypto.keyUnwrap_keyWrap (keyKEK (keyRS i.val (rootstock i s).div g)) plain 6 (keyKEK_length _ (keyRS_length _ _ _)) hp
  generalize hw : Crypto.keyWrap (keyKEK (keyRS i.val (rootstock i s).div g)) plain = w at u l
  have eb : makeBlob i.val (rootstock i s).div g plain = [0xB5, BitVec.ofNat 8 i.val, 0, 0] ++ be 4 g.toNat ++ w := by
    rw [makeBlob, hw]; simp [be]
  refine ⟨?_, w, l, eb⟩
  have hi : ((BitVec.ofNat 8 i.val).toNat) = i.val := by simp; omega
  have e0 : Fin.ofNat 32 i.val = i := Fin.ofNat_val_eq_self i
  rw [eb, openBlob]
  have b1 : ∀ r : List Byte, byteAt ([0xB5, BitVec.ofNat 8 i.val, 0, 0] ++ r) 1 = BitVec.ofNat 8 i.val := fun _ => rfl
  have sl : slice ([0xB5, BitVec.ofNat 8 i.val, 0, 0] ++ (be 4 g.toNat ++ w)) 4 4 = be 4 g.toNat := rfl
  have wd : wordAt ([0xB5, BitVec.ofNat 8 i.val, 0, 0] ++ (be 4 g.toNat ++ w)) 4 = g := by
    rw [wordAt, numAt, sl, ofBe_be]; apply BitVec.eq_of_toNat_eq; simpa using g.isLt
  have s8 : slice ([0xB5, BitVec.ofNat 8 i.val, 0, 0] ++ (be 4 g.toNat ++ w)) 8 56 = w := by
    show (w.take 56) = w
    exact List.take_of_length_le (by omega)
  have z : openBlob.zeroAt' ([0xB5, BitVec.ofNat 8 i.val, 0, 0] ++ (be 4 g.toNat ++ w)) = true := rfl
  have f0 : (byteAt ([0xB5, BitVec.ofNat 8 i.val, 0, 0] ++ (be 4 g.toNat ++ w)) 0 == 0xB5) = true := rfl
  simp only [List.append_assoc, b1, hi, e0, wd, s8, u, z, f0, sl, h1, h2, h3, i.isLt, decide_true, Bool.and_self, BEq.rfl, if_true]

theorem auth_head {op : Half} {ds : List (Fin 16)} {s : State} (b : List Byte) (h : AtHead op .chip ds (pka []) s) : AtHead op .chip ds (pka b) s := h

/-- Rootstock 3 established at generation 5. -/
def rooted : State := modRoot 3 (fun x => { x with st := .established, gen := 5 }) live
/-- Rootstock 9 holds the plan role. -/
def planHeld : State := modRoot 9 (fun x => { x with st := .established, role := 1 }) live
/-- Slot 63 loaded under rootstock 3. -/
def slotted : State := { rooted with ks := { rooted.ks with slots := rooted.ks.slots.set 63 { rooted.ks.slots[63] with st := .loaded, parent := 3, version := 9 } } }
/-- Rootstock 3 holds the vault role. -/
def vaulted : State := modRoot 3 (fun x => { x with st := .established, role := 2 }) live
/-- Rootstock 2 holds the token role; with every shelf slot taken. -/
def tokened : State := modRoot 2 (fun x => { x with st := .established, role := 3, gen := 5 }) live
def fullNv : Memory := (List.range 4096).map fun n => (shelfAddr n, 1)
def fullShelf : State := { tokened with nv := fullNv }

/-- ROOTSTOCK_ESTABLISH with a right and a wrong proof, at an unset rootstock, at one that is not, with its role held elsewhere. -/
theorem witness_KeyStore_establish : ∃ x y : List Byte,
    let b := [3, 1, 0, 0] ++ be 4 5 ++ zs 16 ++ x
    let c := [3, 1, 0, 0] ++ be 4 5 ++ zs 16 ++ y
    (b.length = 32 ∧ opRootstockEstablish.resOk b = true ∧ (byteAt b 0).toNat = 3 ∧ wordAt b 4 = 5 ∧ (byteAt b 1).setWidth 2 = (1 : BitVec 2)
      ∧ slice b 24 8 = (Crypto.cmac keyKP ([0x50] ++ be 4 live.ks.nonce.toNat ++ b.take 24)).take 8)
    ∧ (c.length = 32 ∧ opRootstockEstablish.resOk c = true ∧ (byteAt c 0).toNat = 3 ∧ wordAt c 4 = 5
      ∧ ¬ slice c 24 8 = (Crypto.cmac keyKP ([0x50] ++ be 4 live.ks.nonce.toNat ++ c.take 24)).take 8)
    ∧ (∀ d, AtHead 0x0E00 .chip [14] (pka d) live ∧ AtHead 0x0E00 .chip [14] (pka d) rooted ∧ AtHead 0x0E00 .chip [14] (pka d) planHeld)
    ∧ (∀ s ∈ [live, rooted, planHeld], cryptoReady s = true ∧ (needRandom s).1 = true ∧ (needRandom s).2.ks.nonce = live.ks.nonce)
    ∧ live.ks.roots[(3 : Fin 32)].st = .unset ∧ roleHolder 1 live = none ∧ rooted.ks.roots[(3 : Fin 32)].st ≠ .unset
    ∧ planHeld.ks.roots[(3 : Fin 32)].st = .unset ∧ roleHolder 1 planHeld ≠ none := by
  obtain ⟨x, y, hx, hy, lx, ly, tx, ty, sx, sy⟩ := signed_bytes keyKP ([0x50] ++ be 4 live.ks.nonce.toNat ++ ([3, 1, 0, 0] ++ be 4 5 ++ zs 16))
    ([3, 1, 0, 0] ++ be 4 5 ++ zs 16) 24 keyKP_length rfl
  have r : ∀ z : List Byte, opRootstockEstablish.resOk ([3, 1, 0, 0] ++ be 4 5 ++ zs 16 ++ z) = true := by
    intro z; simp [opRootstockEstablish, chipOp, onlyBits, zeroAt, byteAt, be, zs, List.replicate]
  refine ⟨x, y, ⟨lx, r x, rfl, rfl, rfl, by rw [tx]; exact sx⟩, ⟨ly, r y, rfl, rfl, by rw [ty]; exact sy⟩,
    fun d => ⟨auth_head d ?_, auth_head d ?_, auth_head d ?_⟩, ?_⟩
  · unfold AtHead; decide +kernel
  · unfold AtHead; decide +kernel
  · unfold AtHead; decide +kernel
  · decide +kernel

/-- ROOTSTOCK_INVALIDATE with a right proof, at the generation and at another. -/
theorem witness_KeyStore_invalidate : ∀ g : Word, g = 5 ∨ g = 6 → ∃ x : List Byte,
    let b := [3, 1, 0, 0] ++ be 4 g.toNat ++ x
    b.length = 16 ∧ zeroAt [2, 3] b = true ∧ (byteAt b 0).toNat = 3 ∧ (byteAt b 1).toNat = 1 ∧ wordAt b 4 = g ∧ AtHead 0x0E01 .chip [14] (pka b) rooted
      ∧ slice b 8 8 = (Crypto.cmac keyKP ([0x51] ++ be 4 rooted.ks.nonce.toNat ++ b.take 8)).take 8
      ∧ cryptoReady rooted = true ∧ (needRandom rooted).1 = true ∧ (needRandom rooted).2.ks.nonce = rooted.ks.nonce
      ∧ rooted.ks.roots[(3 : Fin 32)].st = .established ∧ rooted.ks.roots[(3 : Fin 32)].gen = 5 := by
  have h : AtHead 0x0E01 .chip [14] (pka []) rooted := by unfold AtHead; decide +kernel
  rintro g (rfl | rfl)
  · obtain ⟨x, _, _, _, lx, _, tx, _, sx, _⟩ := signed_bytes keyKP ([0x51] ++ be 4 rooted.ks.nonce.toNat ++ ([3, 1, 0, 0] ++ be 4 5))
      ([3, 1, 0, 0] ++ be 4 5) 8 keyKP_length rfl
    exact ⟨x, lx, rfl, rfl, rfl, rfl, auth_head _ h, (by rw [show (5 : Word).toNat = 5 from rfl, tx]; exact sx), by decide +kernel⟩
  · obtain ⟨x, _, _, _, lx, _, tx, _, sx, _⟩ := signed_bytes keyKP ([0x51] ++ be 4 rooted.ks.nonce.toNat ++ ([3, 1, 0, 0] ++ be 4 6))
      ([3, 1, 0, 0] ++ be 4 6) 8 keyKP_length rfl
    exact ⟨x, lx, rfl, rfl, rfl, rfl, auth_head _ h, (by rw [show (6 : Word).toNat = 6 from rfl, tx]; exact sx), by decide +kernel⟩

/-- KEY_CLEAR with a right proof. -/
theorem witness_KeyStore_clear : ∃ x : List Byte,
    let b := [63, 0, 0, 0] ++ x
    let y := slotted.ks.slots[(63 : Fin 64)]
    b.length = 12 ∧ zeroAt [1, 2, 3] b = true ∧ (byteAt b 0).toNat = 63 ∧ AtHead 0x0E03 .chip [14] (pka b) slotted
      ∧ slice b 4 8 = (Crypto.cmac (rootValue (Fin.ofNat 32 y.parent) slotted) ([0x52] ++ be 1 63 ++ be 4 y.version.toNat)).take 8
      ∧ y.st ≠ .empty ∧ slotted.ks.roots[Fin.ofNat 32 y.parent].st = .established
      ∧ cryptoReady slotted = true := by
  have h : AtHead 0x0E03 .chip [14] (pka []) slotted := by unfold AtHead; decide +kernel
  obtain ⟨x, _, _, _, lx, _, tx, _, sx, _⟩ := signed_bytes (rootValue (Fin.ofNat 32 slotted.ks.slots[(63 : Fin 64)].parent) slotted)
    ([0x52] ++ be 1 63 ++ be 4 slotted.ks.slots[(63 : Fin 64)].version.toNat) [63, 0, 0, 0] 4 (keyRS_length _ _ _) rfl
  exact ⟨x, lx, rfl, rfl, auth_head _ h, sx, by decide +kernel⟩

theorem rooted3 : rooted.ks.roots[Fin.ofNat 32 3].st = .established ∧ rooted.ks.roots[Fin.ofNat 32 3].role = 0
    ∧ rooted.ks.roots[Fin.ofNat 32 3].gen = 5 := by decide +kernel

/-- The plaintext of a key for slot 63 under rootstock 3. -/
def plain63 : List Byte := zs 16 ++ [1, 3] ++ be 4 5 ++ be 2 16 ++ [63] ++ zs 3 ++ be 4 9 ++ zs 16

theorem plain63_fields : (byteAt plain63 16 != 1) = false ∧ (byteAt plain63 24).toNat = 63 ∧ numAt plain63 22 2 = 16 ∧ numAt plain63 28 4 = 9
    ∧ rooted.ks.slots[(63 : Fin 64)].version.toNat = 0 := by decide +kernel

/-- KEY_LOAD of a blob that loads. -/
theorem witness_KeyStore_load : ∃ b x : List Byte,
    b.length = 68 ∧ zeroAt [1, 2, 3] b = true ∧ (byteAt b 0).toNat = 63 ∧ AtHead 0x0E02 .chip [14] (pka b) rooted
      ∧ slotBlob 63 (b.drop 4) rooted = .inr x ∧ cryptoReady rooted = true := by
  have h : AtHead 0x0E02 .chip [14] (pka []) rooted := by unfold AtHead; decide +kernel
  obtain ⟨o, w, hw, e⟩ := openBlob_made 3 5 plain63 rooted rfl rfl rfl rfl
  change openBlob (makeBlob 3 (rootstock 3 rooted).div 5 plain63) rooted = some plain63 at o
  change makeBlob 3 (rootstock 3 rooted).div 5 plain63 = _ at e
  rw [e] at o
  generalize hb : [0xB5, BitVec.ofNat 8 (3 : Fin 32).val, 0, 0] ++ be 4 (5 : Word).toNat ++ w = blob at o
  refine ⟨[63, 0, 0, 0] ++ blob, plain63, by simp [← hb, hw], rfl, rfl, auth_head _ h, ?_, by decide +kernel⟩
  show slotBlob 63 blob rooted = .inr plain63
  have d : ∀ b : List Byte, b = [0xB5, 3, 0, 0] ++ be 4 5 ++ w → (byteAt b 0 != 0xB5) = false ∧ (byteAt b 1).toNat = 3 ∧ zeroAt [2, 3] b = true ∧ wordAt b 4 = 5 := by
    rintro b rfl; exact ⟨rfl, rfl, rfl, rfl⟩
  obtain ⟨d0, d1, d2, d3⟩ := d blob hb.symm
  simp only [slotBlob, o, d0, d1, d2, d3, rooted3, plain63_fields]
  decide +kernel

/-- VAULT_CLEAR with a right proof, at the fill and at another, and with a wrong proof. -/
theorem witness_Almanac_vault : ∃ x y z : List Byte,
    let b := be 4 vaulted.alm.fill ++ zs 4 ++ x
    let c := be 4 vaulted.alm.fill ++ zs 4 ++ y
    let d := be 4 (vaulted.alm.fill + 1) ++ zs 4 ++ z
    let right (b : List Byte) := slice b 8 8 = Crypto.cmac8 (rootValue 3 vaulted) ([0x56] ++ be 4 vaulted.alm.vnonce.toNat ++ b.take 8)
    (∀ b' ∈ [b, c, d], b'.length = 16 ∧ zeroAt [4, 5, 6, 7] b' = true ∧ AtHead 0x0F05 .chip [15] (pka b') vaulted)
      ∧ right b ∧ numAt b 0 4 = vaulted.alm.fill ∧ ¬ right c ∧ right d ∧ numAt d 0 4 ≠ vaulted.alm.fill
      ∧ cryptoReady vaulted = true ∧ (needRandom vaulted).1 = true ∧ (needRandom vaulted).2.alm.vnonce = vaulted.alm.vnonce
      ∧ roleHolder 2 vaulted = some 3 ∧ (rootstock 3 vaulted).st = .established := by
  have h : AtHead 0x0F05 .chip [15] (pka []) vaulted := by unfold AtHead; decide +kernel
  obtain ⟨x, y, _, _, lx, ly, tx, ty, sx, sy⟩ := signed_bytes (rootValue 3 vaulted)
    ([0x56] ++ be 4 vaulted.alm.vnonce.toNat ++ (be 4 vaulted.alm.fill ++ zs 4)) (be 4 vaulted.alm.fill ++ zs 4) 8 (keyRS_length _ _ _) rfl
  obtain ⟨z, _, _, _, lz, _, tz, _, sz, _⟩ := signed_bytes (rootValue 3 vaulted)
    ([0x56] ++ be 4 vaulted.alm.vnonce.toNat ++ (be 4 (vaulted.alm.fill + 1) ++ zs 4)) (be 4 (vaulted.alm.fill + 1) ++ zs 4) 8 (keyRS_length _ _ _) rfl
  refine ⟨x, y, z, ?_, by show slice _ 8 8 = _; rw [tx]; exact sx, rfl, by show ¬ slice _ 8 8 = _; rw [ty]; exact sy,
    by show slice _ 8 8 = _; rw [tz]; exact sz, ?_, by decide +kernel⟩
  · simp only [List.mem_cons, List.not_mem_nil, or_false]
    rintro b' (rfl | rfl | rfl)
    · exact ⟨lx, rfl, auth_head _ h⟩
    · exact ⟨ly, rfl, auth_head _ h⟩
    · exact ⟨lz, rfl, auth_head _ h⟩
  · show (1 : Nat) ≠ 0
    decide

theorem shelf_taken (l : List Nat) (n : Nat) (h : n ∈ l) : Mem.read (l.map fun n => (shelfAddr n, (1 : Byte))) (shelfAddr n) = 1 := by
  induction l with
  | nil => cases h
  | cons c l ih =>
    simp only [List.map_cons, Mem.read]
    split
    · rfl
    · rename_i hc
      rcases List.mem_cons.1 h with e | e
      · exact absurd (congrArg shelfAddr e).symm hc
      · exact ih e

theorem fullNv_read (n : Nat) (h : n < 4096) : Mem.read fullNv (shelfAddr n) = 1 := by
  unfold fullNv
  exact shelf_taken (List.range 4096) n (List.mem_range.2 h)

/-- The first byte of every shelf slot is 1. -/
theorem full_slot (n : Nat) (h : n < 4096) : ∃ r, shelfBlob n fullNv = 1 :: r := by
  have e := fullNv_read n h
  generalize fullNv = m at e ⊢
  refine ⟨(List.range 63).map ((fun i => Mem.read m (shelfAddr n + i)) ∘ Nat.succ), ?_⟩
  rw [shelfBlob, Mem.readN, List.range_succ_eq_map, List.map_cons, List.map_map, Nat.add_zero, e]

theorem onShelf_full (s : State) (e : nvView s = fullNv) (ser : BitVec 20) : onShelf ser s = none := by
  rw [onShelf, e, List.findSome?_eq_none_iff]
  intro n hn
  obtain ⟨r, hr⟩ := full_slot n (List.mem_range.1 hn)
  simp [hr, byteAt]

theorem freeShelf_full (m : Memory) (e : m = fullNv) : freeShelf m = none := by
  rw [freeShelf, e, List.find?_eq_none]
  intro n hn
  obtain ⟨r, hr⟩ := full_slot n (List.mem_range.1 hn)
  simp [hr, allZero]

theorem nvView_idle (s : State) (h : s.alm.writes = []) : nvView s = s.nv := by simp [nvView, nvUpTo, h]

theorem fullShelf_view : nvView fullShelf = fullNv := by
  have h : fullShelf.alm.writes = [] := by
    have : tokened.alm.writes = [] := by decide +kernel
    simpa only [fullShelf] using this
  rw [nvView_idle _ h, fullShelf]

/-- TOKEN_ENROL of a key into the cache, onto a shelf with a free slot, onto a full one; 0D04h of the same blob. -/
theorem witness_AccessPackets_enrol : ∃ blob k : List Byte,
    let b (flag : Byte) := be 3 7 ++ [flag] ++ zs 4 ++ blob
    let c := be 3 7 ++ [0] ++ blob
    (∀ flag : Byte, flag = 0 ∨ flag = 1 → (b flag).length = 72 ∧ opTokenEnrol.resOk (b flag) = true ∧ numAt (b flag) 0 3 = 7
      ∧ (byteAt (b flag) 3).getLsbD 0 = decide (flag = 1) ∧ enrolCheck 7 ((b flag).drop 8) tokened = .inr k ∧ enrolCheck 7 ((b flag).drop 8) fullShelf = .inr k
      ∧ AtHead 0x0D03 .chip [14] (pka (b flag)) tokened ∧ AtHead 0x0D03 .chip [14] (pka (b flag)) fullShelf)
    ∧ c.length = 68 ∧ zeroAt [3] c = true ∧ numAt c 0 3 = 7 ∧ enrolCheck 7 (c.drop 4) tokened = .inr k ∧ AtHead 0x0D04 .chip [14] (pka c) tokened
    ∧ (∀ s ∈ [tokened, fullShelf], cryptoReady s = true ∧ domOn 15 s = true)
    ∧ onShelf 7 tokened = none ∧ freeShelf (nvView tokened) = some 0 ∧ onShelf 7 fullShelf = none ∧ freeShelf (nvView fullShelf) = none := by
  have h1 : AtHead 0x0D03 .chip [14] (pka []) tokened := by unfold AtHead; decide +kernel
  have h2 : AtHead 0x0D03 .chip [14] (pka []) fullShelf := by unfold AtHead; decide +kernel
  have h3 : AtHead 0x0D04 .chip [14] (pka []) tokened := by unfold AtHead; decide +kernel
  let plain : List Byte := zs 16 ++ [2, 2] ++ be 4 5 ++ be 3 0 ++ be 3 7 ++ be 4 0 ++ zs 16
  obtain ⟨o, w, hw, e⟩ := openBlob_made 2 5 plain tokened rfl rfl rfl rfl
  obtain ⟨o', _⟩ := openBlob_made 2 5 plain fullShelf rfl rfl rfl rfl
  rw [show (rootstock 2 fullShelf).div = (rootstock 2 tokened).div by simp only [rootstock, fullShelf]] at o'
  change openBlob (makeBlob 2 (rootstock 2 tokened).div 5 plain) fullShelf = some plain at o'
  change openBlob (makeBlob 2 (rootstock 2 tokened).div 5 plain) tokened = some plain at o
  change makeBlob 2 (rootstock 2 tokened).div 5 plain = _ at e
  rw [e] at o o'
  generalize hb : [0xB5, BitVec.ofNat 8 (2 : Fin 32).val, 0, 0] ++ be 4 (5 : Word).toNat ++ w = blob at o o'
  have ec : ∀ s, (s = tokened ∨ s = fullShelf) → enrolCheck 7 blob s = .inr (zs 16) := by
    rintro s (rfl | rfl)
    · rw [enrolCheck, tokenBlob, o, ← hb]; rfl
    · rw [enrolCheck, tokenBlob, o', ← hb]; rfl
  have lb : blob.length = 64 := by rw [← hb]; simp [hw]
  refine ⟨blob, zs 16, ?_, by simp [lb], rfl, rfl, ec _ (.inl rfl), auth_head _ h3, by decide +kernel, ?_, ?_, ?_, ?_⟩
  · rintro flag (rfl | rfl) <;>
      exact ⟨by simp [lb, zs], by simp [opTokenEnrol, chipOp, onlyBits, zeroAt, byteAt, be, zs, List.replicate], rfl, by simp [byteAt, be], ec _ (.inl rfl), ec _ (.inr rfl), auth_head _ h1, auth_head _ h2⟩
  · decide +kernel
  · decide +kernel
  · exact onShelf_full fullShelf fullShelf_view 7
  · exact freeShelf_full (nvView fullShelf) fullShelf_view

theorem readN_write (m : Memory) (a : Nat) (bs : List Byte) (i n : Nat) (h : i + n ≤ bs.length) (hs : a + bs.length ≤ Mem.size) :
    Mem.readN (Mem.write m a bs) (a + i) n = slice bs i n := by
  apply List.ext_getElem
  · simp [Mem.readN, slice]; omega
  · intro j h1 h2
    simp only [Mem.readN, List.length_map, List.length_range] at h1
    simp only [Mem.readN, List.getElem_map, List.getElem_range, slice, List.getElem_take, List.getElem_drop]
    rw [Mem.read_write_same _ _ _ _ (by omega) (by omega) (by omega), show a + i + j - a = i + j by omega, List.getD_eq_getElem?_getD, List.getElem?_eq_getElem (by omega), Option.getD_some]

/-- A plan of one packet: its header up to the CRC, and its body. -/
def planBody : List Byte := packetBytes (pk []) false
def planHead : List Byte := be 4 0x485A5031 ++ be 2 1 ++ be 2 1 ++ be 4 9 ++ be 4 16 ++ be 4 5 ++ be 4 0 ++ zs 24
def planCrc : List Byte := be 4 (crc32 (planHead ++ planBody)).toNat
/-- Rootstock 3 holds the plan role, at generation 5. -/
def planRoot : State := modRoot 3 (fun x => { x with st := .established, role := 1, gen := 5 }) { live with ks := { live.ks with reload := false } }

theorem planHead_fields : planHead.length = 48 ∧ planCrc.length = 4 ∧ planBody.length = 16 ∧ walkPackets 1 planBody = true
    ∧ crc32 (planHead ++ planBody) = wordAt planCrc 0 ∧ roleHolder 1 planRoot = some 3 ∧ (rootstock 3 planRoot).st = .established
    ∧ (rootstock 3 planRoot).gen = 5 ∧ planRoot.plan.noPlan = true ∧ planBase planRoot.plan.targetB + 80 ≤ Mem.size := by decide +kernel

theorem readPlan_of (b : Bool) (m : Memory) (hd bd : List Byte) (h1 : Mem.readN m (planBase b) 64 = hd) (hl : numAt hd 12 4 = 16)
    (h2 : Mem.readN m (planBase b + 64) 16 = bd) : readPlan b m = ⟨hd, bd⟩ := by
  simp [readPlan, h1, hl, h2]

/-- The header after its CRC is the proof and the mark. -/
theorem planHead_reads (x : List Byte) (hx : x.length = 8) :
    let hd := planHead ++ planCrc ++ x ++ zs 4
    wordAt hd 0 = 0x485A5031 ∧ halfAt hd 4 = 1 ∧ numAt hd 6 2 = 1 ∧ numAt hd 12 4 = 16 ∧ wordAt hd 16 = 5 ∧ wordAt hd 8 = 9 ∧ allZero (slice hd 24 24) = true
      ∧ wordAt hd 48 = wordAt planCrc 0 ∧ slice hd 52 8 = x ∧ hd.take 48 = planHead ∧ hd.length = 64 := by
  obtain ⟨l1, l2, _⟩ := planHead_fields
  have f : ∀ r : List Byte, wordAt (planHead ++ r) 0 = 0x485A5031 ∧ halfAt (planHead ++ r) 4 = 1 ∧ numAt (planHead ++ r) 6 2 = 1
      ∧ numAt (planHead ++ r) 12 4 = 16 ∧ wordAt (planHead ++ r) 16 = 5 ∧ wordAt (planHead ++ r) 8 = 9 ∧ allZero (slice (planHead ++ r) 24 24) = true :=
    fun r => ⟨rfl, rfl, rfl, rfl, rfl, rfl, rfl⟩
  have s48 : slice (planHead ++ (planCrc ++ (x ++ zs 4))) 48 4 = planCrc := by
    rw [slice, ← l1, List.drop_left, ← l2, List.take_left]
  have s52 : slice (planHead ++ (planCrc ++ (x ++ zs 4))) 52 8 = x := by
    rw [slice, show (52 : Nat) = planHead.length + planCrc.length by omega, ← List.append_assoc, ← List.length_append, List.drop_left, ← hx, List.take_left]
  have t48 : (planHead ++ (planCrc ++ (x ++ zs 4))).take 48 = planHead := by rw [← l1, List.take_left]
  have p4 : slice planCrc 0 4 = planCrc := by rw [slice, List.drop_zero, List.take_of_length_le (by omega)]
  simp only [List.append_assoc]
  obtain ⟨f1, f2, f3, f4, f5, f6, f7⟩ := f (planCrc ++ (x ++ zs 4))
  exact ⟨f1, f2, f3, f4, f5, f6, f7, by rw [wordAt, wordAt, numAt, numAt, s48, p4], s52, t48, by simp [l1, l2, hx, zs]⟩

/-- A copy that passes every check while rootstock 3 holds the plan role at generation 5, wherever it lies. -/
theorem plan_copy : ∃ copy : List Byte, ∀ (b : Bool) (s : State), roleHolder 1 s = some 3 → rootstock 3 s = rootstock 3 planRoot →
    planSigned (readPlan b (Mem.write [] (planBase b) copy)) s = none
      ∧ (s.plan.noPlan = true → commitCheck (readPlan b (Mem.write [] (planBase b) copy)) s = none) := by
  obtain ⟨_, _, l3, wk, cr, _, r1, r2, _⟩ := planHead_fields
  have hx := Crypto.cmac8_length (rootValue 3 planRoot) (planHead ++ planBody) (keyRS_length _ _ _)
  generalize hX : Crypto.cmac8 (rootValue 3 planRoot) (planHead ++ planBody) = x at hx
  obtain ⟨f1, f2, f3, f4, f5, f6, f7, f8, f9, f10, f11⟩ := planHead_reads x hx
  generalize planHead ++ planCrc ++ x ++ zs 4 = hd at f1 f2 f3 f4 f5 f6 f7 f8 f9 f10 f11
  have ll : (hd ++ planBody).length = 80 := by simp [f11, l3]
  refine ⟨hd ++ planBody, fun b s h1 h2 => ?_⟩
  change roleHolder 1#2 s = some 3 at h1
  have sz : planBase b + 80 ≤ Mem.size := by cases b <;> decide
  have e1 := readN_write [] (planBase b) (hd ++ planBody) 0 64 (by omega) (by omega)
  have e2 := readN_write [] (planBase b) (hd ++ planBody) 64 16 (by omega) (by omega)
  rw [slice, List.drop_zero, ← f11, List.take_left, f11, Nat.add_zero] at e1
  rw [slice, ← f11, List.drop_left, f11, List.take_of_length_le (by omega)] at e2
  rw [readPlan_of _ _ hd planBody e1 f4 e2]
  have h4 : rootValue 3 s = rootValue 3 planRoot := by rw [rootValue, rootValue, h2]
  have sg : planSigned ⟨hd, planBody⟩ s = none := by simp [planSigned, PlanCopy.gen, f5, f9, f10, h1, h2, h4, r1, r2, hX]
  refine ⟨sg, fun h3 => ?_⟩
  simp [commitCheck, planCheck, sg, PlanCopy.lenOk, PlanCopy.len, PlanCopy.count, f1, f2, f3, f4, f7, f8, f10, cr, wk, h3]

/-- PLAN_COMMIT of a signed plan. -/
theorem witness_PlanPackets_commit : ∃ copy : List Byte,
    let p := pk (zs 4)
    let s : State := { planRoot with nv := Mem.write [] (planBase planRoot.plan.targetB) copy }
    p.payload.length = 4 ∧ zeroAt [0, 1, 2, 3] p.payload = true ∧ p.host ≠ 12 ∧ s.ks.reload = false
      ∧ commitCheck (readPlan s.plan.targetB s.nv) s = none ∧ AtHead 0x1201 .chip [14, 15] p s := by
  obtain ⟨_, _, _, _, _, rh, _, _, np, _⟩ := planHead_fields
  obtain ⟨copy, h⟩ := plan_copy
  have a : AtHead 0x1201 .chip [14, 15] (pk (zs 4)) planRoot := by unfold AtHead; decide +kernel
  exact ⟨copy, rfl, rfl, by decide, rfl, (h planRoot.plan.targetB { planRoot with nv := Mem.write [] (planBase planRoot.plan.targetB) copy } rh rfl).2 np, a⟩

/-- The plan phase with a signed copy A that has passed. -/
theorem witness_BringUpPhases_signed : ∃ copy : List Byte,
    let s : State := { planRoot with nv := Mem.write [] (planBase false) copy, boot := { planRoot.boot with phase := 6, condition := 1 }
                                     plan := { planRoot.plan with picked := false, passedA := true, passedB := false } }
    s.boot.condition = 1 ∧ s.boot.phase = 6 ∧ s.plan.picked = false ∧ s.plan.passedA = true ∧ s.plan.passedB = false
      ∧ planSigned (readPlan false s.nv) s = none := by
  obtain ⟨_, _, _, _, _, rh, _⟩ := planHead_fields
  obtain ⟨copy, h⟩ := plan_copy
  exact ⟨copy, rfl, rfl, rfl, rfl, rfl, (h false { planRoot with nv := Mem.write [] (planBase false) copy, boot := { planRoot.boot with phase := 6, condition := 1 }
                                                                 plan := { planRoot.plan with picked := false, passedA := true, passedB := false } } rh rfl).1⟩

end ForKeys

end Sys2Proof.Tests
end

namespace Sys2Proof.Machine

/-! ### Sticky bits of word 0000h and their event (R93) -/

/-- A mask is fresh when one of its bits is not set yet. -/
theorem fresh_iff {n : Nat} (old m : BitVec n) :
    fresh old m = true ↔ ∃ i, m.getLsbD i = true ∧ old.getLsbD i = false := by
  have hbits : (m &&& ~~~old = 0#n) ↔ ∀ i, m.getLsbD i = true → old.getLsbD i = true := by
    constructor
    · intro h i hm
      have hi := congrArg (·.getLsbD i) h
      have hlt : i < n := BitVec.lt_of_getLsbD hm
      simpa [hm, hlt] using hi
    · intro h
      refine BitVec.eq_of_getLsbD_eq fun i hlt => ?_
      cases hm : m.getLsbD i with
      | false => simp [hm]
      | true => simp [hm, hlt, h i hm]
  rw [fresh, bne_iff_ne, ne_eq, BitVec.ofNat_eq_ofNat, hbits]
  simp

/-- While D00 is on and ready has been reached, an enabled event that is raised becomes pending (R91, R596). -/
theorem raiseEv_sets_pending {e : Nat} {s : State} (he : e < 256) (hd : domOn 0 s = true) (hr : ready s = true)
    (hm : s.ev.mask.getLsbD e = true) : (raiseEv e s).ev.pending.getLsbD e = true := by
  have hbit : (s.ev.pending ||| (1 <<< e)).getLsbD e = true := by
    rw [BitVec.getLsbD_or, BitVec.natCast_eq_ofNat, BitVec.getLsbD_ofNat, Nat.testBit_shiftLeft]
    simp [he]
  simpa [raiseEv, hd, hr, judge_pending, hm] using hbit

/-- No raised event takes back a pending bit. -/
theorem raiseEv_keeps_pending {e k : Nat} {s : State} (h : s.ev.pending.getLsbD k = true) :
    (raiseEv e s).ev.pending.getLsbD k = true := by
  unfold raiseEv
  dsimp only
  split
  · rw [judge_pending]
    split <;> simp [h]
  · unfold hold
    split <;> exact h

theorem pushOccAt_keeps_pending {o : OccKind} {z k : Nat} {s : State} (h : s.ev.pending.getLsbD k = true) :
    (pushOccAt o z s).ev.pending.getLsbD k = true := by
  unfold pushOccAt
  split
  · split
    · exact h
    · dsimp only
      split
      · exact h
      · exact raiseEv_keeps_pending h
  · exact h

theorem raise_sets_pending {e : Nat} {s : State} (he : e < 240) (hd : domOn 0 s = true) (hr : ready s = true)
    (hm : s.ev.mask.getLsbD e = true) : (raise e s).ev.pending.getLsbD e = true := by
  rw [raise, if_pos he]
  exact pushOccAt_keeps_pending (raiseEv_sets_pending (by omega) hd hr hm)

/-! ### What the completion of a packet does to the scheduler and to the queues -/

/-- The scheduled packets and those in the unit queues. -/
def State.queued (s : State) : List QPkt × List QPkt := (s.cmd.sched, s.cmd.waiting)

theorem queued_of_cmd {s t : State} (h : t.cmd = s.cmd) : t.queued = s.queued := by rw [State.queued, h]; rfl

@[simp] theorem stickDom_cmd (d : Fin 16) (m : BitVec 6) (s : State) : (stickDom d m s).cmd = s.cmd := by simp [stickDom]
@[simp] theorem stickPlan_cmd (m : BitVec 4) (s : State) : (stickPlan m s).cmd = s.cmd := by simp [stickPlan]
@[simp] theorem stickSlot_cmd (k : Fin 64) (m : BitVec 8) (s : State) : (stickSlot k m s).cmd = s.cmd := by simp [stickSlot]
@[simp] theorem stickRfx_cmd (i : Fin 128) (m : BitVec 4) (s : State) : (stickRfx i m s).cmd = s.cmd := by simp [stickRfx]

@[simp] theorem startUpOne_cmd (d : Fin 16) (s : State) : (startUpOne d s).cmd = s.cmd := by
  unfold startUpOne startRoot; split <;> simp

@[simp] theorem wakeOne_cmd (d : Fin 16) (s : State) (b : BitVec 6) : (wakeOne d s b).cmd = s.cmd := by
  unfold wakeOne
  split
  · simp
  · split
    · simp
    · split <;> simp

@[simp] theorem wakeInternal_cmd (d : Fin 16) (s : State) (b : BitVec 6) : (wakeInternal d s b).cmd = s.cmd := by
  unfold wakeInternal; dsimp only; split <;> simp

@[simp] theorem planDone_cmd (p : Packet) (c : Half) (s : State) : (planDone p c s).cmd = s.cmd := by
  unfold planDone; split <;> simp

@[simp] theorem reflexDone_cmd (p : Packet) (c : Half) (s : State) : (reflexDone p c s).cmd = s.cmd := by
  unfold reflexDone; dsimp only; split <;> simp

@[simp] theorem sendFrame_cmd (p : Fin 3) (c : BitVec 3) (f : EthFrame) (s : State) : (sendFrame p c f s).cmd = s.cmd := by
  unfold sendFrame; split <;> rfl

@[simp] theorem stickCmd_queued (m : BitVec 12) (s : State) : (stickCmd m s).queued = s.queued := by
  simp [stickCmd, State.queued]

@[simp] theorem pushOut_queued (h : Fin 16) (o : OutPkt) (s : State) : (pushOut h o s).queued = s.queued := by
  unfold pushOut
  split
  · dsimp only
    split
    · rfl
    · split
      · rfl
      · split <;> simp
  · rfl

@[simp] theorem pushReply_queued (src : Option EthSrc) (r : Packet) (c : BitVec 3) (m : ReplyMark) (s : State) :
    (pushReply src r c m s).queued = s.queued := by
  unfold pushReply directReply
  split
  · split
    · split
      · exact queued_of_cmd (by simp)
      · rfl
    · rfl
  · simp

@[simp] theorem planDone_queued (p : Packet) (c : Half) (s : State) : (planDone p c s).queued = s.queued :=
  queued_of_cmd (planDone_cmd p c s)

@[simp] theorem reflexDone_queued (p : Packet) (c : Half) (s : State) : (reflexDone p c s).queued = s.queued :=
  queued_of_cmd (reflexDone_cmd p c s)

@[simp] theorem touch_queued (d : Fin 16) (s : State) : (touch d s).queued = s.queued := rfl

@[simp] theorem buildAuthReply_queued (r : Packet) (k : Fin 64) (src : Option EthSrc) (c : BitVec 3) (m : ReplyMark) (s : State) :
    (buildAuthReply r k src c m s).queued = s.queued := by
  unfold buildAuthReply
  dsimp only
  split
  · simp
  · simp
  · rw [pushReply_queued]
    exact queued_of_cmd (by simp)

@[simp] theorem sendReply_queued (q : QPkt) (c d : Half) (l : List Byte) (t : Option (BitVec 64)) (m : ReplyMark) (s : State) :
    (sendReply q c d l t m s).queued = s.queued := by
  unfold sendReply
  split
  · dsimp only
    split
    · split
      · simp
      · simp [State.queued]
    · simp
  · rfl

@[simp] theorem answerBroken_queued (q : QPkt) (s : State) : (answerBroken q s).queued = s.queued := by
  unfold answerBroken
  rw [sendReply_queued]
  split <;> simp

@[simp] theorem chainDone_queued (n : Nat) (c : Half) (s : State) : (chainDone n c s).queued = s.queued := by
  have hfold (l : List QPkt) (v : State) : (l.foldl (fun v q => answerBroken q v) v).queued = v.queued :=
    foldl_keeps State.queued _ (fun b a => answerBroken_queued a b) l v
  unfold chainDone
  split
  · rfl
  · dsimp only
    split
    · split <;> rfl
    · split
      · rw [stickCmd_queued, hfold]; rfl
      · rw [hfold]; rfl

@[simp] theorem bcastAnswer_queued (m : Nat) (h : Fin 16) (t : Half) (n : Word) (g o : Bool) (s : State) :
    (bcastAnswer m h t n g o s).queued = s.queued := by
  unfold bcastAnswer
  split
  · rfl
  · dsimp only
    split
    · rfl
    · split
      · rw [pushOut_queued]; rfl
      · rfl

/-- A packet that completes leaves the unit queues; nothing else is scheduled, queued, or taken out. -/
theorem complete_queued (q : QPkt) (a : Ans) (s : State) (m : ReplyMark) :
    (complete q a s m).queued = (s.cmd.sched, s.cmd.waiting.filter (·.seq ≠ q.seq)) := by
  have hdrop : (dropQ q.seq s).queued = (s.cmd.sched, s.cmd.waiting.filter (·.seq ≠ q.seq)) := rfl
  unfold complete
  rw [← hdrop]
  cases q.chain <;> simp [apply_ite State.queued]

theorem complete_sched (q : QPkt) (a : Ans) (s : State) (m : ReplyMark) : (complete q a s m).cmd.sched = s.cmd.sched :=
  congrArg Prod.fst (complete_queued q a s m)

theorem complete_waiting (q : QPkt) (a : Ans) (s : State) (m : ReplyMark) :
    (complete q a s m).cmd.waiting = s.cmd.waiting.filter (·.seq ≠ q.seq) :=
  congrArg Prod.snd (complete_queued q a s m)

/-- A packet stays in the queues while others complete. -/
theorem mem_waiting_completes (a : Ans) (w : QPkt) (l : List QPkt) (s : State) (hw : w ∈ s.cmd.waiting)
    (hl : ∀ q ∈ l, q.seq ≠ w.seq) : w ∈ (l.foldl (fun v q => complete q a v) s).cmd.waiting := by
  induction l generalizing s with
  | nil => exact hw
  | cons q l ih =>
    rw [List.forall_mem_cons] at hl
    obtain ⟨hq, hl⟩ := hl
    refine ih (complete q a s) ?_ hl
    rw [complete_waiting]
    exact List.mem_filter.2 ⟨hw, by simpa using hq.symm⟩

/-! ### A packet row of the chip queue that needs no domain -/

theorem mem_waiting_putQ {q w : QPkt} {s : State} (hw : w ∈ s.cmd.waiting) (hne : w.seq ≠ q.seq) :
    w ∈ (putQ q s).cmd.waiting :=
  List.mem_map.2 ⟨w, hw, if_neg hne⟩

/-- The state with packet `q` put at the heads of its queues. -/
def enqueued (q : QPkt) (s : State) : State :=
  modCmd (fun c => { c with waiting := q :: c.waiting, arrivals := c.arrivals + 1 }) s

/-- Packet `p` of a row with opcode `op` and one unit, as it stands at the head of that unit's queue. -/
def rowPacket (op : Half) (u : UnitRef) (p : Packet) (s : State) : QPkt :=
  { mkQ { p with opcode := op } [u] s with staged := true }

/-- A packet row of one unit that passes the checks before its turn is that unit's turn, with the packet in the queue. -/
theorem runRow_eq_runPart (spec : OpSpec) (op : Half) (p : Packet) (s : State) (u : UnitRef)
    (hr : engineRuns s = true) (ha : alwaysAuth op p.host = true → p.auth = true)
    (hl : spec.lenOk p.payload = true) (hres : spec.resOk p.payload = true)
    (hu : spec.units { p with opcode := op } s = [u]) (hb : ∀ w ∈ s.cmd.waiting, u ∈ w.todo → w.busy = false) :
    runRow spec op p s = runPart spec (rowPacket op u p s) u (enqueued (rowPacket op u p s) s) := by
  have hauth : (alwaysAuth op p.host && !p.auth) = false := by
    cases h : alwaysAuth op p.host with
    | false => rfl
    | true => simp [ha h]
  have hidle : ((inQueue u s).any (·.busy)) = false := by
    rw [List.any_eq_false]
    intro w hw
    obtain ⟨hmem, htodo⟩ := List.mem_filter.1 hw
    simpa using hb w hmem (by simpa using htodo)
  simp [runRow, hr, hu, hres, hauth, hl, hidle, runNow, rowPacket, enqueued, mkQ]

/-- A packet row of the chip queue whose opcode acts once and needs no domain: it acts with its own packet in the queues, and
every other packet there (no other has its arrival number) still is. -/
theorem answers_chip {c : Instr} {spec : OpSpec} {op : Half} {p : Packet} {s : State}
    {f : QPkt → List UnitRef → State → Option Ans × State} {P : Ans → State → Prop}
    (hc : exec c s = runPacket spec op p s) (hact : spec.act = .whole f) (hat : AtHead op .chip [] p s)
    (hl : spec.lenOk p.payload = true) (hres : spec.resOk p.payload = true) (hp : spec.parOk p.payload = true)
    (hu : spec.units { p with opcode := op } (begin_ s) = [.chip]) (hd : spec.doms { p with opcode := op } = [])
    (hany : spec.anyOf { p with opcode := op } = []) (hi : ∀ t, spec.inner { p with opcode := op } t = [])
    (hf : ∀ q t, q.pkt = { p with opcode := op } → Entered (begin_ s) t →
      (∀ w ∈ s.cmd.waiting, w.seq ≠ s.cmd.arrivals → w ∈ t.cmd.waiting) → ∃ a t', f q [.chip] t = (some a, t') ∧ P a t') :
    Answers c op p s P := by
  obtain ⟨hr, ha, hb, -⟩ := hat
  let q0 := rowPacket op .chip p (begin_ s)
  let q : QPkt := { q0 with todo := [], results := [⟨.chip, 0, 0, 0⟩] }
  let t := putQ q (enqueued q0 (begin_ s))
  have hent : Entered (begin_ s) t := entered_putQ (entered_join (begin_ s) q0) q
  have hwait : ∀ w ∈ s.cmd.waiting, w.seq ≠ s.cmd.arrivals → w ∈ t.cmd.waiting := fun w hw hne =>
    mem_waiting_putQ (List.mem_cons_of_mem q0 hw) hne
  obtain ⟨a, t', hft, hP⟩ := hf q t rfl hent hwait
  obtain ⟨m, hm⟩ := finishParts_some spec q t t' .chip a f hact rfl rfl hft
  have hno : unitDoms spec q0 .chip (enqueued q0 (begin_ s)) = [] := by simp [unitDoms, q0, rowPacket, mkQ, hd, hany]
  have hinner : spec.inner q0.pkt = fun _ => [] := funext hi
  have hturn : runRow spec op p (begin_ s) = finishParts spec q t := by
    rw [runRow_eq_runPart spec op p (begin_ s) .chip hr ha hl hres hu hb,
      runPart_go spec q0 .chip _ rfl rfl (by rw [hno]; rfl) hp rfl (by rw [hinner]; rfl), hno, hinner, hact]
    rfl
  exact ⟨q, m, a, t', by rw [hc, runPacket, run, hturn, hm], rfl, hP⟩

/-! ### SCHED_CANCEL (R81) -/

/-- What SCHED_CANCEL does in a state: it counts the packets selected, takes them out, and completes each. -/
theorem schedCancel_eq (b : List Byte) (s : State) :
    schedCancel b s = ((s.cmd.sched.filter (cancelled b)).length,
      (s.cmd.sched.filter (cancelled b)).foldl (fun v q => complete q (.err stTimeStepped 1) v)
        { s with cmd := { s.cmd with sched := s.cmd.sched.filter (!cancelled b ·) } }) := rfl

end Sys2Proof.Machine

namespace Sys2Proof.CommandPackets

open Sys2Proof.Machine

/-- Settles O12 (R93): a mask is fresh exactly when one of its bits was 0, and only a fresh one raises event 236. -/
theorem engineEvent : Obligations.EngineEvent := by
  intro m s hd hr hm
  refine ⟨by simp [stickCmd], fun hnew => ?_, fun hold => ?_⟩
  · rw [stickCmd, (fresh_iff _ _).2 hnew, raiseIf, if_pos rfl]
    exact raise_sets_pending (by decide) hd hr hm
  · have hf : fresh s.cmd.sticky m = false := by
      rw [Bool.eq_false_iff, ne_eq, fresh_iff]
      rintro ⟨i, hi, hn⟩
      simp [hold i hi] at hn
    simp [stickCmd, hf, raiseIf]

/-- Settles O14 (R81; which packets a TAG selects is log entry 42): the row acts at once, and each completion takes nothing but
its own packet out of the queues. -/
theorem schedCancel : Obligations.SchedCancel := by
  intro p s hlen hhost hmode hat out
  refine answers_chip (spec := opSchedCancel) rfl rfl hat (by simpa [opSchedCancel, chipOp] using hlen) rfl
    (by simp [opSchedCancel, hhost, hmode]) rfl rfl rfl (fun _ => rfl) fun q t hq hent hwait => ?_
  have hsched : t.cmd.sched = s.cmd.sched := by
    obtain ⟨-, hcmd, -⟩ := hent
    rw [hcmd]; rfl
  refine ⟨_, _, rfl, ?_⟩
  dsimp only
  rw [schedCancel_eq, hq, hsched]
  refine ⟨rfl, ?_, ⟨t, hent, rfl⟩, fun w hw hne hseq => ?_⟩
  · exact foldl_keeps (fun v : State => v.cmd.sched) _ (fun v q => complete_sched q _ v _) out _
  · exact mem_waiting_completes _ w out _ (hwait w hw hne) fun q hq => hseq q (List.mem_filter.1 hq).1

end Sys2Proof.CommandPackets
